-- ==== Sys2Proof/Word.lean ====
section
/-! DEFINITION. The word types of the AKV-9154 and the two sparse containers its state is made of:
memory as canonical (address, byte) pairs, and tables keyed by a number. -/

namespace Sys2Proof

/-- One byte. -/
abbrev Byte := BitVec 8
/-- A 32-bit register or field. -/
abbrev W32 := BitVec 32
/-- A 64-bit register or field (02, Registers). -/
abbrev Word := BitVec 64
/-- A 512-bit vector register, or a 64-byte structure read little-endian under R8. -/
abbrev V512 := BitVec 512

/-- A memory: cells with strictly rising addresses, none equal to the zero byte an unlisted address reads as. -/
abbrev Mem := List Host.Cell

/-- A sparse table: entries with strictly rising keys. -/
abbrev Tbl (α : Type) := List (Nat × α)

end Sys2Proof
end

