-- ==== Sys2Proof/Syntax.lean ====
section
/-! DEFINITION. The commands of the AKV-9154: one constructor of `Instr` for each row of the table of
operations and events. An operand names the subject of the step (an engine, a task, a post, a queue pair,
a port) or carries what reaches the drive from outside with it (bytes of host memory, a frame, a measurement,
whether a die operation succeeded). -/

namespace Sys2Proof

/-- A context: engine 0–95 and context 0–63 of that engine (R33). -/
structure TaskRef where
  eng : Nat
  ctx : Nat
  deriving DecidableEq, Repr

/-- A command that runs: a task's own, or that of the member of its BATCH with this index. -/
structure CmdRef where
  task : TaskRef
  mem : Option Nat
  deriving DecidableEq, Repr

/-- An outstanding post: the task and its tag 0–31 (R49). -/
structure PostRef where
  eng : Nat
  ctx : Nat
  tag : Nat
  deriving DecidableEq, Repr

/-- Why a request the drive issued to host memory failed: Unsupported Request, Completer Abort, poisoned data, no
completion in time (R515). -/
inductive HostErr where
  | ur | ca | poisoned | timeout
  deriving DecidableEq, Repr

/-- What a read of host memory brings: the bytes, or a failure. -/
inductive Rd where
  | ok (bytes : List Byte)
  | fail (err : HostErr)
  deriving DecidableEq, Repr

/-- How the data of a read reaches its buffer: whole, or failing at step 9 of R173. -/
inductive Fetch where
  | ok
  | hostFail (err : HostErr)
  | authFail
  /-- A coded tile or piece could not be decoded (R198, R205): its index. -/
  | decodeFail (index : Nat)
  deriving DecidableEq, Repr

/-- What the SEC-DED of local store reports for the words an instruction reads (R41). -/
inductive LsEcc where
  | clean
  | corrected
  | uncorrectable
  deriving DecidableEq, Repr

/-- Where an atomic, a POST, a HASH or a CRC executes: the engine, and what local store reports for the words it reads. -/
structure EngLs where
  eng : Nat
  ls : LsEcc
  deriving DecidableEq, Repr

/-- How a lane's verify pass went (R194–R196): first try, second try, or neither. -/
inductive Verify where
  | pass
  | retried (pixel : Nat)
  | failed (pixel1 pixel2 : Nat)
  deriving DecidableEq, Repr

/-- The recovery step of R214 at which a page read ended. -/
inductive ReadEnd where
  | hard (level : Nat)
  | soft (strobes : Nat)
  | rebuild
  | unrecoverable
  /-- The transfer on the channel was in error, of this kind, and was made again (R248). -/
  | channel (kind : Nat)
  deriving DecidableEq, Repr

/-- How a read's data comes: the ends of its page reads, in order, and how it reaches its buffer. -/
structure ReadIn where
  fetch : Fetch
  ends : List ReadEnd
  deriving DecidableEq, Repr

/-- What patrol finds in a page: how its read ends, and the bits corrected (R243). -/
structure PatrolEnd where
  bits : Nat
  how : ReadEnd
  deriving DecidableEq, Repr

/-- A drive read of host memory whose completion arrives by itself (R326, R126). -/
inductive HostReq where
  | couch (channel : Nat) (pos : Nat)
  | lease (page : Nat)
  deriving DecidableEq, Repr

/-- What a BATCH member brings (R164): its key, its scatter list, its value, how a read's data is delivered, and how its reads
of media end. -/
structure MemberIn where
  key : Rd
  sgl : Rd
  value : Rd
  fetch : Fetch
  ends : List ReadEnd
  deriving DecidableEq, Repr

/-- A frame on the wire of a chain port, with what the MAC reports of it (R264–R266, R282). -/
structure FrameIn where
  bytes : List Byte
  fcsOk : Bool
  stomped : Bool
  preemptable : Bool
  mergeErr : Option Nat
  linkFails : Bool
  /-- A respond mPacket of 802.3br verification, in place of a frame (R273). -/
  respond : Bool
  deriving DecidableEq, Repr

/-- One reading of a thermal sensor: 1/16 °C, or none when it does not answer (R369). -/
abbrev Temp := Option Int

/-- What the blower drive measures of its motor and bus (R480). -/
structure BldMeas where
  rpm : Nat
  reverse : Bool
  conf : Nat
  busMv : Nat
  inputCw : Nat
  phaseMa : Nat
  deriving DecidableEq, Repr

/-- What the governor measures at a window boundary (R353, R356, R367, R369), and with it what stands on the links
and in the blower. -/
structure Meas where
  inputUj : Nat
  busyPct : Nat
  waitedQuarter : Bool
  temps : List Temp
  /-- Transitions each unit's pace counter has counted since it was last observed, u = 0–115 (R353). -/
  paces : List Nat
  /-- Setpoint code of the lowest VCORE at which every unit's measured pace is at least 0.70 (R367). -/
  paceFloor : Nat
  /-- FEC codewords corrected and not corrected in the window, per chain port (R283). -/
  fec : List (Nat × Nat)
  blower : BldMeas
  deriving DecidableEq, Repr

/-- What a bring-up step finds (R387, R390, R412, R235, R457). -/
structure BringFacts where
  loaderA : Bool
  loaderB : Bool
  slot0Ok : Bool
  slot1Ok : Bool
  deriving DecidableEq, Repr

/-- What power-loss recovery finds (R235, R461): the held writes whose drain sheets are missing, whether the
seal is valid, the blocks that fail their second erase, and the count and time it reports. -/
structure RecoveryFacts where
  missing : List Nat
  sealOk : Bool
  journalBad : Option (Nat × Nat)
  replayed : Nat
  ms : Nat
  eraseFails : List (Nat × BitVec 32)
  deriving DecidableEq, Repr

/-- A PCI Express configuration request (R453, R96). -/
inductive CfgReq where
  | read (off : Nat)
  | busMaster (enable : Bool)
  | msix (enable mask : Bool)
  | deviceControl (relaxed : Bool) (mps mrrs : Nat)
  | deviceControl2 (timeoutValue : Nat)
  | power (d3hot : Bool)
  /-- A write of an AER register: 0 Uncorrectable Error Status, 1 its Mask, 2 its Severity, 3 Correctable Error Status,
  4 its Mask (R96). -/
  | aer (reg : Nat) (v : BitVec 32)
  deriving DecidableEq, Repr

/-- The commands, in the table's order. -/
inductive Instr where
  -- Shuan instructions (03): `e` is the engine whose RUNNING task executes; fields as in R70.
  | alu (e : Nat) (f : BitVec 10) (b a d : BitVec 5)
  | addi (e : Nat) (imm : BitVec 15) (a d : BitVec 5)
  | andi (e : Nat) (imm : BitVec 15) (a d : BitVec 5)
  | ori (e : Nat) (imm : BitVec 15) (a d : BitVec 5)
  | xori (e : Nat) (imm : BitVec 15) (a d : BitVec 5)
  | slti (e : Nat) (imm : BitVec 15) (a d : BitVec 5)
  | sltiu (e : Nat) (imm : BitVec 15) (a d : BitVec 5)
  | shi (e : Nat) (imm : BitVec 15) (a d : BitVec 5)
  | lui (e : Nat) (imm : BitVec 20) (d : BitVec 5)
  | slori (e : Nat) (imm : BitVec 15) (a d : BitVec 5)
  | rdsys (e : Nat) (f : BitVec 10) (b a d : BitVec 5)
  | lb (e : Nat) (imm : BitVec 15) (a d : BitVec 5) (ecc : LsEcc)
  | lbu (e : Nat) (imm : BitVec 15) (a d : BitVec 5) (ecc : LsEcc)
  | lh (e : Nat) (imm : BitVec 15) (a d : BitVec 5) (ecc : LsEcc)
  | lhu (e : Nat) (imm : BitVec 15) (a d : BitVec 5) (ecc : LsEcc)
  | lw (e : Nat) (imm : BitVec 15) (a d : BitVec 5) (ecc : LsEcc)
  | lwu (e : Nat) (imm : BitVec 15) (a d : BitVec 5) (ecc : LsEcc)
  | ld (e : Nat) (imm : BitVec 15) (a d : BitVec 5) (ecc : LsEcc)
  | vld (e : Nat) (imm : BitVec 15) (a d : BitVec 5) (ecc : LsEcc)
  | sb (e : Nat) (imm : BitVec 15) (a d : BitVec 5)
  | sh (e : Nat) (imm : BitVec 15) (a d : BitVec 5)
  | sw (e : Nat) (imm : BitVec 15) (a d : BitVec 5)
  | sd (e : Nat) (imm : BitVec 15) (a d : BitVec 5)
  | vst (e : Nat) (imm : BitVec 15) (a d : BitVec 5)
  | beq (e : Nat) (imm : BitVec 15) (a d : BitVec 5)
  | bne (e : Nat) (imm : BitVec 15) (a d : BitVec 5)
  | blt (e : Nat) (imm : BitVec 15) (a d : BitVec 5)
  | bge (e : Nat) (imm : BitVec 15) (a d : BitVec 5)
  | bltu (e : Nat) (imm : BitVec 15) (a d : BitVec 5)
  | bgeu (e : Nat) (imm : BitVec 15) (a d : BitVec 5)
  | jal (e : Nat) (imm : BitVec 20) (d : BitVec 5)
  | jalr (e : Nat) (imm : BitVec 15) (a d : BitVec 5)
  | bp (e : Nat) (imm : BitVec 15) (a d : BitVec 5)
  | pcadd (e : Nat) (imm : BitVec 20) (d : BitVec 5)
  | valu (e : Nat) (f : BitVec 10) (b a d : BitVec 5)
  | vcmp (e : Nat) (f : BitVec 10) (b a d : BitVec 5)
  | vsplat (e : Nat) (f : BitVec 10) (b a d : BitVec 5)
  | vext (e : Nat) (f : BitVec 10) (b a d : BitVec 5)
  | vins (e : Nat) (f : BitVec 10) (b a d : BitVec 5)
  | vperm (e : Nat) (f : BitVec 10) (b a d : BitVec 5)
  | vclmul (e : Nat) (f : BitVec 10) (b a d : BitVec 5)
  | vpopc (e : Nat) (f : BitVec 10) (b a d : BitVec 5)
  | vred (e : Nat) (f : BitVec 10) (b a d : BitVec 5)
  | pred (e : Nat) (f : BitVec 10) (b a d : BitVec 5)
  | amoswap (e : EngLs) (f : BitVec 10) (b a d : BitVec 5)
  | amoadd (e : EngLs) (f : BitVec 10) (b a d : BitVec 5)
  | amoand (e : EngLs) (f : BitVec 10) (b a d : BitVec 5)
  | amoor (e : EngLs) (f : BitVec 10) (b a d : BitVec 5)
  | amoxor (e : EngLs) (f : BitVec 10) (b a d : BitVec 5)
  | amominu (e : EngLs) (f : BitVec 10) (b a d : BitVec 5)
  | amomaxu (e : EngLs) (f : BitVec 10) (b a d : BitVec 5)
  | casAtomic (e : EngLs) (f : BitVec 10) (b a d : BitVec 5)
  | fence (e : Nat) (f : BitVec 10) (b a d : BitVec 5)
  | post (e : EngLs) (pf : BitVec 6) (unit : BitVec 4) (b a d : BitVec 5)
  | wait (e : Nat) (pf : BitVec 6) (unit : BitVec 4) (b a d : BitVec 5)
  | test (e : Nat) (pf : BitVec 6) (unit : BitVec 4) (b a d : BitVec 5)
  | yield (e : Nat) (pf : BitVec 6) (unit : BitVec 4) (b a d : BitVec 5)
  | endTask (e : Nat) (pf : BitVec 6) (unit : BitVec 4) (b a d : BitVec 5)
  | budget (e : Nat) (pf : BitVec 6) (unit : BitVec 4) (b a d : BitVec 5)
  | charge (e : Nat) (pf : BitVec 6) (unit : BitVec 4) (b a d : BitVec 5)
  | event (e : Nat) (pf : BitVec 6) (unit : BitVec 4) (b a d : BitVec 5)
  | hash (e : EngLs) (pf : BitVec 6) (unit : BitVec 4) (b a d : BitVec 5)
  | crc (e : EngLs) (pf : BitVec 6) (unit : BitVec 4) (b a d : BitVec 5)
  -- Task and dispatch events (02)
  | fRunlimit (e : Nat)
  | fHooktime (t : TaskRef)
  | waitTimeout (t : TaskRef)
  | unitCompletion (p : PostRef)
  | arrivalDispatch (arrival : Nat) (t : TaskRef)
  | groupDrained (group : Nat)
  -- `off`: felt offset of the staging buffer the drive gives the parser.
  | frameParser (t hook : TaskRef) (off : Nat) (value : Rd)
  -- Host queues (04)
  | sqTailDoorbell (q : BitVec 16) (v : W32)
  | cqHeadDoorbell (q : BitVec 16) (v : W32)
  | entryFetch (entry key sgl : Rd)
  | aggTimeExpiry (q : BitVec 16)
  | enable (v : W32)
  | controllerReset (v : W32)
  | resetBusyClear
  | shutdown (v : W32)
  | shutdownDone
  | devrst (v : W32)
  | deviceResetStep
  | functionLevelReset
  | perst (asserted : Bool)
  | pcieLinkDown
  | pcieLinkUp (speed width : Nat)
  | completionTimeout (r : HostReq)
  | hostReadCompletion (r : HostReq) (data : Rd)
  | busMasterDisable
  | bmeHoldExpiry
  | protEccUncorr (held : Nat) (drOff : Nat)
  | barAccessInvalid (off size : Nat) (write : Bool)
  | registerWrite (off : Nat) (eight : Bool) (v : Word)
  | attnMaskWrite (v : W32)
  | attnSignal
  | rdmTickLowRead (port : Nat)
  -- Key-value commands (05, 06): `t` is the task that serves the command.
  | put (t : TaskRef) (value : Rd)
  | get (t : TaskRef) (f : ReadIn)
  | delete (t : TaskRef)
  | exist (t : TaskRef) (f : Fetch)
  | append (t : TaskRef) (value : Rd)
  | rangeRead (t : TaskRef) (f : ReadIn)
  | rangeWrite (t : TaskRef) (value : Rd)
  | punch (t : TaskRef)
  | cas (t : TaskRef) (value : Rd)
  | list (t : TaskRef) (f : Fetch) (budget : Nat)
  | flush (t : TaskRef)
  | framePut (t : TaskRef) (value : Rd) (tiles : List (Nat × Verify))
  | roiRead (t : TaskRef) (f : ReadIn)
  | batch (t : TaskRef) (members : Rd) (ins : List MemberIn) (f : Fetch)
  -- `stage`: felt offset and contents of the staging buffer the drive gives the task, if it gives one.
  | userCommand (arrival : Nat) (t : TaskRef) (stage : Option (Nat × List Byte))
  | slotLockGrant (slot : Nat)
  | slotLockTimeout (t : TaskRef)
  | protectedFeltAdmit (t : CmdRef)
  | streamedPortionAdmit (t : CmdRef)
  -- Administration commands (13, 14, 15, 04, 12, 08)
  | identify (t : TaskRef) (f : Fetch)
  | logRead (t : TaskRef) (f : Fetch)
  | featureSet (t : TaskRef)
  | featureGet (t : TaskRef)
  | selfTestShort (t : TaskRef)
  | selfTestExtended (t : TaskRef)
  | selfTestAbort (t : TaskRef)
  | selfTestEnd (failSegment : Nat) (event : BitVec 16) (starved : Bool)
  | selftestPeriod
  | keyspaceCreate (t : TaskRef) (value : Rd)
  | keyspaceDelete (t : TaskRef)
  | keyspaceErase (t : TaskRef)
  | keyspaceUnlock (t : TaskRef) (value : Rd)
  | keyspaceLock (t : TaskRef)
  | unlockLockoutEnd (ks : Byte)
  | programLoad (t : TaskRef) (value : Rd)
  | programUnload (t : TaskRef)
  | queueCreate (t : TaskRef)
  | queueDelete (t : TaskRef)
  | mapLeaseGrant (t : TaskRef) (value : Rd)
  | mapLeaseRevoke (t : TaskRef)
  | mapLeaseQuery (t : TaskRef)
  | eventClear (t : TaskRef)
  | attest (t : TaskRef) (f : Fetch)
  | chainControlInsert (t : TaskRef)
  | chainControlBypass (t : TaskRef)
  | portReset (t : TaskRef)
  | fwDownload (t : TaskRef) (value : Rd)
  | fwCommit (t : TaskRef) (sigOk slotOk : Bool)
  | fwActivateDeferred (t : TaskRef)
  | fwActivateImmediate (t : TaskRef)
  | activationSwap (slotOk : Bool)
  | fwActivationAbandoned
  | fwConfirm (t : TaskRef)
  | fwTrialExpiry
  -- Calender and staging (06)
  | encodeTile (p : PostRef) (lane : Nat) (verify : Verify)
  | decodeTile (p : PostRef) (lane : Nat) (good : Bool)
  | encodeBytes (p : PostRef) (lane : Nat)
  | decodeBytes (p : PostRef) (lane : Nat) (good : Bool)
  | stagingGrant
  -- Couch engine (10)
  | copy (p : PostRef)
  | channelTakePost (channel : Nat)
  | linkedDescriptorRead (channel : Nat)
  | beatGrant (eccBad : Bool)
  | ageTicksExpiry (channel : Nat)
  | descTimeout (channel : Nat)
  | lateCompletion (channel : Nat) (pos : Nat)
  -- Key directory (07)
  | lookup (p : PostRef)
  | lock (p : PostRef)
  | commit (p : PostRef)
  | unlock (p : PostRef)
  | remove (p : PostRef)
  | seq (p : PostRef)
  | scan (p : PostRef)
  -- Media and translation (07)
  | mediaRead (p : PostRef) (ends : List ReadEnd)
  | mediaWrite (p : PostRef)
  | mediaErase (p : PostRef) (good : Bool)
  | readRaw (p : PostRef)
  | quireProgrammed (ream : Nat) (quire : Nat)
  | programFail (psa : Nat) (status : W32)
  | eraseFail (psa : Nat) (status : W32)
  | dieFailed (channel die : Nat)
  | quireClose
  | broke
  | fold
  | refresh
  | patrol (psa : Nat) (e : PatrolEnd)
  | wearLevel
  | checkpointRound
  | journalMax
  | recoveryDone (r : RecoveryFacts)
  -- Cipher unit (12)
  | fwd (p : PostRef)
  | inv (p : PostRef)
  | derive (p : PostRef)
  | tagCheck (p : PostRef)
  | free (p : PostRef)
  | sealFree (p : PostRef)
  -- EVR, XPORT and TIMER units (15, 02, 09, 03)
  | record (p : PostRef)
  | sync (p : PostRef)
  | loopbackCapsule (p : PostRef) (key : Rd)
  | sendData (p : PostRef)
  | recvData (p : PostRef)
  | timerDelay (p : PostRef)
  | timerAbsolute (p : PostRef)
  | timerDue (p : PostRef)
  | rateWindowClose (code : BitVec 16)
  -- Chain ports (08)
  | frameReceive (port : Nat) (f : FrameIn)
  | egressFrameStart (port : Nat)
  | pauseExpiry (port prio : Nat)
  | pfcXoffRefresh (port prio : Nat)
  | pfcStorm (port prio : Nat)
  | pfcStormEnd (port prio : Nat)
  | linkDown (port cause : Nat)
  | linkUp (port ms : Nat)
  | preemptVerifyFailed (port : Nat)
  | heldFrameExpiry
  | ringProbe
  | ringOpened
  | ringClosed
  | insertSelftestDone (good : Bool) (lanes : W32)
  | bypassChanged
  | insertDecision
  | bypassFault
  | aux12vLoss
  | aux12vPresent
  | senseChange (sense0 sense1 : Bool)
  -- Chain transport (09)
  | actOpen
  | actClose
  | closeAck (flow : Nat)
  | actCmd
  | actData
  | actAck
  | actReset
  | ackDelay (flow : Nat)
  | retransmitTimeout (flow : Nat)
  | idleTimeout (flow : Nat)
  | streamTimeout (flow : Nat)
  | attn (flow : Nat)
  -- Budget governor (11)
  | windowBoundary (m : Meas)
  | bgvCapWrite (v : W32)
  | vcoreStep
  | bgvGroupMove (v : W32)
  | thermalCritical (sensor : Nat) (temp : Int)
  | sensorFail (sensor : Nat)
  | blowerBudget
  -- Power states (16)
  | mainPowerGood
  | bringupStep (b : BringFacts)
  | mainPowerLost (rail : Nat)
  | drainDone (ms : Nat) (energyMj : Nat) (complete : Bool)
  | reqActive
  | reqDormant
  | reqRetention
  | dormantEntered
  | retentionEntered
  | wakePin
  | perstRisingEdge
  | dormantExit
  | thermalWakeHoldEnd
  | vauxLoss
  | selfrefreshLost
  | timebaseRestart (m2 m3 aux33 auxAlt : Bool)
  | holdupMeasureStart
  | holdupMeasured (v0mv v1mv : Nat)
  | tamperOpen
  | glitchTrip (detector : Nat)
  -- Blower drive (17)
  | blowerStart (onMa offMa busMv : Nat)
  | windmill (rpm : Nat) (reverse : Bool) (caught : Bool)
  | brakeDone (timedOut : Bool) (rpm : Nat)
  | alignDone
  | handover (rpm conf : Nat)
  | startFailed (cause : Nat)
  | startRetry
  | observerLost (rpm conf busMv : Nat)
  | reacquired (rpm conf : Nat)
  | reacquireFailed (rpm : Nat)
  | overvoltage (busMv rpm : Nat)
  | ov2AscLimit
  | speedDeficit (rpm phaseMa : Nat)
  | blowerHealthy (rpm conf : Nat)
  -- Management bus (18): `port` 0 slot, 1 header; `pec` whether the packet error code is right.
  | status (port : Nat)
  | pageSet (port : Nat) (page : Byte) (pec : Bool)
  | pageGet (port : Nat)
  | regRead (port : Nat) (off : BitVec 16) (pec : Bool)
  | regWrite (port : Nat) (off : BitVec 16) (v : W32) (pec : Bool)
  | deviceReset (port : Nat) (v : Byte) (pec : Bool)
  | wake (port : Nat) (v : Byte) (pec : Bool)
  | smbusTimeout (port : Nat)
  -- Faults found by the drive itself, and what else reaches it from outside
  | lsScrubError (eng : Nat) (off : Nat)
  | internalEcc
  | xtalFault (ppm : Nat)
  | supplyFault
  | configurationRequest (r : CfgReq)
  | portResetTimeout
  | respAckWaitExpiry
  | coastReturn (rpm : Nat)
  | ascRelease (rpm busMv : Nat)
  deriving DecidableEq, Repr

end Sys2Proof
end

