-- ==== Sys2Proof/Decode.lean ====
section
/-! DEFINITION. The commands a word spells by the table's bits. -/

namespace Sys2Proof

/-- The table gives no row any bits: a command reaches the drive as a step, not as a word, so no word spells one.
(The 32-bit words of Shuan instructions in the program store are the manual's, R70; the table's rows for them carry
no bits either, and a command holds the fields already taken apart, log 3.) -/
def decodeTableWord (_nbits _w : Nat) : Option Instr := none

end Sys2Proof
end

