-- ==== Sys2Proof/Config.lean ====
section
/-! DEFINITION. What an implementation of the AKV-9154 fixes, and the free values: constants without a body,
so that nothing can be proved of what they are. -/

namespace Sys2Proof

/-- The n-th free 64-bit value: a value the manual leaves open after a step that goes on (log 4).
Each use reads the counter `Dev.free` and advances it. -/
opaque Config.freeWord : Nat → BitVec 64
/-- Byte i of the n-th free byte string (coded tiles, random salts, signatures, undefined bytes) (log 4). -/
opaque Config.freeByte : Nat → Nat → Byte
/-- Byte i of the XMSS^MT signature with leaf n of the drive's identity key over a message (R388, R389): the key is the drive's
secret. -/
opaque Config.signature : Nat → List Byte → Nat → Byte
/-- DRK, the 256-bit device root in the SEC fuses, as 32 bytes (R376). No command returns it. -/
opaque Config.drk : Nat → Byte
/-- Parameters of event records that the manual names and does not encode (log 18): 0 the event code behind INTERNAL_ECC,
1 to 3 the causes of an alarm (glitch trips, tamper loop, loop open at power-on), 4 SRC of the ring events. -/
opaque Config.unstated : Nat → BitVec 32
/-- The parameter that stands for a die group, plane and index (0x0C04), by the ream's number (log 18). -/
opaque Config.reamParam : Nat → BitVec 32
/-- EST of a standard-program dispatch entry, in 1/256 µJ, in the table of the image shipped with a version: the manual
does not fix it, and it may differ from version to version (R518). -/
opaque Config.est : BitVec 64 → Byte → BitVec 32
/-- EST of a task the drive makes for itself in a work class, in 1/256 µJ: no dispatch entry gives it one (R48, R357; log 157). -/
opaque Config.internalEst : Nat → BitVec 32
/-- ENTRY of a standard-program dispatch entry in the same table (R45). -/
opaque Config.entry : BitVec 64 → Byte → BitVec 32

/-- Byte i of the LDPC parity of a codeword's data and tag (R208), which the manual does not define. -/
opaque Config.ldpc : List Byte → Nat → Byte
/-- Byte i of a journal record that carries a type, a sequence and parameters: the manual gives no places (R232, log 122). -/
opaque Config.journalByte : List Nat → Nat → Byte
/-- Byte i of the n-th checkpoint sheet written: a copy of the DRAM structures in a layout the manual does not give (R233, log
125). -/
opaque Config.ckptByte : Nat → Nat → Byte
/-- Byte i of the data of a pad sheet with a tag (R213), which the manual does not give (log 4). -/
opaque Config.padByte : Nat → Nat → Byte
/-- DR offset at which the protected write region begins (R219, R222), which the manual does not give. -/
opaque Config.protBase : Nat
/-- TKIND of the sheets of authentication tags (R385), which R209 does not list. -/
opaque Config.tagSheetKind : Byte

/-- Ticks per millisecond (R5). -/
abbrev Config.ms : Nat := 25000
/-- Ticks per second (R5). -/
abbrev Config.second : Nat := 25000000
/-- User capacity in bytes (R19, R169). -/
abbrev Config.capacity : Nat := 153600000000000
/-- The key directory's load limit (R170). -/
abbrev Config.maxObjects : Nat := 912680550
/-- The longest value: 16 GiB (R133). -/
abbrev Config.maxValue : Nat := 17179869184

end Sys2Proof
end

