-- ==== Sys2Proof/Machine/State.lean ====
section
/-! DEFINITION. The state of the AKV-9154 as plain data, one structure per subsystem. Every field's default is
its value right after power-on reset, so that `State.reset` is the structure with nothing said. Where the manual
gives no reset value the field's docstring names the log entry that chose one. -/

namespace Sys2Proof.Machine

/-- Why the block stops. No meaning raises one: every command of the table has an effect, and a command whose
condition does not hold leaves the state as it stands (log 2). Kept closed, so that a claim can list it. -/
inductive Fault where
  /-- Raised by nothing. Safe. -/
  | unreachable
  deriving DecidableEq, Repr

/-- Why a command has no meaning here. -/
inductive Refusal where
  /-- Raised by an arm of `exec` whose command has no meaning yet; by no arm now. Safe. -/
  | notModelled (mnemonic : String)
  deriving DecidableEq, Repr

/-! ### Power states and the time base (16, 11) -/

/-- DEV_STATE.STATE (R446). -/
inductive PState where
  | off | bringup | active | dormant | retention | drain | recovery
  deriving DecidableEq, Repr

/-- A power-state entry under way and whether THERMAL_CRITICAL caused it (R448, R449). -/
inductive Trans where
  | none
  | dormant
  | retention (thermal : Bool)
  | wakeup
  deriving DecidableEq, Repr

/-- Supplies, power state, resets and the hold-up monitor (16; RDM id 0x11, PWR id 0x12). -/
structure Power where
  /-- DEV_STATE.STATE (R464). -/
  st : PState := .bringup
  /-- DEV_STATE.WAKE_CAUSE (R464). -/
  wakeCause : Nat := 0
  /-- Main power present (R451). -/
  main : Bool := true
  /-- Main power came back during DRAIN (R462). -/
  mainBack : Bool := false
  /-- 12 V on J-AUX, SENSE0 and SENSE1 open (R365); log 5. -/
  aux12 : Bool := false
  sense0 : Bool := true
  sense1 : Bool := true
  /-- 3.3Vaux and VAUX_ALT present: the two sources of VAUX (R450, R495, R500); log 5. -/
  aux33 : Bool := true
  auxAlt : Bool := false
  /-- Slot 3.3 V feeds RDM where VAUX does not (R450, R495). -/
  slot33 : Bool := true
  /-- RDM has restarted the time base since the last main power-on (R450). -/
  restarted : Bool := false
  /-- The last step of R452 that has ended. -/
  bringStep : Nat := 1
  /-- The cause code the change to ACTIVE will carry (R447). -/
  bringCause : Nat := 4
  /-- Step 6 (recovery) and step 7 (hold-up measured) of R452 have ended. -/
  recovered : Bool := false
  measured : Bool := false
  /-- Step of a device reset under way and the tick it was requested (R455). -/
  resetStep : Option (Nat × Nat) := Option.none
  /-- A state entry under way (R448, R449) and the wake cause kept for its end. -/
  trans : Trans := .none
  wakeKept : Option Nat := Option.none
  /-- Wake causes are ignored until this tick after a thermal RETENTION (R449). -/
  holdUntil : Option Nat := Option.none
  /-- OPSEC before this main power-on, and the tick it began (R463); log 5. -/
  opsecBase : Nat := 0
  onTick : Nat := 0
  pcyc : Nat := 0
  unsafeOff : Nat := 0
  /-- The last loss of main power came without SHUTDOWN_DONE and is not yet reported (R463). -/
  unsafePending : Bool := false
  /-- PWR_HOLDUP and PWR_LIMIT.LIMIT_MIB (R457–R459); 0 from a reset until the bank is measured (R464). -/
  energyMj : Nat := 0
  capDmf : Nat := 0
  limitMib : Nat := 0
  /-- The limit measured last, kept over resets: what a new limit is compared with (R459; 0 where there is none). -/
  lastLimit : Nat := 0
  /-- PWR_MEAS_CTRL (RWS PERIOD_H, START) and the measurement under way. -/
  periodH : Byte := 0x18
  measStart : Bool := false
  measuring : Option Nat := Option.none
  lastMeas : Nat := 0
  /-- RDM's self-refresh of DRAM has held without a break since RETENTION was entered (R449). -/
  selfRefresh : Bool := true
  /-- The last drain's seal was written (R460, R461). -/
  sealed : Bool := true
  /-- Address straps M2 and M3 sampled when RDM started (R498); log 5. -/
  m2 : Bool := true
  m3 : Bool := true
  /-- The tamper loop stands open, as RDM last saw it, and that opening has acted (R390, R492). -/
  loopOpen : Bool := false
  loopActed : Bool := false
  deriving DecidableEq, Repr

/-- The time base and the power state: what most meanings read and do not change. -/
structure Env where
  /-- The 64-bit tick counter (R347); the drive handles no wrap, so it is a plain number. -/
  tick : Nat := 0
  pw : Power := {}
  deriving DecidableEq, Repr

/-! ### Attention tree and event recorder (15) -/

/-- Cause and enable registers of ids 0x00–0x12, the masks and the vector-0 merge (R439–R445). -/
structure Attn where
  cause : Vector W32 19 := Vector.replicate 19 0
  enable : Vector W32 19 := Vector.replicate 19 0xFFFFFFFF
  mask : W32 := 0
  pinMask : W32 := 0
  /-- Tick of the last vector-0 signal, and a rise waiting for the merge interval (R442). -/
  lastSignal : Option Nat := none
  pending : Bool := false
  /-- Condition of INTERNAL_ECC, HOLDUP_FAIL, BOOT_FAIL, THERMAL_CRITICAL still holding (R441). -/
  holding : W32 := 0
  deriving DecidableEq, Repr

/-- One record of the event logs (R427); the CRC is computed when the record is read. -/
structure Rec where
  code : BitVec 16
  sev : Nat
  cls : Nat
  flags : Byte := 0
  opsec : Nat := 0
  pcyc : Nat := 0
  src : Byte := 0
  rep : Nat := 0
  run : Nat := 0
  p0 : W32 := 0
  p1 : W32 := 0
  p2 : W32 := 0
  /-- Tick of its entry, which its bytes do not hold: from it the record is durable within 100 ms (R433). -/
  tick : Nat := 0
  deriving DecidableEq, Repr

/-- A rate-limit window of one code (R429). -/
structure RateWin where
  start : Nat
  secs : Nat
  entered : Nat
  counted : Nat
  sev : Nat
  cls : Nat
  src : Byte
  deriving DecidableEq, Repr

/-- The event recorder (R427–R445). Logs hold the newest record first. -/
structure Evr where
  service : List Rec := []
  boot : List Rec := []
  bootFull : Bool := false
  /-- EVR_RUNNING, the number the next record takes; the first record ever takes 1 (R427). -/
  running : Nat := 1
  dropped : Nat := 0
  suppressed : Nat := 0
  bootDropped : Nat := 0
  /-- EVR_CTRL: RATE_N 8, RATE_S 60, ATTN_SEV 5 (R445). -/
  ctrl : W32 := 0x00053C08
  windows : Tbl RateWin := []
  /-- Highest running number that is durable (R433, R434). -/
  durable : Nat := 0
  deriving DecidableEq, Repr

/-! ### Tasks, programs and dispatch (02) -/

/-- The lifecycle states of a context other than FREE (02, Lifecycle). -/
inductive TaskSt where
  | ready | running | waiting | draining
  deriving DecidableEq, Repr

/-- KIND of an arrival (R48). -/
inductive Kind where
  | host | act | loop | hook | timer | internal
  deriving DecidableEq, Repr

/-- A unit completion: STATUS and RESULT. -/
structure Compl where
  status : Byte := 0
  result : Word := 0
  deriving DecidableEq, Repr

/-- Where a post stands: captured at POST, taken up by its unit, finished there, or delivered to its task. -/
inductive PostSt where
  | captured | working | finished | delivered (order : Nat)
  deriving DecidableEq, Repr

/-- An outstanding post (R49, R50, R87). -/
structure Post where
  tag : Nat
  unit : BitVec 4
  pf : BitVec 6
  /-- The captured descriptor (R88); EVR uses its low 256 bits, TIMER the value of sA. -/
  desc : V512 := 0
  addr : Word := 0
  tick : Nat := 0
  st : PostSt := .captured
  due : Option Nat := none
  /-- PSAs a durable media write waits for (R228). -/
  psas : List Nat := []
  compl : Compl := {}
  deriving DecidableEq, Repr

/-- A region of FE or DR a user task may access (R42). -/
structure Region where
  space : BitVec 4
  off : Nat
  len : Nat
  deriving DecidableEq, Repr

/-- What a WAITING task waits for (R90, R51). -/
structure WaitInfo where
  mask : W32
  d : BitVec 5
  e : BitVec 5
  due : Option Nat
  deriving DecidableEq, Repr

/-- A task's hold on the slot lock its command needs (R155, R224). -/
inductive LockSt where
  | none | waiting (slot : Nat) | held (slot : Nat) | dropped
  deriving DecidableEq, Repr

/-- A tile's index facts (R199): coded length and the RAW and EXACT flags. -/
structure TileInfo where
  codedLen : Nat
  raw : Bool
  exact : Bool
  deriving DecidableEq, Repr

/-- A stored frame: what R199 reports of it and its pixels v′, row-major. -/
structure FrameRec where
  mode : Byte
  param : W32
  floorT : W32
  fver : W32
  user : Word
  accTick : Nat
  pixels : List Nat
  tiles : List TileInfo
  deriving DecidableEq, Repr

/-- Geometry and frames of a frame object (R175–R182). -/
structure FrameObj where
  ptype : Nat
  tileLog2 : Nat
  width : Nat
  height : Nat
  frames : List FrameRec
  deriving DecidableEq, Repr

/-- Where a stretch of an object's data lies: in protected felt under a held write, or on media from a PSA on (R212,
R217, R218). -/
inductive Loc where
  | felt (held : Nat)
  | psa (p : Nat)
  deriving DecidableEq, Repr

/-- A coded unit (R218): the first sheet of a plain object it stands for, or the number of a tile over all frames of a
frame object; the sheets it stands for; where its first byte lies, with the offset in that sheet; its length on media. -/
structure Coded where
  no : Nat
  sheets : Nat
  loc : Loc
  off : Nat := 0
  len : Nat
  deriving DecidableEq, Repr

/-- An object version (R131–R137, R223). Unlisted bytes of `data` below `len` read as zero. -/
structure Obj where
  objId : Nat
  len : Nat
  data : Mem := []
  /-- Sheets that hold written data not punched (R168), rising. -/
  sheets : List Nat := []
  compress : Nat := 1
  frame : Option FrameObj := none
  /-- Bytes on media after compression, a multiple of 4,096 (R145); log 4. -/
  stored : Nat := 0
  /-- Sheets, or tiles of a frame object, that were lost before they reached media (R517). -/
  bad : List Nat := []
  /-- The map: the uncoded sheets, the coded units, and the map page of every extent that has had one (R216–R218). -/
  map : Tbl Loc := []
  coded : List Coded := []
  pages : Tbl Nat := []
  kgen : Nat := 0
  /-- Location of its extent table, as its object record gives it (R216, R223). -/
  xtab : Word := 0
  deriving DecidableEq, Repr

/-- Stage of a command before dispatch, or of a BATCH's member before it runs: which hook has run (R62, R519). -/
inductive HookSt where
  | todo | placing | placed | admitting | admitted
  deriving DecidableEq, Repr

/-- Progress of a command the standard program set serves natively (05). -/
inductive Phase where
  /-- The meaning has yet to run. -/
  | start
  /-- Accepted, its space reserved (R169, R172), as a streamed write or not (R162); its data has yet to come. -/
  | accepted (streamed : Bool)
  /-- Accepted; waits for room under the protected limit (R22). -/
  | admission
  /-- A streamed write whose portions are admitted one by one (R516). -/
  | stream (admitted : Nat)
  /-- Committed, or its data placed; completes when the held entries and journal up to a point are on media. -/
  | media (jseq : Nat)
  /-- A range operation with pieces left (R157, R160). -/
  | pieces (next : Nat)
  /-- FLUSH waiting for everything completed before it (R163). -/
  | flush (jseq : Nat)
  /-- Waits for another step of the drive (queue drained, tasks freed, bypass moved). -/
  | waitDrive
  deriving DecidableEq, Repr

/-- The standard program's record of one command (05, R173). -/
structure Job where
  phase : Phase := .start
  lock : LockSt := .none
  lockDue : Nat := 0
  /-- The value received into felt. -/
  data : List Byte := []
  /-- Completes only when data and journal are on media (R23, R162, R458), and the id a whole object will take. -/
  durable : Bool := false
  objId : Nat := 0
  /-- First version reserved, pieces committed and pieces in all (R138, R160). -/
  firstVer : W32 := 0
  done : Nat := 0
  total : Nat := 0
  /-- The range a split operation writes (R160). -/
  off : Nat := 0
  len : Nat := 0
  /-- Footprint growth reserved (R169). -/
  reserved : Nat := 0
  result : Word := 0
  /-- Version and object a read has pinned (R156), and the PSAs it has taken from the maps (R239). -/
  pin : Option (W32 × Obj) := none
  psas : List Nat := []
  /-- Index facts of the tiles a FRAME_PUT has coded so far (R185). -/
  tiles : Tbl TileInfo := []
  /-- Held entries of protected felt this command waits for. -/
  heldIds : List Nat := []
  status : Byte := 0
  /-- Leased map pages a read has asked for; of an accepted REVOKE, the generation of the lease it ends (R125, R126). -/
  asked : Nat := 0
  deriving DecidableEq, Repr

/-- A member of a BATCH whose array has been read: its entry, what it brought, and how far it has come (R164–R167, R519). -/
structure Member where
  capsule : V512
  group : Bool := false
  key : List Byte := []
  sgl : List (Nat × Nat) := []
  hook : HookSt := .todo
  /-- It has requested its slot lock. -/
  asked : Bool := false
  job : Job := {}
  verdict : Option (Byte × Word) := none
  deriving DecidableEq, Repr

/-- A task in a context that is not FREE (02). -/
structure Task where
  eng : Nat
  ctx : Nat
  st : TaskSt := .ready
  kind : Kind
  prio : Nat := 0
  source : BitVec 16 := 0
  group : BitVec 16 := 0
  epoch : BitVec 16 := 0
  wclass : Nat := 2
  program : BitVec 16 := 0
  est : Nat := 0
  capsule : V512 := 0
  key : List Byte := []
  sgl : List (Nat × Nat) := []
  /-- Tick the arrival was accepted and tick of dispatch (R48, R63). -/
  accTick : Nat := 0
  dispTick : Nat := 0
  /-- Order number of the arrival among all arrivals. -/
  arrNo : Nat := 0
  /-- Generation of the host side at arrival; a later one suppresses the completion (R56). -/
  hostGen : Nat := 0
  /-- s0–s31, v0–v15, p0–p7, pc (R37). -/
  s : Vector Word 32 := Vector.replicate 32 0
  v : Vector V512 16 := Vector.replicate 16 0
  p : Vector Word 8 := Vector.replicate 8 0
  pc : W32 := 0
  /-- The 3 KiB frame at LS 0x0000–0x0BFF (R40). -/
  frame : Mem := []
  posts : List Post := []
  wait : Option WaitInfo := none
  /-- Stamp of becoming READY (R35), tick the current run began (R53). -/
  readyAt : Nat := 0
  runFrom : Nat := 0
  /-- Instructions since the task last became RUNNING (R362). -/
  instrs : Nat := 0
  /-- Staging buffer and regions handed over by completions (R42). -/
  regions : List Region := []
  /-- Parent post of a KIND 0x03 task (R61). -/
  parent : Option PostRef := none
  /-- The operation id's source for R121: SQID or flow id, and whether a flow. -/
  opSrc : BitVec 16 := 0
  opFlow : Bool := false
  /-- The arrival a hook task serves (R62). -/
  hookOf : Option Nat := none
  job : Job := {}
  /-- The members of a BATCH, once its array has been read (R164). -/
  members : List Member := []
  /-- The member a hook task serves; in the meanings of the key-value commands, the member that runs as a command of its own
  (R165). -/
  mem : Option Nat := none
  deriving DecidableEq, Repr

/-- An arrival waiting for dispatch (R47). -/
structure Arrival where
  no : Nat
  kind : Kind
  capsule : V512
  source : BitVec 16
  group : BitVec 16
  prio : Nat
  tick : Nat
  key : List Byte := []
  sgl : List (Nat × Nat) := []
  hostGen : Nat := 0
  ordered : Bool := false
  hook : HookSt := .todo
  parent : Option PostRef := none
  opSrc : BitVec 16 := 0
  opFlow : Bool := false
  /-- PROGRAM_ID whose privilege a loopback's parent has (R522). -/
  program : BitVec 16 := 0
  /-- Its KEY_HASH matched a slot lock of its group's old epoch: it waits until the group is drained (R57). -/
  epochHeld : Bool := false
  /-- Work class of internal work (07). -/
  work : Nat := 2
  deriving DecidableEq, Repr

/-- A dispatch table entry (R45). -/
structure DEntry where
  valid : Bool := false
  user : Bool := false
  admin : Bool := false
  nokey : Bool := false
  wclass : Nat := 2
  entry : W32 := 0
  program : BitVec 16 := 0
  est : Nat := 0
  deriving DecidableEq, Repr

/-- A loaded user program (R405–R408, R67). -/
structure Program where
  psBase : Nat
  psLen : Nat
  feOff : Nat
  feLen : Nat
  drOff : Nat
  drLen : Nat
  wclass : Nat
  grants : BitVec 256
  /-- (hook, keyspace, entry offset in PS) (R62). -/
  hooks : List (Nat × Nat × Nat) := []
  loadTick : Nat := 0
  /-- Interval of R67 last counted in, and the faults in it. -/
  interval : Nat := 0
  faults : Nat := 0
  quarantined : Bool := false
  /-- Unbound, waiting for its tasks to reach FREE (R68). -/
  unloading : Bool := false
  digest : List Byte := []
  deriving DecidableEq, Repr

/-- An affinity group's placement (R57, R58, R372). An unlisted group g stands on vat g mod 12 at epoch 0. -/
structure Group where
  vat : Nat
  epoch : BitVec 16 := 0
  draining : Bool := false
  pinned : Bool := false
  lastMove : Nat := 0
  /-- Spend of its tasks in this window and the last, in 1/256 µJ (R371). -/
  spend : Nat := 0
  lastSpend : Nat := 0
  deriving DecidableEq, Repr

/-- Processor array and headbox (02; ids 0x04, 0x05). -/
structure Mea where
  tasks : List Task := []
  arrivals : List Arrival := []
  nextArrival : Nat := 0
  /-- Order stamp for readiness and completions. -/
  stamp : Nat := 0
  dispatch : Tbl DEntry := []
  programs : Tbl Program := []
  groups : Tbl Group := []
  /-- Chain commands held through an activation, which are dispatched first, in order of arrival (R417). -/
  heldFirst : List Nat := []
  /-- Groups whose fetching is held between 1,024 and 768 waiting arrivals (R47). -/
  throttled : List Nat := []
  /-- LS shared regions of every engine: address engine × 0x4_0000 + LS offset. -/
  lsShared : Mem := []
  /-- LS words marked bad by the scrub, same addressing (R41). -/
  badWords : List Nat := []
  fe : Mem := []
  dr : Mem := []
  ps : Mem := []
  /-- MEA_CTRL: RUN_LIMIT 2,500, QUAR_THRESH 64 (R69). -/
  ctrl : W32 := 0x004009C4
  userFaults : Nat := 0
  vendorFaults : Nat := 0
  deriving DecidableEq, Repr

/-! ### Host queues (04) -/

/-- A queue pair (R105–R118). -/
structure Pair where
  sqBase : Word := 0
  cqBase : Word := 0
  size : Nat := 2
  vector : Nat := 0
  cls : Nat := 0
  ien : Bool := true
  group : Nat := 0
  aggTime : Nat := 0
  aggCount : Nat := 0
  tail : Nat := 0
  head : Nat := 0
  cqTail : Nat := 0
  cqHead : Nat := 0
  phase : Bool := true
  outstanding : Nat := 0
  unreleased : Nat := 0
  /-- Number of the last turn that served it: the longest unserved of a class goes first (R117). -/
  served : Nat := 0
  aggN : Nat := 0
  aggFirst : Option Nat := none
  deferred : Bool := false
  failed : Bool := false
  /-- The task of the QUEUE_DELETE under way (R107). -/
  deleting : Option TaskRef := none
  /-- The next arrival number when the pair came to exist: an earlier arrival was not submitted on it (R120). -/
  born : Nat := 0
  deriving DecidableEq, Repr

/-- An entry of the MSI-X table; vectors are masked at reset (R124). -/
structure Msix where
  addr : Word := 0
  data : W32 := 0
  masked : Bool := true
  deriving DecidableEq, Repr

/-- The AER registers of the function (R96): Uncorrectable Error Status, Mask and Severity, Correctable Error Status and
Mask. The manual gives no reset values; these are those of the PCI Express Base Specification (log 119). -/
structure Aer where
  uncorrStatus : W32 := 0
  uncorrMask : W32 := 0x00400000
  uncorrSeverity : W32 := 0x00462030
  corrStatus : W32 := 0
  corrMask : W32 := 0x0000E000
  deriving DecidableEq, Repr

/-- The host map lease (R125–R127, R219). -/
structure Lease where
  active : Bool := false
  sizeMib : Nat := 0
  gen : W32 := 0
  lastReason : Nat := 0
  regions : List (Nat × Nat) := []
  /-- Ticks at which pages of this lease failed R126. -/
  badTicks : List Nat := []
  /-- The map page each slot holds, in slot order (R219). -/
  slots : List Nat := []
  /-- Reads of leased pages issued and not completed: page and tick of issue (R97, R125). -/
  reads : List (Nat × Nat) := []
  /-- Pages changed and not yet written to their slots, with the journal record each waits for (R126, R232). -/
  dirty : List (Nat × Nat) := []
  /-- A REVOKE has been accepted: no new access (R125). -/
  revoking : Bool := false
  deriving DecidableEq, Repr

/-- Entry of the deferred-error log (R396). -/
structure DefErr where
  opid : Word
  hash : Word
  version : W32
  ksid : Byte
  opc : Byte
  cause : Nat
  tick : Nat
  deriving DecidableEq, Repr

/-- A message-signalled interrupt the drive has sent. -/
structure Irq where
  vector : Nat
  addr : Word
  data : W32
  deriving DecidableEq, Repr

/-- Host queue engine and the PCI Express endpoint (04; id 0x01). -/
structure Hqe where
  enable : Bool := false
  enableHeld : Bool := false
  shutdown : Bool := false
  shutdownDone : Bool := false
  ready : Bool := false
  resetBusy : Bool := false
  cfgErr : Bool := false
  fetchPaused : Bool := false
  /-- Fetching stopped for shutdown, DORMANT or a device reset (R104, R448, R455). -/
  fetchStopped : Bool := false
  /-- ADM_SIZE, ADM_SQ_BASE and ADM_CQ_BASE (R101, R102). -/
  admSize : W32 := 0
  admSq : Word := 0
  admCq : Word := 0
  /-- Low halves written and not yet taken (R100), by register offset. -/
  lowHalf : Tbl W32 := []
  /-- HQE_ARB: 8, 4, 1, BURST 3 (R128). -/
  arb : W32 := 0x03010408
  qfailQid : BitVec 16 := 0
  qfailReason : Nat := 0
  qfailValid : Bool := false
  dbErrors : Nat := 0
  dmaErrors : Nat := 0
  linkSpeed : Nat := 0
  linkWidth : Nat := 0
  perst : Bool := true
  busMaster : Bool := false
  /-- Tick at which Bus Master Enable was cleared while enabled, until the 1 s hold ends (R122). -/
  bmeHold : Option Nat := none
  /-- Completion entries held back by it: queue pair, CID, STATUS, RESULT and MORE. -/
  heldCqes : List (Nat × Nat × Byte × Word × Bool) := []
  /-- Vectors whose message waits for Bus Master Enable or D0 (R122, R96). -/
  heldMsi : List Nat := []
  /-- Advanced Error Reporting: masks, severities and status (R96). -/
  aer : Aer := {}
  msixOn : Bool := false
  msixMask : Bool := false
  msix : Tbl Msix := []
  pba : List Nat := []
  irqs : List Irq := []
  relaxed : Bool := false
  mps : Nat := 128
  mrrs : Nat := 512
  /-- Completion Timeout Value of Device Control 2 (R97). -/
  cto : Nat := 0
  d3hot : Bool := false
  pairs : Tbl Pair := []
  /-- Resets of the host side so far; an arrival of an earlier generation is suppressed (R56). -/
  hostGen : Nat := 0
  /-- Arbitration: turns taken, turns left in the round per class, turn in progress with entries left (R117). -/
  turnNo : Nat := 0
  turns : Vector Nat 4 := Vector.replicate 4 0
  turn : Option (Nat × Nat) := none
  lease : Lease := {}
  /-- The deferred-error log, oldest first, with FIRST and LOST (R396). -/
  deferred : List DefErr := []
  defFirst : Nat := 0
  defLost : Nat := 0
  /-- Host memory as the drive has written it. -/
  hmem : Mem := []
  deriving DecidableEq, Repr

/-! ### Key directory, keyspaces and objects (05, 06, 07) -/

/-- A holder of a slot lock: task, its epoch and its arrival number (R224); a BATCH's member holds its own (R165). -/
structure Owner where
  eng : Nat
  ctx : Nat
  arrNo : Nat
  mem : Option Nat := none
  deriving DecidableEq, Repr

/-- A waiting request for a slot lock: a task of the standard program set, or a DIR LOCK post. -/
structure LockReq where
  owner : Owner
  tag : Option Nat
  due : Option Nat
  /-- The request only reads, and passes a write reservation (R157). -/
  read : Bool := false
  deriving DecidableEq, Repr

/-- A directory slot that is not EMPTY (R222), with the object its RECORD leads to. -/
structure Slot where
  live : Bool
  ksid : Byte
  key : List Byte
  hash : Word
  sflags : Byte := 0
  version : W32 := 0
  record : Word := 0
  objId : Nat := 0
  obj : Option Obj := none
  lock : Option Owner := none
  waiters : List LockReq := []
  /-- The write that holds the key between its pieces (R157). -/
  reservation : Option Owner := none
  deriving DecidableEq, Repr

/-- A keyspace and the values kept for its id whether or not it exists (R136, R234, R377, R402). -/
structure Keyspace where
  exist : Bool := false
  encrypted : Bool := false
  chainOpen : Bool := false
  compress : Nat := 1
  locked : Bool := false
  deleting : Bool := false
  /-- Last version taken and the durable high-water mark (R136, R234); log 5. -/
  seq : W32 := 0
  mark : W32 := 0x10000
  tokenGen : W32 := 0
  kgen : Nat := 0
  kgenSeq : W32 := 0
  /-- Block operations the standard program set has made under the present data key (R382, R386). -/
  ops : Nat := 0
  salt : List Byte := []
  check : List Byte := []
  /-- KSR_k while the keyspace is unlocked (R377). -/
  ksr : List Byte := []
  mismatches : Nat := 0
  lockout : Option Nat := none
  deriving DecidableEq, Repr

/-- Key directory walker (07; id 0x07) and the keyspaces. -/
structure Kdr where
  slots : Tbl Slot := []
  probeMax : Nat := 0
  /-- Next object id of the drive-wide counter (R216); log 5. -/
  nextObj : Nat := 1
  ks : Tbl Keyspace := []
  /-- SCAN and LIST work budget is the command's; nothing is kept. Footprint reserved by accepted writes (R169). -/
  reserved : Nat := 0
  deriving DecidableEq, Repr

/-! ### Felt, calender and couch engine (06, 10, 16) -/

/-- A stretch of a held write that is placed whole: a sheet, a coded unit, a sheet of authentication tags, or an INLINE
object record, which goes to media in a sheet shared with others. -/
structure Run where
  /-- TKIND (R209), and the number it has there: the first sheet's, or a coded unit's `no`. -/
  kind : Nat := 0
  no : Nat := 0
  coded : Bool := false
  /-- SHEET_NO of its first sheet, where `no` is not that: a tile's (R209). -/
  sheetNo : Option Nat := none
  stream : Nat := 0
  /-- The bytes that go to media, coded and encrypted, and for a coded unit the same data uncoded (R25). -/
  bytes : List Byte := []
  plain : List Byte := []
  /-- Bytes of the write's value it holds (R22). -/
  amount : Nat := 0
  /-- Where it was placed; empty while it waits (R212). -/
  psas : List Nat := []
  deriving DecidableEq, Repr

/-- A write held in protected felt: one manifest entry (R461) with the sheets not yet on media. -/
structure Held where
  id : Nat
  opid : Word
  hash : Word
  version : W32
  ksid : Byte
  opc : Byte
  objId : Nat
  bytes : Nat
  /-- The stretches of its data not yet on media (R212). -/
  runs : List Run := []
  /-- Committed; a streamed write's entry before its commit is not (R516). -/
  committed : Bool := true
  /-- The next arrival number when it completed: a FLUSH fetched later covers it (R163). -/
  acked : Option Nat := none
  /-- Journal sequence after which its mapping is durable. -/
  jseq : Nat := 0
  /-- Calender staging its coded tiles hold on their way to media (R203). -/
  stage : Nat := 0
  sqid : Option Nat := none
  /-- Number and host generation of the command's arrival: the pair that submitted it (R120). -/
  arrNo : Nat := 0
  hostGen : Nat := 0
  /-- The first held entry of the BATCH group it belongs to (R166). -/
  group : Option Nat := none
  slot : Nat := 0
  /-- The slot's content before the write, for a write that recovery loses (R517). -/
  prev : Option Obj := none
  prevVer : W32 := 0
  key : List Byte := []
  deriving DecidableEq, Repr

/-- A request for the staging pool, waiting or granted (R203). -/
structure StageReq where
  roi : Bool
  bytes : Nat
  task : TaskRef
  granted : Bool := false
  deriving DecidableEq, Repr

/-- Felt: staging pool and protected write region (06 R203, 16 R461; id 0x0A). -/
structure Flt where
  /-- FLT_STAGE_FLOOR: 32 and 16 MiB (R204). -/
  stageFloor : W32 := 0x00001020
  roiWaits : Nat := 0
  waits : List StageReq := []
  held : List Held := []
  nextHeld : Nat := 0
  deriving DecidableEq, Repr

/-- Calender (06; id 0x08). -/
structure Cal where
  /-- CAL_CTRL: VERIFY_LOSSLESS 1, LANE_EN all (R204). -/
  ctrl : W32 := 0xFFFF0001
  tiles : Nat := 0
  rawTiles : Nat := 0
  verifyFails : Nat := 0
  /-- The model's record of coded forms made and the bytes of v′ each stands for (log 12). -/
  book : List (List Byte × List Byte) := []
  deriving DecidableEq, Repr

/-- CCH_CH_STATUS.STATE (R345). -/
inductive ChanSt where
  | idle | fetch | run | waitRecords
  deriving DecidableEq, Repr

/-- A sealed slot that is not free (R383). -/
structure Sealed where
  released : Bool := false
  owner : Owner
  deriving DecidableEq, Repr

/-- What a task may access of FE and DR, as it stood at a POST: its regions and the sealed slots that were not free (R42, R323,
R383). -/
structure Rights where
  regions : List Region := []
  sealed : Tbl Sealed := []
  deriving DecidableEq, Repr

/-- An outstanding host read of a channel: stream position, length, tick of issue, PCIe tag, and (once come) the data (R96,
R326). -/
structure HRead where
  pos : Nat
  len : Nat
  tick : Nat
  tag : Nat := 0
  data : Option Rd := none
  deriving DecidableEq, Repr

/-- The record of a read of a descriptor that has ended: position, DID, tick of issue, PCIe tag and the vat of the task that
posted it (R340, R346). -/
structure LateRead where
  pos : Nat
  did : Nat
  tick : Nat
  tag : Nat := 0
  vat : Nat := 0
  deriving DecidableEq, Repr

/-- A couch channel working through one chain (R310, R345). -/
structure Chan where
  st : ChanSt := .idle
  prio : Nat := 0
  vendor : Bool := false
  eng : Nat := 0
  ctx : Nat := 0
  tag : Nat := 0
  desc : V512 := 0
  descAddr : Word := 0
  descs : Nat := 0
  sumDone : Nat := 0
  firstErr : Byte := 0
  /-- REMAIN and BYTES_DONE of the current descriptor. -/
  remain : Nat := 0
  done : Nat := 0
  /-- The rights its task held at POST (R323). -/
  rights : Rights := {}
  /-- Outstanding host reads, and the records kept for those of descriptors that have ended (R326, R340). -/
  reads : List HRead := []
  records : List LateRead := []
  preempted : Bool := false
  readySince : Nat := 0
  aged : Bool := false
  /-- Status the descriptor will end with once its good beats are written. -/
  failAt : Option (Nat × Byte) := none
  /-- Bytes of the source's space the descriptor has written over, each with what it held before (R332). -/
  old : List Host.Cell := []
  deriving DecidableEq, Repr

/-- A post in a pending list of the couch engine (R311). -/
structure Pend where
  prio : Nat
  vendor : Bool
  post : PostRef
  desc : V512
  addr : Word
  rights : Rights := {}
  deriving DecidableEq, Repr

/-- Couch engine (10; id 0x09). -/
structure Cch where
  /-- CCH_CTRL.AGE_TICKS 2,500 (R345). -/
  ctrl : W32 := 0x000009C4
  chans : Vector Chan 64 := Vector.replicate 64 {}
  pend : List Pend := []
  beats : Nat := 0
  bytes : Nat := 0
  preempts : Nat := 0
  timeouts : Nat := 0
  late : Nat := 0
  descInvalid : Nat := 0
  /-- The channel granted last, and for each priority the one granted last at it (R327, R328). -/
  lastGrant : Nat := 0
  grants : Vector Nat 8 := Vector.replicate 8 0
  deriving DecidableEq, Repr

/-! ### Media and translation (07) -/

/-- A sheet on NAND: its data and its 16-byte tag (R208, R209); the data of a pad sheet is not kept. -/
structure Sheet where
  data : List Byte
  tag : BitVec 128
  /-- A map entry has named it, or the drive wrote it for itself: a sheet a program wrote is not stale before its
  COMMIT. -/
  claimed : Bool := false
  deriving DecidableEq, Repr

/-- Checkpoint sheets placed in one go: the number of the first in its ream, how many, the write sequence of their first page,
and the number of the first among all checkpoint sheets written (R208, R233). -/
structure Bulk where
  at_ : Nat
  len : Nat
  seq : Nat
  cont : Nat
  deriving DecidableEq, Repr

/-- What a ream is doing (R210, R236). -/
inductive ReamSt where
  | open | closed
  deriving DecidableEq, Repr

/-- A ream that is not free (R210–R213). -/
structure Ream where
  slc : Bool
  st : ReamSt := .open
  stream : Nat
  /-- Positions in the group's half of its data members, in member order, and of its parity member (R210, R246). -/
  members : List Nat := []
  parity : Nat := 0
  /-- Sheets placed so far, in quire order, valid or not. -/
  placed : Nat := 0
  /-- Quires closed with pad sheets, and quires whose pages have all reported success. -/
  closedQ : List Nat := []
  programmedQ : List Nat := []
  /-- Tick at which the first sheet of the open quire was placed (R213). -/
  quireTick : Option Nat := none
  closeStamp : Nat := 0
  reads : Nat := 0
  /-- Refresh queued, with its cause 1 reads, 2 retry, 3 patrol (R242). -/
  refreshQ : Option Nat := none
  /-- Pad sheets among those placed (R213). -/
  pads : Nat := 0
  /-- The highest checkpoint round a sheet of it belongs to (checkpoint stream). -/
  round : Nat := 0
  /-- A die of its group has failed: it is to be rebuilt (R246). -/
  rebuild : Bool := false
  /-- Its checkpoint sheets (checkpoint stream). -/
  bulk : List Bulk := []
  deriving DecidableEq, Repr

/-- A block's history (R214, R241, R244). -/
structure Block where
  wear : Nat := 0
  reads : Nat := 0
  level : Nat := 0
  retired : Bool := false
  retireQ : Option Nat := none
  deriving DecidableEq, Repr

/-- A journal record (R232), with what other rules journal: a new KGEN (R386), a keyspace's deletion (R403), DRIVE_FMT (R422). -/
inductive JType where
  | commit | remove | map | remap | erasePending | erased | retire | seq | worn | kgen | ksDelete | fmt
  deriving DecidableEq, Repr

structure JRec where
  typ : JType
  seq : Nat
  a : Nat := 0
  b : Nat := 0
  c : Nat := 0
  deriving DecidableEq, Repr

/-- Who owns a ream (R240). -/
inductive ReamOwner where
  | broke | fold | refresh | wear | retirement
  deriving DecidableEq, Repr

/-- How far the relocation of a ream has come (R237). -/
inductive MoveSt where
  /-- Its internal work has not been dispatched, or its sheets are not copied. -/
  | queued
  /-- Its copies are placed and not all on media. -/
  | copying
  /-- Its REMAP records are not durable. -/
  | remapping
  /-- A read may hold a PSA of it. -/
  | holding
  /-- ERASE_PENDING is journaled and ERASED is not (R235, R237). -/
  | erasing
  deriving DecidableEq, Repr

/-- The relocation of one ream, run as internal work (R237, R240). -/
structure Move where
  ream : Nat
  owner : ReamOwner
  /-- Arrival number of the internal work, its class, and the ream its data goes to (wear levelling only). -/
  arr : Nat
  cls : Nat
  dst : Option Nat := none
  st : MoveSt := .queued
  /-- Source and destination PSAs, and the journal sequence waited for. -/
  moves : List (Nat × Nat) := []
  seq : Nat := 0
  deriving DecidableEq, Repr

/-- An object record staged in protected felt (R222, R223): its slot, DR offset, held write and bytes. -/
structure Staged where
  slot : Nat
  dr : Nat
  held : Nat
  bytes : List Byte
  deriving DecidableEq, Repr

/-- Media sequencer and translation layer (07; ids 0x0B, 0x0C). -/
structure Trl where
  /-- TRL_BROKE, TRL_WEAR, TRL_REFRESH, TRL_PATROL, TRL_QUIRE, TRL_CKPT (R248). -/
  brokeReg : W32 := 0x02000800
  wearReg : W32 := 0x00080258
  refreshReg : W32 := 0x00080032
  patrolReg : W32 := 0x00007807
  quireReg : W32 := 0x000009C4
  ckptReg : W32 := 0x00100258
  recovering : Bool := true
  worn : Bool := false
  /-- MSQ counts (R248). -/
  retries : Nat := 0
  soft : Nat := 0
  rebuilds : Nat := 0
  uncorr : Nat := 0
  /-- Reads that reached step 5 since manufacture (13, health page). -/
  uncorrLife : Nat := 0
  sheets : Tbl Sheet := []
  reams : Tbl Ream := []
  blocks : Tbl Block := []
  /-- Ream table: the block that stands for member position (key) in place of its own index (R245). -/
  remap : Tbl Nat := []
  /-- Spares used per plane, keyed (channel × 24 + die) × 4 + plane (R245); log 5 for the number shipped. -/
  sparesUsed : Tbl Nat := []
  /-- Consecutive failures per die, keyed channel × 24 + die, and the failed dies (R246). -/
  dieFails : Tbl Nat := []
  failedDies : List Nat := []
  retiredGroups : List Nat := []
  closeStamp : Nat := 0
  hostWritten : Nat := 0
  mediaWritten : Nat := 0
  /-- Last host stream write, for folding (R230). -/
  lastHostWrite : Nat := 0
  journal : List JRec := []
  jNext : Nat := 1
  jDurable : Nat := 0
  /-- Journal records placed in journal sheets, and those sheets: PSA and last record (R232). -/
  jPlaced : Nat := 0
  jSheets : List (Nat × Nat) := []
  /-- The journal sequence at which the last complete checkpoint round began, that of the round under way, its number, the
  tick it began, the segments it has written and their journal sequences, newest first (R233). -/
  ckptSeq : Nat := 0
  roundSeq : Nat := 0
  round : Nat := 1
  roundFrom : Nat := 0
  segs : List Nat := []
  /-- The two checkpoint roots, newest first: round, and the journal sequence its replay begins at; the checkpoint sheets written
  so far (R233, R235). -/
  roots : List (Nat × Nat) := []
  ckptSheets : Nat := 0
  /-- Reams of the WORN journal reserve that journal records have taken (R231, R247). -/
  wornUsed : Nat := 0
  /-- PSAs of sheets that were copied from sheets no longer readable: reading one ends at step 5 (R215, R246). -/
  badPsas : List Nat := []
  /-- The 64-bit write sequence of each page that has been placed, by PSA / 4, and the last one given (R208). -/
  wseqs : Tbl Nat := []
  wseq : Nat := 0
  /-- Staged object records in order, and the tick the oldest was staged (R223, R213). -/
  staged : List Staged := []
  stagedAt : Nat := 0
  /-- Relocations under way (R237). -/
  moves : List Move := []
  /-- Next map page number (R217). -/
  nextPage : Nat := 1
  /-- Tick at which the patrol pass began, and the pages it has read (R243). -/
  patrolFrom : Nat := 0
  patrolled : List Nat := []
  /-- Failed dies whose group is being rebuilt, with the reams rebuilt so far (R246). -/
  rebuilding : Tbl Nat := []
  /-- ACK_LOST since manufacture (13, health page). -/
  ackLostEver : Bool := false
  deriving DecidableEq, Repr

/-! ### Chain ports and chain transport (08, 09) -/

/-- A frame held in the drive: bytes, ingress port (none for the drive's own), priority. -/
structure EFrame where
  bytes : List Byte
  from? : Option Nat
  prio : Nat
  tick : Nat
  stomp : Bool := false
  deriving DecidableEq, Repr

/-- One chain port (R283). -/
structure Port where
  /-- CPT_PCTRL, CPT_PVID, CPT_PFC_THR, CPT_WDOG (R283). -/
  pctrl : W32 := 0x0100FFC0
  pvid : W32 := 0x0FFF0000
  thr : W32 := 0x00080100
  wdog : W32 := 0x00C80064
  link : Bool := false
  fecLock : Bool := false
  preempt : Bool := false
  /-- CPT_PSTAT.VERIFY, and the link-up the verification under way counts from (R273). -/
  verify : Nat := 0
  verifyAt : Nat := 0
  /-- The timer wheel: expiries served, as (step, priority × 8 + slot, count), this step's and the last one's (R278). -/
  wheel : List (Nat × Nat × Nat) := []
  /-- Ticks (×1, from quanta) until which each priority is paused; start of the unbroken pause (R275, R277). -/
  pausedUntil : Vector (Option Nat) 8 := Vector.replicate 8 none
  pausedSince : Vector (Option Nat) 8 := Vector.replicate 8 none
  /-- Tick of the storm's start and of the last pause received in it (R277). -/
  storm : Vector (Option Nat) 8 := Vector.replicate 8 none
  lastPause : Vector Nat 8 := Vector.replicate 8 0
  /-- Tick at which XOFF was last sent per priority, while above XON (R276). -/
  xoff : Vector (Option Nat) 8 := Vector.replicate 8 none
  egress : List EFrame := []
  /-- The port that last supplied a frame of each priority: true when the drive's own went last (R267). -/
  ownLast : Vector Bool 8 := Vector.replicate 8 false
  sent : List EFrame := []
  counts : Vector Nat 22 := Vector.replicate 22 0
  /-- A port reset is under way until link-up (R262). -/
  resetting : Bool := false
  probeSeq : Nat := 0
  deriving DecidableEq, Repr

/-- A wake filter (R279, R283). -/
structure WakeFilter where
  ctrl : W32 := 0x00000006
  offset : W32 := 0
  pattern : BitVec 128 := 0
  mask : BitVec 128 := 0
  deriving DecidableEq, Repr

/-- Step of an insertion or removal under way (R257, R259). -/
inductive ChainOp where
  | none
  | selftest
  | inserting
  | locking (since : Nat)
  | removing
  deriving DecidableEq, Repr

/-- A CHAIN_CONTROL command waiting for its outcome (R409). -/
structure ChainCmd where
  /-- The task still to be answered; none once its RESP has gone. -/
  task : Option TaskRef
  action : Nat
  port : Nat
  /-- The tick it was taken up, or its action began. -/
  since : Nat
  started : Bool := false
  /-- Waits until the RESP sent on this flow is acknowledged (flow, RESP SEQ). -/
  resp : Option (Nat × W32) := none
  /-- The arrival number of its command while that RESP stands behind another response (R300). -/
  waits : Option Nat := none
  deriving DecidableEq, Repr

/-- Chain ports (08; id 0x02). -/
structure Cpt where
  ports : Vector Port 2 := Vector.replicate 2 {}
  filters : Vector WakeFilter 8 := Vector.replicate 8 {}
  /-- CPT_BYPASS.STATE: 0 BYPASSED, 1 INSERTED, 2 MOVING, 3 FAULT. -/
  bypass : Nat := 0
  sensed : Bool := false
  hold : Bool := false
  selftestOk : Bool := false
  lastCause : Nat := 0
  /-- The cause of the insertion under way, CPT_BYPASS.LAST_CAUSE once the switch moves for it (R257, R283). -/
  opCause : Nat := 0
  /-- The optical engines are powered. -/
  optics : Bool := false
  op : ChainOp := .none
  opTick : Nat := 0
  cmds : List ChainCmd := []
  /-- CPT_STATION; log 5. -/
  station : BitVec 48 := 0x001000564B03
  actType : W32 := 0x000088B5
  actGroup : Word := 0x010000564B03
  probeMs : Byte := 0x64
  ringOpen : Bool := false
  ownProbe : Option Nat := none
  lowerProbe : Option Nat := none
  lastProbe : Nat := 0
  /-- Sources of probes received: station (as an ordered number), port, tick (13, chain status). -/
  stations : List (Nat × Nat × Nat) := []
  wakeOutEn : Bool := false
  wakeDiscarded : Nat := 0
  /-- The match that last drove WAKE_OUT low (R281), and whether ACTIVE has been reached since. -/
  wakeOutAt : Option Nat := none
  wakeOutDone : Bool := false
  heldFrames : List (Nat × EFrame) := []
  deriving DecidableEq, Repr

/-- A message accepted from the wire for XPT: port, source address, header and payload. -/
structure ActMsg where
  port : Nat
  src : BitVec 48
  bytes : List Byte
  deriving DecidableEq, Repr

/-- A sequenced message sent and not yet acknowledged. -/
structure Unacked where
  seq : W32
  kind : Byte
  cid : BitVec 16
  doff : Word
  last : Bool
  payload : List Byte
  deriving DecidableEq, Repr

/-- A command received on a flow and not completed: its arrival number, the bytes of its stream that have come, and for each
buffer of transport reassembly it holds the stretches (from, to) of the stream still to be consumed from it (R296, R299,
R301). -/
structure Inbound where
  no : Nat
  held : List (List (Nat × Nat)) := []
  bytes : List Byte := []
  deriving DecidableEq, Repr

/-- A response on a flow whose messages wait for those of an earlier one, or the first, which goes out as it comes (R300):
its command's arrival number, its messages (their SEQ is given when they are sent), whether its RESP is among them, and the
CONSUME read its RESP will acknowledge (R397). -/
structure Response where
  no : Option Nat := none
  msgs : List Unacked := []
  done : Bool := false
  consume : Option (Nat × Nat) := none
  deriving DecidableEq, Repr

/-- The incomplete data stream of a flow's newest command (R299). -/
structure Stream where
  cid : BitVec 16
  /-- Bytes it needs and has. -/
  need : Nat
  have_ : Nat
  since : Nat
  /-- The command's arrival number, or the verdict it completes with once the stream is in. -/
  arr : Option Nat
  verdict : Byte × Word := (0, 0)
  /-- The verdict has gone out before the stream was in (R300). -/
  ended : Bool := false
  deriving DecidableEq, Repr

/-- An ACT flow (R288–R300). -/
structure Flow where
  client : BitVec 48
  sflow : BitVec 16
  isn : W32
  port : Nat
  pcp : Nat
  group : Nat
  subscribe : Bool := false
  owner : Bool := false
  /-- READ and WRITE rights per keyspace. -/
  rd : BitVec 256 := 0
  wr : BitVec 256 := 0
  /-- Next SEQ expected, and the first SEQ the client may not send. -/
  rxNext : W32
  rxWin : W32
  /-- Next SEQ to send, oldest unacknowledged, and the client's window. -/
  txNext : W32
  txWin : W32
  unacked : List Unacked := []
  queue : List Unacked := []
  /-- Retransmit timer: due tick, current length in wheel steps, expiries without progress (R297). -/
  rtoDue : Option Nat := none
  rto : Nat := 20
  retries : Nat := 0
  /-- Sequenced messages received and not acknowledged, and the tick of the first. -/
  ackPend : Nat := 0
  ackSince : Option Nat := none
  nakFor : Option W32 := none
  /-- Tick of the last expiry of the retransmit timer (R298). -/
  rtoFired : Option Nat := none
  /-- The drive's ISN and the WINDOW its OPEN_ACK carried (R289, R292). -/
  txIsn : W32 := 0
  openWin : W32 := 0
  /-- CONSUME reads whose RESP is not acknowledged: RESP SEQ, first entry, entries (R397). -/
  consume : List (W32 × Nat × Nat) := []
  lastRx : Nat := 0
  stream : Option Stream := none
  /-- Commands received and not completed (R296, R299). -/
  inbound : List Inbound := []
  /-- Responses begun and not ended: the first is going out, the others wait for it (R300). -/
  outs : List Response := []
  /-- The arrival number next to be given when the flow was opened: a command below it belongs to an earlier flow of the same
  id (R301). -/
  first : Nat := 0
  closing : Bool := false
  /-- ATTN_SUMMARY has gained a bit since the last ATTN, and the tick of that one (R303). -/
  attnDue : Bool := false
  lastAttn : Option Nat := none
  /-- Buffers it holds of transport reassembly (R296). -/
  bufs : Nat := 1
  deriving DecidableEq, Repr

/-- Chain transport engine (09; id 0x03). -/
structure Xpt where
  /-- XPT_CTRL: 64, 20, 8, 60 (R308). -/
  ctrl : W32 := 0x3C081440
  flows : Tbl Flow := []
  freeBuf : Nat := 4096
  rx : List ActMsg := []
  counts : Vector Nat 11 := Vector.replicate 11 0
  /-- Flows a message of which was discarded in DORMANT (R305). -/
  lost : List Nat := []
  /-- New credit is withheld (R306, DORMANT). -/
  creditHeld : Bool := false
  deriving DecidableEq, Repr

/-! ### Budget governor (11) -/

/-- A work class (R356–R361); energies in 1/256 µJ. -/
structure Wc where
  weight : Nat
  floorPct : Nat
  ceilPct : Nat
  fund : Int := 0
  spend : Int := 0
  lastSpend : Int := 0
  debt : Int := 0
  debtAge : Nat := 0
  deriving DecidableEq, Repr

/-- A thermal group (R369): SOFT, ceiling in 1/100 W, at HARD. -/
structure TGroup where
  soft : Nat
  softDef : Nat
  hard : Nat
  maxC : Int := 0
  ceilCw : Nat := 24000
  atHard : Bool := false
  deriving DecidableEq, Repr

/-- Default shares of R361. -/
def wcDefault (c : Nat) : Wc :=
  match c with
  | 2 => ⟨16, 5, 100, 0, 0, 0, 0, 0⟩
  | 3 => ⟨32, 10, 100, 0, 0, 0, 0, 0⟩
  | 4 => ⟨32, 10, 100, 0, 0, 0, 0, 0⟩
  | 5 => ⟨24, 5, 100, 0, 0, 0, 0, 0⟩
  | 6 => ⟨8, 2, 100, 0, 0, 0, 0, 0⟩
  | 7 => ⟨2, 1, 100, 0, 0, 0, 0, 0⟩
  | 8 => ⟨1, 0, 100, 0, 0, 0, 0, 0⟩
  | 9 => ⟨8, 2, 100, 0, 0, 0, 0, 0⟩
  | 10 => ⟨1, 0, 100, 0, 0, 0, 0, 0⟩
  | 0 | 1 => ⟨0, 0, 0, 0, 0, 0, 0, 0⟩
  | _ => ⟨4, 0, 25, 0, 0, 0, 0, 0⟩

/-- SOFT and HARD defaults of the six thermal groups (R369). -/
def tgroupDefault (g : Nat) : TGroup :=
  match g with
  | 0 => { soft := 95, softDef := 95, hard := 105 }
  | 1 => { soft := 75, softDef := 75, hard := 85 }
  | 2 => { soft := 85, softDef := 85, hard := 95 }
  | 3 => { soft := 65, softDef := 65, hard := 75 }
  | 4 => { soft := 70, softDef := 70, hard := 80 }
  | _ => { soft := 45, softDef := 45, hard := 0 }

/-- Budget governor (11; id 0x06). -/
structure Bgv where
  /-- BGV_CAP.CAP_W (RWS, R373). -/
  cap : Nat := 240
  /-- A raised cap takes effect at the next boundary (R364). -/
  capInForce : Nat := 240
  supplyW : Nat := 0
  thermW : Nat := 0
  limiter : Nat := 0
  effectiveW : Nat := 0
  /-- J-AUX allowance shown in BGV_SUPPLY, with the pins as last read. -/
  auxW : Nat := 0
  senseReg : BitVec 3 := 0
  setpoint : Nat := 0x32
  vcore : Nat := 0x32
  vmin : Nat := 0
  vmax : Nat := 0x46
  vfixed : Bool := false
  lastStep : Nat := 0
  mig : W32 := 0x00320601
  groupSel : Nat := 0
  inputUj : Nat := 0
  /-- fixed of R356 in µJ. -/
  fixedUj : Int := 0
  wc1 : Nat := 0x07CF
  blowerFaultW : Nat := 0x5A
  /-- BLD's last report was a fault (R370). -/
  blowerFault : Bool := false
  /-- The ceiling the blower-fault budget leaves, rising again once BLD reports healthy (R370); 1/100 W. -/
  blowerCw : Nat := 24000
  tg : Vector TGroup 6 := Vector.ofFn (fun i => tgroupDefault i.val)
  wc : Vector Wc 16 := Vector.ofFn (fun i => wcDefault i.val)
  /-- spare of R357, in 1/256 µJ. -/
  spare : Int := 0
  /-- WC0 spends of the last 16 windows in 1/256 µJ, newest first (R356). -/
  peaks : List Int := []
  window : Nat := 0
  /-- e_avail of the last boundary. -/
  eAvailUj : Option Nat := none
  overTick : Option Nat := none
  temps : List Temp := []
  failed : List Nat := []
  inletHigh : Bool := false
  paces : List Nat := []
  /-- The 64-bit pace counter of each unit as last observed, and as it stood at the last boundary (R353). -/
  paceCnt : List Nat := []
  paceBase : List Nat := []
  /-- Consecutive windows each vat has read hot (R371). -/
  hotWindows : Vector Nat 12 := Vector.replicate 12 0
  deriving DecidableEq, Repr

/-! ### Cipher cluster, security core and firmware (12, 14) -/

/-- A key slot of the cipher cluster. -/
structure KeySlot where
  key : List Byte
  ops : Nat := 0
  ksid : Byte := 0
  deriving DecidableEq, Repr

/-- Cipher cluster (12; id 0x0D). -/
structure Ccl where
  keys : Tbl KeySlot := []
  sealed : Tbl Sealed := []
  /-- Key slots, and sealed slots with their owners, that an alarm zeroed and nothing has filled or freed since (R381). -/
  alarmKeys : List Nat := []
  alarmSealed : List (Nat × Owner) := []
  /-- CCL_LIMIT.LOG2 (R391). -/
  limit : W32 := 0x20
  deriving DecidableEq, Repr

/-- A firmware image as its slot or the running store holds it (R411). -/
structure Image where
  valid : Bool := true
  /-- Its slot has not been written to the end and read back: it cannot verify (R414). -/
  torn : Bool := false
  version : Word := 0
  svn : Nat := 0
  immediateOk : Bool := false
  loader : Bool := false
  loaderVersion : W32 := 0
  /-- SHAKE256-256 of the carried loader (R389, R422). -/
  loaderDigest : List Byte := []
  fmtWrite : Nat := 0
  fmtReadMin : Nat := 0
  fmtReadMax : Nat := 0
  userAbi : Nat := 0
  keyIndex : Nat := 0
  vendor : List Byte := []
  /-- The 256-entry dispatch table of the body (R45, R411); empty for the image a new drive ships with, whose table the
  manual does not give (log 22). -/
  table : List Byte := []
  /-- FW_DIGEST: SHAKE256-256 of header and body (R411). -/
  digest : List Byte := []
  deriving DecidableEq, Repr

/-- A copy of the MARK record of the identity key: 40-bit mark, 32-bit serial, and their CRC-32C (R388). -/
structure MarkRec where
  mark : Nat
  serial : Nat
  crc : W32
  deriving DecidableEq, Repr

/-- Security core with the firmware state (12, 14; id 0x0E). -/
structure Sec where
  eraseArm : Bool := false
  locked : Bool := false
  glitches : List Nat := []
  tamperSeen : Bool := false
  ownerGen : W32 := 0
  /-- Identity key: the next leaf, and the two copies of the MARK record, new ones at mark 0 (R388); log 5. -/
  leaf : Nat := 0
  marks : Vector MarkRec 2 := #v[⟨0, 0, 0xBBE568A3⟩, ⟨0, 1, 0x66A0C21B⟩]
  /-- Slots and running image (R412); log 5: a new drive holds one confirmed image in slot 0. -/
  slots : Vector (Option Image) 2 := #v[some {}, none]
  run : Option Image := none
  runSlot : Nat := 0
  conf : Nat := 0
  trial : Option Nat := none
  trialBoots : Nat := 0
  /-- Trial seconds left when OPSEC read the value given (R420). -/
  trialLeft : Nat := 0
  trialFrom : Nat := 0
  committed : Option Nat := none
  pending : Bool := false
  pendTrialS : Nat := 600
  minSvn : Nat := 0
  driveFmt : Nat := 0
  /-- An activation under R417: the FW_ACTIVATE's task if one waits for it, the tick it began, its trial length. -/
  activating : Option (Option TaskRef × Nat × Nat) := none
  /-- The trial's seconds have passed and the fall-back to the confirmed image is owed (R421). -/
  fallingBack : Bool := false
  recovery : Bool := false
  /-- The download buffer and which 4-byte words were written (R413). -/
  buf : Mem := []
  bufWords : List Nat := []
  /-- The running resident loader and its copies A and B (R387, R422): version and digest. -/
  loader : W32 × List Byte := (0, [])
  loaderA : W32 × List Byte := (0, [])
  loaderB : W32 × List Byte := (0, [])
  /-- A confirmation under way: its slot, the next of its steps, and the journal sequence that step waits for (R422). -/
  confirming : Option (Nat × Nat × Nat) := none
  /-- Revoke fuses of the four fused public keys (R387); log 5. -/
  revoked : BitVec 4 := 0
  deriving DecidableEq, Repr

/-! ### Administration (13) -/

/-- A self-test result (13, LID 0x03). -/
structure TestRes where
  kind : Nat
  outcome : Nat
  segment : Nat
  opsec : Nat
  event : BitVec 16
  deriving DecidableEq, Repr

/-- Features, self-test and identity (13). -/
structure Adm where
  autoInsert : Nat := 1
  selftestH : Nat := 0
  ledMgpio : Nat := 0
  /-- Saved feature values, by FID (R398). -/
  saved : Tbl Nat := []
  /-- Self-test running: 1 short, 2 extended, with the tick it started. -/
  test : Option (Nat × Nat) := none
  results : List TestRes := []
  lastPeriod : Nat := 0
  /-- DEV_ID.STEP, HW_REV and SERIAL; log 5. -/
  step : Byte := 0x03
  hwRev : BitVec 16 := 0x4301
  serial : List Byte := []
  deriving DecidableEq, Repr

/-! ### Blower drive (17) -/

/-- BLD_STATUS.STATE (R468). -/
inductive BldSt where
  | off | test | sense | brake | align | ramp | run | lost | asc | coast | wait | fault
  deriving DecidableEq, Repr

/-- An overvoltage episode (R477): the level reached, its peak in mV, ticks spent above 13.2 V, and the tick the bus
last rose above it. -/
structure Overvolt where
  level : Nat
  peak : Nat
  above : Nat := 0
  since : Option Nat := none
  deriving DecidableEq, Repr

/-- Blower drive (17; id 0x10). -/
structure Bld where
  st : BldSt := .off
  /-- 0 untested, 1 OK, 2 FAULTY, 3 STUCK_ON (R471). -/
  chopper : Nat := 0
  /-- The last report under R478 was healthy. -/
  healthy : Bool := false
  reverse : Bool := false
  rpm : Nat := 0
  demand : Nat := 0
  force : Bool := false
  forceRpm : Nat := 0
  conf : Nat := 0
  lossThresh : Nat := 0x40
  lockThresh : Nat := 0xA0
  busMv : Nat := 0
  peakMv : Nat := 0
  minRpm : Nat := 0x07D0
  maxRpm : Nat := 0x3E80
  inputCw : Nat := 0
  phaseMa : Nat := 0
  starts : Nat := 0
  startFails : Nat := 0
  losses : Nat := 0
  overvolts : Nat := 0
  /-- Failed attempts in the present series, and series begun since power-on reset (R472). -/
  attempts : Nat := 0
  series : Nat := 0
  /-- Tick at which the present state was entered. -/
  since : Nat := 0
  /-- Tick of the declaration of R475, or of the release that began a re-acquisition (R477). -/
  declared : Option Nat := none
  /-- Tick of the first fault report since the last healthy one (R478). -/
  faultAt : Option Nat := none
  retryAt : Nat := 0
  /-- BRAKE after a failed re-acquisition: a start follows (R476). -/
  restart : Bool := false
  /-- ASC or off because of a drain or a device reset (R479). -/
  stopping : Bool := false
  ov : Option Overvolt := none
  /-- The present ASC belongs to OV2, and its 300 ms limit was reported (R477, R478). -/
  ovAsc : Bool := false
  ovReported : Bool := false
  /-- OFF or FAULT, where OV2 applied ASC in it: what the blower goes back to (R477, log 159). -/
  ovBack : Option BldSt := none
  /-- The brake resistor is switched across the bus by the chopper's own regulation (R467). -/
  chopperOn : Bool := false
  /-- Field-weakening current flows (R474). -/
  weak : Bool := false
  /-- The speed the drive steers for in RUN, which moves toward the demand (R474). -/
  ref : Nat := 0
  /-- The demand BGV gave last (R473). -/
  given : Option Nat := none
  /-- Ticks of the last reading of a confidence below LOCK_THRESH, of one at or above LOSS_THRESH, of a speed or confidence not fit
  for a healthy report, and of one that is no speed deficit (R469, R475, R476, R478). -/
  unlockAt : Option Nat := none
  heldAt : Option Nat := none
  unfitAt : Option Nat := none
  fastAt : Option Nat := none
  deriving DecidableEq, Repr

/-! ### Management bus (18) -/

/-- One management bus port (R499): page register, RDM_TICK latch, last response. -/
structure MgPort where
  page : Byte := 0
  latch : Option W32 := none
  resp : List Byte := []
  nack : Bool := false
  deriving DecidableEq, Repr

/-- Everything of the drive but the time base, the power state and the queue. -/
structure Dev where
  attn : Attn := {}
  evr : Evr := {}
  mea : Mea := {}
  hqe : Hqe := {}
  kdr : Kdr := {}
  flt : Flt := {}
  cal : Cal := {}
  cch : Cch := {}
  trl : Trl := {}
  cpt : Cpt := {}
  xpt : Xpt := {}
  bgv : Bgv := {}
  ccl : Ccl := {}
  sec : Sec := {}
  adm : Adm := {}
  bld : Bld := {}
  mg : Vector MgPort 2 := Vector.replicate 2 {}
  /-- DEV_STATE.LAST_RESET (R464). -/
  lastReset : Nat := 1
  /-- RDM_TICK high-half latch of BAR0 (R348). -/
  tickLatch : Option W32 := none
  /-- The model's own counter of free values taken (log 4). -/
  free : Nat := 0
  deriving DecidableEq, Repr

/-- The block: time base and power state, the rest of the drive, and the commands waiting, first in first out. -/
structure State where
  env : Env := {}
  dev : Dev := {}
  pending : List Instr := []
  deriving DecidableEq, Repr

/-- The machine right after power-on reset (R14, R454): DEV_STATE reads BRINGUP, step 1 of R452 has ended. -/
def State.reset : State := {}

end Sys2Proof.Machine
end

