-- ==== Sys2Proof/Machine/Ops.lean ====
section
/-! DEFINITION. The shared operations: sparse tables and memory, bit fields and byte orders, CRC-32C, the event
recorder (15, R427–R432), the attention tree (15, R439–R443), and message-signalled interrupts (04, R119, R124). -/

namespace Sys2Proof.Machine

/-! ### Lifting -/

/-- A meaning that changes the drive but neither the time base, the power state nor the queue. -/
def onDev (s : State) (f : Env → Dev → Dev) : Host.Outcome State Fault Refusal :=
  .next { s with dev := f s.env s.dev }

/-- A meaning that may change the time base and the power state as well, never the queue. -/
def onEnv (s : State) (f : Env → Dev → Env × Dev) : Host.Outcome State Fault Refusal :=
  .next { s with env := (f s.env s.dev).1, dev := (f s.env s.dev).2 }

/-! ### Reach of the register space -/

/-- VCORE is on, so that the host side answers: from the end of step 2 of R452 until DRAIN, RETENTION or the domain reset of
a device reset (R521). -/
def hostAlive (env : Env) : Bool :=
  match env.pw.st with
  | .bringup => 2 ≤ env.pw.bringStep
  | .active | .dormant | .recovery => true
  | _ => false

/-! ### Sparse tables -/

/-- The entry of a table under a key. -/
def tblGet {α : Type} : Tbl α → Nat → Option α
  | [], _ => none
  | (x, c) :: t, k => if x = k then some c else tblGet t k

/-- The entry of a table under a key, or a default. -/
def tblGetD {α : Type} (t : Tbl α) (k : Nat) (d : α) : α := (tblGet t k).getD d

/-- The table with an entry stored, keys rising. -/
def tblSet {α : Type} : Tbl α → Nat → α → Tbl α
  | [], k, v => [(k, v)]
  | (x, c) :: t, k, v =>
    if k < x then (k, v) :: (x, c) :: t
    else if k = x then (k, v) :: t
    else (x, c) :: tblSet t k v

/-- The table without the entry of a key. -/
def tblErase {α : Type} (t : Tbl α) (k : Nat) : Tbl α := t.filter (fun e => e.1 != k)

/-- A table with one entry changed, taking a default where it has none. -/
def tblUpd {α : Type} (t : Tbl α) (k : Nat) (d : α) (f : α → α) : Tbl α := tblSet t k (f (tblGetD t k d))

/-- Element i of a vector, or a default outside it. -/
def vget {α : Type} {n : Nat} (v : Vector α n) (i : Nat) (d : α) : α := v[i]?.getD d

/-- A vector with element i replaced; unchanged outside its range. -/
def vset {α : Type} {n : Nat} (v : Vector α n) (i : Nat) (x : α) : Vector α n := v.setIfInBounds i x

/-- A vector with element i changed. -/
def vupd {α : Type} {n : Nat} (v : Vector α n) (i : Nat) (f : α → α) : Vector α n :=
  match v[i]? with
  | some x => v.setIfInBounds i (f x)
  | none => v

/-! ### Memory -/

/-- The byte at an address; an unlisted address reads as zero (log 6). -/
def memRead : Mem → Nat → Byte
  | [], _ => 0
  | (x, c) :: t, a => if x = a then c else memRead t a

/-- Memory with one byte stored, in canonical form: strictly rising addresses, no zero byte listed. -/
def memWrite : Mem → Nat → Byte → Mem
  | [], a, b => if b = 0 then [] else [(a, b)]
  | (x, c) :: t, a, b =>
    if b = 0 then (if x = a then memWrite t a b else (x, c) :: memWrite t a b)
    else if a < x then (a, b) :: (x, c) :: t
    else if a = x then (a, b) :: t
    else (x, c) :: memWrite t a b

/-- n bytes from an address, lowest first. -/
def memBytes (m : Mem) (a n : Nat) : List Byte := (List.range n).map (fun i => memRead m (a + i))

/-- Memory with bytes stored from an address on, lowest first. -/
def memStore (m : Mem) (a : Nat) : List Byte → Mem
  | [] => m
  | b :: bs => memStore (memWrite m a b) (a + 1) bs

/-- Memory with a range zeroed. -/
def memZero (m : Mem) (a n : Nat) : Mem := m.filter (fun c => !(a ≤ c.1 && c.1 < a + n))

/-- The canonical form. -/
def memWf : Mem → Bool
  | [] => true
  | [(_, b)] => b != 0
  | (a, b) :: (a', b') :: t => b != 0 && a < a' && memWf ((a', b') :: t)

/-! ### Bit fields and byte orders (R8) -/

/-- Bits lo + len − 1 : lo of a word, as a number. -/
def fld {n : Nat} (w : BitVec n) (lo len : Nat) : Nat := w.toNat / 2 ^ lo % 2 ^ len

/-- Bit i of a word. -/
def bitOf {n : Nat} (w : BitVec n) (i : Nat) : Bool := w.getLsbD i

/-- A word with a field replaced. -/
def setFld {n : Nat} (w : BitVec n) (lo len v : Nat) : BitVec n :=
  let m : BitVec n := BitVec.ofNat n ((2 ^ len - 1) * 2 ^ lo)
  (w &&& ~~~m) ||| (BitVec.ofNat n (v % 2 ^ len * 2 ^ lo))

/-- The number a byte string spells little-endian. -/
def leNat : List Byte → Nat
  | [] => 0
  | b :: bs => b.toNat + 256 * leNat bs

/-- The n low bytes of a number, little-endian. -/
def natLe : Nat → Nat → List Byte
  | 0, _ => []
  | n + 1, v => BitVec.ofNat 8 v :: natLe n (v / 256)

/-- The number a byte string spells big-endian (frames on the wire). -/
def beNat (bs : List Byte) : Nat := leNat bs.reverse

/-- The n low bytes of a number, big-endian. -/
def natBe (n v : Nat) : List Byte := (natLe n v).reverse

/-- n bytes of a byte string from an offset, zero beyond its end. -/
def slice (bs : List Byte) (off n : Nat) : List Byte :=
  ((bs.drop off).take n) ++ List.replicate (n - ((bs.drop off).take n).length) 0

/-- A little-endian field of a byte string. -/
def leAt (bs : List Byte) (off n : Nat) : Nat := leNat (slice bs off n)

/-- One if true. -/
def b2n (b : Bool) : Nat := if b then 1 else 0

/-- A count that saturates at 0xFFFF_FFFF. -/
def sat32 (n : Nat) : Nat := min n 0xFFFFFFFF

/-- A 32-bit value of a number, modulo 2^32. -/
def w32 (n : Nat) : W32 := BitVec.ofNat 32 n

/-- Rounded up to a multiple of m. -/
def roundUp (n m : Nat) : Nat := (n + (m - 1)) / m * m

/-! ### CRC-32C (R95) -/

/-- One bit of CRC-32C with the reflected polynomial 0x82F6_3B78. -/
def crcBit (c : W32) : W32 := if bitOf c 0 then (c >>> 1) ^^^ 0x82F63B78#32 else c >>> 1

/-- One byte of CRC-32C. -/
def crcByte (c : W32) (b : Byte) : W32 :=
  crcBit (crcBit (crcBit (crcBit (crcBit (crcBit (crcBit (crcBit (c ^^^ b.setWidth 32))))))))

/-- CRC-32C over bytes from a start state, without inversion. -/
def crc32c (st : W32) (bs : List Byte) : W32 := bs.foldl crcByte st

/-- The standard CRC-32C: seed 0xFFFF_FFFF, inverted. -/
def crcStd (bs : List Byte) : W32 := crc32c 0xFFFFFFFF#32 bs ^^^ 0xFFFFFFFF#32

/-! ### The MARK records of the identity key (R388) -/

/-- CRC-32C of a MARK record, over its mark and its serial. -/
def markCrc (mark serial : Nat) : W32 := crcStd (natLe 5 mark ++ natLe 4 serial)

/-- A copy of the MARK record is valid. -/
def MarkRec.valid (m : MarkRec) : Bool := m.crc == markCrc m.mark m.serial

/-- The copy with the higher serial among the valid ones: 0 or 1. -/
def bestMark (ms : Vector MarkRec 2) : Nat :=
  if ms[1].valid && (!ms[0].valid || ms[0].serial < ms[1].serial) then 1 else 0

/-- The durable mark. -/
def durableMark (s : Sec) : Nat := if bestMark s.marks = 1 then s.marks[1].mark else s.marks[0].mark

/-- A new mark goes into the other copy, whose serial is the lower. -/
def writeMark (mark : Nat) (s : Sec) : Sec :=
  let i := bestMark s.marks
  let serial := (if i = 1 then s.marks[1].serial else s.marks[0].serial) + 1
  { s with marks := vset s.marks (1 - i) ⟨mark, serial, markCrc mark serial⟩ }

/-! ### Free values (log 4) -/

/-- A fresh free 64-bit value and the drive with the counter advanced. -/
def takeFree (d : Dev) : Word × Dev := (Config.freeWord d.free, { d with free := d.free + 1 })

/-- n fresh free bytes and the drive with the counter advanced. -/
def takeFreeBytes (n : Nat) (d : Dev) : List Byte × Dev :=
  ((List.range n).map (Config.freeByte d.free), { d with free := d.free + 1 })

/-! ### Message-signalled interrupts and INTx (R119, R124) -/

/-- The function may issue requests: Bus Master Enable is set and it is in D0 (R96, R122). -/
def Hqe.issues (h : Hqe) : Bool := h.busMaster && !h.d3hot

/-- Signal a vector: a message, or its pending bit while the vector or the function is masked. While MSI-X is
disabled nothing is sent; INTx is a level, `intxLevel`. -/
def sendMsi (v : Nat) (d : Dev) : Dev :=
  let h := d.hqe
  if h.msixOn then
    let e := tblGetD h.msix v {}
    if h.msixMask || e.masked then
      { d with hqe := { h with pba := if h.pba.contains v then h.pba else h.pba ++ [v] } }
    else if !h.issues then { d with hqe := { h with heldMsi := if h.heldMsi.contains v then h.heldMsi else h.heldMsi ++ [v] } }
    else { d with hqe := { h with irqs := h.irqs ++ [⟨v, e.addr, e.data⟩] } }
  else d

/-- Deliver the pending bit of a vector that is no longer masked. -/
def deliverPending (v : Nat) (d : Dev) : Dev :=
  let h := d.hqe
  if h.pba.contains v && h.msixOn && !h.msixMask && !(tblGetD h.msix v {}).masked then
    sendMsi v { d with hqe := { h with pba := h.pba.filter (· != v) } }
  else d

/-! ### Attention tree (R439–R444) -/

/-- ATTN_SUMMARY: bit n is 1 when block n holds an enabled cause that reads 1 (R440). -/
def attnSummary (a : Attn) : W32 :=
  w32 (((List.range 19).map (fun n =>
    if vget a.cause n 0 &&& vget a.enable n 0 = 0 then 0 else 2 ^ n)).foldl (· + ·) 0)

/-- The bits that ask for vector 0: the summary without the masked bits. -/
def attnHost (a : Attn) : W32 := attnSummary a &&& ~~~a.mask

/-- Signal vector 0 for a rise, or leave it to the end of the 250-tick interval (R442); nothing is posted where the host side
does not answer (R446). -/
def attnRaise (env : Env) (d : Dev) : Dev :=
  if !hostAlive env then d
  else match d.attn.lastSignal with
    | some t =>
      if env.tick < t + 250 then { d with attn := { d.attn with pending := true } }
      else sendMsi 0 { d with attn := { d.attn with lastSignal := some env.tick } }
    | none => sendMsi 0 { d with attn := { d.attn with lastSignal := some env.tick } }

/-- ATTN_SUMMARY has gained a bit: every subscribed flow is owed an ATTN (R303). -/
def markFlows (d : Dev) : Dev :=
  let mark (x : Nat × Flow) : Nat × Flow := if x.2.subscribe then (x.1, { x.2 with attnDue := true }) else x
  { d with xpt := { d.xpt with flows := d.xpt.flows.map mark } }

/-- Change causes, enables or masks, and signal vector 0 when a bit of the unmasked summary rises (R442). -/
def attnEdit (env : Env) (f : Attn → Attn) (d : Dev) : Dev :=
  let d0 := { d with attn := f d.attn }
  let d' := if attnSummary d0.attn &&& ~~~attnSummary d.attn = 0 then d0 else markFlows d0
  if attnHost d'.attn &&& ~~~attnHost d.attn = 0 then d' else attnRaise env d'

/-- Set cause bits of block n. -/
def setCause (env : Env) (n : Nat) (bits : W32) (d : Dev) : Dev :=
  attnEdit env (fun a => { a with cause := vupd a.cause n (· ||| bits) }) d

/-- Write a cause register: a 1 clears, and a DEV_FATAL_CAUSE bit whose condition holds stays (R441). -/
def clearCause (env : Env) (n : Nat) (bits : W32) (d : Dev) : Dev :=
  attnEdit env (fun a => { a with cause := vupd a.cause n (fun c =>
    (c &&& ~~~bits) ||| (if n = 0 then c &&& a.holding else 0)) }) d

/-! ### Event recorder (R427–R432) -/

/-- Seconds of main-power-on operation (R427, R463). -/
def opsecNow (env : Env) : Nat :=
  env.pw.opsecBase + (if env.pw.main then (env.tick - env.pw.onTick) / Config.second else 0)

/-- EVR_CTRL fields as they act (R445). -/
def evrRateN (d : Dev) : Nat := max 1 (fld d.evr.ctrl 0 8)
def evrRateS (d : Dev) : Nat := max 10 (fld d.evr.ctrl 8 8)
def evrAttnSev (d : Dev) : Nat := fld d.evr.ctrl 16 3

/-- Every record entered now goes to the boot log as well (R432): the recovery of R235 runs in BRINGUP alone (R452). -/
def bootLogging (env : Env) : Bool := env.pw.st == .bringup || env.pw.st == .recovery

/-- A log, newest first, without its oldest record of a kind. -/
def removeOldest (p : Rec → Bool) : List Rec → Option (List Rec)
  | [] => none
  | x :: t =>
    match removeOldest p t with
    | some t' => some (x :: t')
    | none => if p x then some t else none

/-- Room in the service log for a record of a severity (R431): the log as it stands while short of 262,144 records,
else without the oldest record of lower severity, else of equal severity, else none. -/
def serviceRoom (sev : Nat) (log : List Rec) : Option (List Rec) :=
  if log.length < 262144 then some log
  else match removeOldest (fun r => r.sev < sev) log with
    | some l => some l
    | none => removeOldest (fun r => r.sev == sev) log

/-- Set EVR_CAUSE.HIGH_SEV for a record entered (R428 step 6). -/
def highSev (env : Env) (sev : Nat) (d : Dev) : Dev :=
  if evrAttnSev d ≤ sev then setCause env 0x0F 1 d else d

/-- Enter a record: the next running number, the service log under R431, and with `toBoot` the boot log when it has
room (R428 steps 4–6). Answers the running number, 0 when the record was dropped. -/
def enterOnce (env : Env) (toBoot : Bool) (r : Rec) (d : Dev) : Dev × Nat :=
  let e := d.evr
  let inBoot := toBoot && !e.bootFull && e.boot.length < 4096
  let fl := r.flags ||| (if env.pw.st == .drain then 4 else 0) ||| (if inBoot then 8 else 0)
  let r' := { r with run := e.running, rep := 0, flags := fl, opsec := opsecNow env, pcyc := env.pw.pcyc % 2 ^ 24, tick := env.tick }
  match serviceRoom r.sev e.service with
  | none =>
    (setCause env 0x0F 4 { d with evr := { e with running := e.running + 1, dropped := sat32 (e.dropped + 1) } }, 0)
  | some log =>
    (highSev env r.sev { d with evr := { e with
      running := e.running + 1, service := r' :: log, boot := if inBoot then r' :: e.boot else e.boot } }, e.running)

/-- Enter a record in the logs R432 names: the boot log that finds itself full for the first time reports it. -/
def enterRec (env : Env) (toBoot : Bool) (r : Rec) (d : Dev) : Dev × Nat :=
  let full := d.evr.bootFull || 4096 ≤ d.evr.boot.length
  let res := enterOnce env toBoot r d
  if toBoot && full && res.2 ≠ 0 then
    let d1 := { res.1 with evr := { res.1.evr with bootDropped := sat32 (res.1.evr.bootDropped + 1) } }
    if d.evr.bootFull then (d1, res.2)
    else
      let d2 := setCause env 0x0F 2 { d1 with evr := { d1.evr with bootFull := true } }
      ((enterOnce env false { code := 0x0F03, sev := 2, cls := 0, p0 := w32 res.2 } d2).1, res.2)
  else res

/-- Close the rate window of a code: one SUPPRESSED record for the requests it counted (R429). -/
def closeWindow (env : Env) (code : BitVec 16) (w : RateWin) (d : Dev) : Dev :=
  let d1 := { d with evr := { d.evr with windows := tblErase d.evr.windows code.toNat } }
  if w.counted = 0 then d1
  else
    let d2 := { d1 with evr := { d1.evr with suppressed := sat32 (d1.evr.suppressed + w.counted) } }
    (enterRec env (bootLogging env)
      { code := 0x0F02, sev := w.sev, cls := w.cls, src := w.src, flags := 2,
        p0 := code.setWidth 32, p1 := w32 w.counted, p2 := w32 w.secs } d2).1

/-- Open a rate window with its first request entered. -/
def openWindow (env : Env) (r : Rec) (d : Dev) : Dev :=
  let w : RateWin := ⟨env.tick, evrRateS d, 1, 0, r.sev, r.cls, r.src⟩
  { d with evr := { d.evr with windows := tblSet d.evr.windows r.code.toNat w } }

/-- The rate limit of R429: whether the request is entered, and the windows after it. A window whose time has run
out closes before the request is looked at. -/
def rateGate (env : Env) (r : Rec) (d : Dev) : Dev × Bool :=
  match tblGet d.evr.windows r.code.toNat with
  | none => (openWindow env r d, true)
  | some w =>
    if w.start + w.secs * Config.second ≤ env.tick then (openWindow env r (closeWindow env r.code w d), true)
    else if w.entered < evrRateN d then
      let w' := { w with entered := w.entered + 1 }
      ({ d with evr := { d.evr with windows := tblSet d.evr.windows r.code.toNat w' } }, true)
    else
      let w' := { w with counted := w.counted + 1, sev := r.sev, cls := r.cls, src := r.src }
      ({ d with evr := { d.evr with windows := tblSet d.evr.windows r.code.toNat w' } }, false)

/-- A request repeats the newest record (R430). -/
def repeats (env : Env) (r n : Rec) : Bool :=
  r.code == n.code && r.sev == n.sev && r.cls == n.cls && r.src == n.src &&
  r.p0 == n.p0 && r.p1 == n.p1 && r.p2 == n.p2 && n.pcyc == env.pw.pcyc % 2 ^ 24 && n.rep < 0xFFFF

/-- A log with REPEAT of the record of a running number raised by one. -/
def bumpRep (run : Nat) (log : List Rec) : List Rec :=
  log.map (fun r => if r.run == run then { r with rep := r.rep + 1 } else r)

/-- Repeat counting for HARDWARE and MEDIA (R430), else entering. -/
def repeatOrEnter (env : Env) (r : Rec) (d : Dev) : Dev × Nat :=
  match d.evr.service with
  | n :: _ =>
    if (r.cls = 0 || r.cls = 1) && repeats env r n then
      ({ d with evr := { d.evr with service := bumpRep n.run d.evr.service, boot := bumpRep n.run d.evr.boot } }, n.run)
    else enterRec env (bootLogging env) r d
  | [] => enterRec env (bootLogging env) r d

/-- A request for a record, handled in the order of R428. Answers the running number entered or merged into, 0 when
suppressed or dropped. -/
def request (env : Env) (r : Rec) (d : Dev) : Dev × Nat :=
  if r.cls = 2 || r.cls = 5 then
    let g := rateGate env r d
    if g.2 then repeatOrEnter env r g.1 else (g.1, 0)
  else repeatOrEnter env r d

/-- The class codes of R427. -/
abbrev clsHardware : Nat := 0
abbrev clsMedia : Nat := 1
abbrev clsProtocol : Nat := 2
abbrev clsSecurity : Nat := 3
abbrev clsPower : Nat := 4
abbrev clsUser : Nat := 5

/-- A subsystem's request for one event record. -/
def event (env : Env) (code : BitVec 16) (sev cls src p0 p1 p2 : Nat) (d : Dev) : Dev :=
  (request env { code := code, sev := sev, cls := cls, src := BitVec.ofNat 8 src,
                 p0 := w32 p0, p1 := w32 p1, p2 := w32 p2 } d).1

/-- Set a DEV_FATAL_CAUSE bit; a bit that becomes 1 writes event 0x0001 (R441). -/
def setFatal (env : Env) (bit code : Nat) (d : Dev) : Dev :=
  let was := bitOf (vget d.attn.cause 0 0) bit
  let d1 := setCause env 0 (w32 (2 ^ bit))
    { d with attn := { d.attn with holding := d.attn.holding ||| w32 (2 ^ bit) } }
  if was then d1 else event env 0x0001 7 clsHardware 0 bit code 0 d1

/-- The condition of a DEV_FATAL_CAUSE bit no longer holds. -/
def releaseFatal (bit : Nat) (d : Dev) : Dev :=
  { d with attn := { d.attn with holding := d.attn.holding &&& ~~~w32 (2 ^ bit) } }

/-- The 32 bytes of a record (R427). -/
def recBytes (r : Rec) : List Byte :=
  let body := natLe 2 r.code.toNat ++ [BitVec.ofNat 8 (r.sev * 16 + r.cls), r.flags] ++ natLe 4 r.opsec ++
    natLe 3 r.pcyc ++ [r.src] ++ natLe 2 r.rep ++ natLe 2 r.run ++
    natLe 4 r.p0.toNat ++ natLe 4 r.p1.toNat ++ natLe 4 r.p2.toNat
  body ++ natLe 4 (crcStd body).toNat

end Sys2Proof.Machine
end

