-- ==== Sys2Proof/Machine/Energy.lean ====
section
/-! DEFINITION. Charging work classes (11, R356–R363): energies in 1/256 µJ, rounded down (log 7). -/

namespace Sys2Proof.Machine

/-- VCORE in millivolts (R373). -/
def vcoreMv (d : Dev) : Nat := 500 + 5 * d.bgv.vcore

/-- The setpoint of RDSYS VCORE_MV in millivolts. -/
def setpointMv (d : Dev) : Nat := 500 + 5 * d.bgv.setpoint

/-! ### Pace (R351–R353) -/

/-- P(V) in hundredths and k(V) in hundredths of a % per °C at the rows of R351's table, 0.50 V to 0.85 V by 0.05 V. -/
def paceRows : List (Int × Int) :=
  [(25, 20), (40, 15), (55, 8), (70, 0), (85, -5), (100, -10), (110, -12), (118, -14)]

/-- A column of the table at mv millivolts, interpolated linearly between two rows, 50 times as large. -/
def paceColumn (f : Int × Int → Int) (mv : Nat) : Int :=
  let i := min 6 ((mv - 500) / 50)
  let r : Int := ((mv - 500 - 50 * i : Nat) : Int)
  let y (k : Nat) : Int := f (paceRows.getD k (0, 0))
  (50 - r) * y i + r * y (i + 1)

/-- The typical pace of a unit at mv millivolts and a junction temperature in 1/16 °C, in 1/1,024: P(V) × (1 + k(V) ×
(T − 60) / 100), rounded down (R351). -/
def typicalPace (mv : Nat) (t16 : Int) : Int :=
  let p := paceColumn (·.1) mv
  let k := paceColumn (·.2) mv
  1024 * p * (50 * 100 * 100 * 16 + k * (t16 - 960)) / (50 * 100 * (50 * 100 * 100 * 16))

/-- The count of a unit's pace counter advances, modulo 2^64 (R353). -/
def advancePace (u n : Nat) (d : Dev) : Dev :=
  let cs := d.bgv.paceCnt ++ List.replicate (u + 1 - d.bgv.paceCnt.length) 0
  { d with bgv := { d.bgv with paceCnt := cs.set u ((cs.getD u 0 + n) % 2 ^ 64) } }

/-- The pace counter of an engine as RDSYS PACE reads it: it has advanced by a free amount (R353; log 4). -/
def readPace (u : Nat) (d : Dev) : Word × Dev :=
  let d1 := advancePace u (takeFree d).1.toNat (takeFree d).2
  (BitVec.ofNat 64 (d1.bgv.paceCnt.getD u 0), d1)

/-- Energy of num / den units of pj picojoules each, without V². -/
def energyFlat (pj num den : Nat) : Nat := pj * num * 256 / (den * 1000000)

/-- Energy of num / den units of pj picojoules each at 0.75 V, scaled by (VCORE / 0.75)² (R362). -/
def energyV2 (d : Dev) (pj num den : Nat) : Nat :=
  pj * num * 256 * vcoreMv d * vcoreMv d / (den * 1000000 * 562500)

/-- What a DIR, EVR, XPORT or TIMER post costs: 0.05 µJ (R362). -/
def postCost (d : Dev) : Nat := energyV2 d 50000 1 1

/-- A class. -/
def wcOf (d : Dev) (c : Nat) : Wc := vget d.bgv.wc c (wcDefault 0)

/-- The remaining funding of a class: fund − debt − spend (R358). -/
def remaining (d : Dev) (c : Nat) : Int := (wcOf d c).fund - (wcOf d c).debt - (wcOf d c).spend

/-- Change one class. -/
def updWc (c : Nat) (f : Wc → Wc) (d : Dev) : Dev := { d with bgv := { d.bgv with wc := vupd d.bgv.wc c f } }

/-- Move up to `need` of funding from the classes listed to class c, in turn. -/
def drawFrom (c : Nat) : List Nat → Int → Dev → Dev
  | [], _, d => d
  | k :: ks, need, d =>
    let take := min need (max 0 (remaining d k))
    if take ≤ 0 then drawFrom c ks need d
    else drawFrom c ks (need - take)
      (updWc c (fun w => { w with fund := w.fund + take }) (updWc k (fun w => { w with fund := w.fund - take }) d))

/-- Move up to `need` of the spare to class c. -/
def drawSpare (c : Nat) (need : Int) (d : Dev) : Dev :=
  let take := min need (max 0 d.bgv.spare)
  if take ≤ 0 then d
  else updWc c (fun w => { w with fund := w.fund + take }) { d with bgv := { d.bgv with spare := d.bgv.spare - take } }

/-- Charge a class. WC0 and WC1 beyond their funding draw from the spare, then from WC15 down to WC2 (R359). -/
def charge (c units : Nat) (d : Dev) : Dev :=
  let d1 := updWc c (fun w => { w with spend := w.spend + units }) d
  if c < 2 then
    let d2 := drawSpare c (-(remaining d1 c)) d1
    drawFrom c ((List.range 14).map (fun i => 15 - i)) (-(remaining d2 c)) d2
  else d1

/-- Charge a class for a task of an affinity group, counted in the group's spend too (R371). -/
def chargeFor (c : Nat) (group : BitVec 16) (units : Nat) (d : Dev) : Dev :=
  let d1 := charge c units d
  let gs := tblUpd d1.mea.groups group.toNat { vat := group.toNat % 12 } (fun g => { g with spend := g.spend + units })
  if group = 0xFFFF then d1 else { d1 with mea := { d1.mea with groups := gs } }

/-- The fit test of R359. -/
def fits (d : Dev) (c est : Nat) : Bool := decide ((est : Int) ≤ remaining d c + d.bgv.spare)

/-- Charge an EST at dispatch: what the class's funding does not cover is drawn from the spare (R359, R363). -/
def chargeEst (c est : Nat) (d : Dev) : Dev :=
  charge c est (if c < 2 then d else drawSpare c ((est : Int) - max 0 (remaining d c)) d)

/-- Credit an EST back when the task ends, never raising remaining funding above funding (R363). -/
def creditEst (c est : Nat) (d : Dev) : Dev :=
  let w := wcOf d c
  let amount := min (est : Int) (max 0 (w.fund - remaining d c))
  updWc c (fun w => { w with spend := w.spend - amount }) d

end Sys2Proof.Machine
end

