-- ==== Sys2Proof/Machine/Budget.lean ====
section
/-! DEFINITION. Shared operations of the budget governor (11): the supply and thermal limits, the budget in force, the
scaling of funding, and the blower-fault budget. -/

namespace Sys2Proof.Machine

/-! ### The supply (R365) -/

/-- The J-AUX allowance in W. -/
def auxAllowance (pw : Power) : Nat := if !pw.aux12 then 0 else if pw.sense0 && pw.sense1 then 150 else 200

/-- The module budget the connectors allow, in W. -/
def supplyOf (pw : Power) : Nat := min 240 (66 + 10 + auxAllowance pw)

/-- BGV_SUPPLY for pins as they stand (R373). -/
def supplyReg (pw : Power) : Nat := b2n pw.sense0 + 2 * b2n pw.sense1 + 4 * b2n pw.aux12 + 256 * auxAllowance pw

/-! ### The budget in force (R356, R369, R370) -/

/-- The blower-fault budget as it acts, in W (R373). -/
def blowerBudgetW (d : Dev) : Nat := min 120 (max 40 d.bgv.blowerFaultW)

/-- The lowest ceiling of the thermal groups 0–4, in 1/100 W; INLET has none. -/
def groupCeilCw (d : Dev) : Nat :=
  ((List.range 5).map (fun g => (vget d.bgv.tg g (tgroupDefault g)).ceilCw)).foldl min 24000

/-- therm_w in W: the lowest ceiling, that of the blower-fault budget among them. -/
def thermOf (d : Dev) : Nat := min (groupCeilCw d) d.bgv.blowerCw / 100

/-- The cap as it acts: above the supply limit it acts as the supply limit (R364). -/
def actingCap (supply cap : Nat) : Nat := min cap supply

/-- BGV_BUDGET for the limits in force: min(cap_w, supply_w, therm_w) and which limit it is. -/
def setBudget (d : Dev) : Dev :=
  let b := d.bgv
  let therm := thermOf d
  let cap := actingCap b.supplyW b.capInForce
  let eff := min cap (min b.supplyW therm)
  let lim := if b.capInForce ≤ b.supplyW && cap ≤ therm then 0
    else if b.supplyW ≤ therm then 1
    else if b.blowerFault && b.blowerCw ≤ groupCeilCw d then 3 else 2
  { d with bgv := { b with thermW := therm, effectiveW := eff, limiter := lim } }

/-- Scale what is left of a class's funding by num / den. -/
def Wc.scale (num den : Nat) (w : Wc) : Wc :=
  let left := w.fund - w.debt - w.spend
  if left ≤ 0 then w else { w with fund := w.fund - left + left * num / den }

/-- Scale the remaining funding of WC2–WC15 and the spare (R364). -/
def scaleFunding (num den : Nat) (d : Dev) : Dev :=
  if den = 0 then d
  else
    let d1 := (List.range 14).foldl (fun d i => updWc (i + 2) (Wc.scale num den) d) d
    { d1 with bgv := { d1.bgv with spare := d1.bgv.spare * num / den } }

/-- A limit on the budget has fallen within the window: remaining funding is scaled by new / old. -/
def scaleTo (old : Nat) (d : Dev) : Dev := if d.bgv.effectiveW < old then scaleFunding d.bgv.effectiveW old d else d

/-- The supply the pins indicate takes effect; a change is reported (R365). -/
def takeSupply (env : Env) (d : Dev) : Dev :=
  let w := supplyOf env.pw
  let changed := d.bgv.supplyW ≠ 0 && d.bgv.senseReg ≠ BitVec.ofNat 3 (supplyReg env.pw)
  let d1 := { d with bgv := { d.bgv with supplyW := w, auxW := auxAllowance env.pw,
                                         senseReg := BitVec.ofNat 3 (supplyReg env.pw) } }
  if !changed then d1
  else event env 0x0604 2 clsPower 0 (supplyReg env.pw) w 0
    (if w = d.bgv.supplyW then d1 else setCause env 6 4 d1)

/-- 12 V on J-AUX is lost: the limit falls within the current window (R20, R365). -/
def supplyLost (env : Env) (d : Dev) : Dev := scaleTo d.bgv.effectiveW (setBudget (takeSupply env d))

/-! ### The blower-fault budget (R31, R370) -/

/-- The blower-fault budget applies from now on: therm_w falls at once, energy granted to WC2–WC15 is withdrawn for work
not yet started, and the event is written. -/
def applyBlowerBudget (env : Env) (d : Dev) : Dev :=
  let d1 := setBudget { d with bgv := { d.bgv with blowerFault := true, blowerCw := 100 * blowerBudgetW d } }
  let d2 := scaleFunding 0 1 d1
  event env 0x0606 5 clsPower 0 d2.bgv.thermW 0 0 (setCause env 6 0x10 d2)

end Sys2Proof.Machine
end

