-- ==== Sys2Proof/Machine/Crypto.lean ====
section
/-! DEFINITION. The block operation and the derivation the cipher cluster performs (12, R375, R381, R383): AES-256 as
FIPS 197 defines it, SHAKE256 and KMAC256 as FIPS 202 and NIST SP 800-185 define them, over byte lists. -/

namespace Sys2Proof.Machine

/-! ### AES-256 (R381) -/

/-- The S-box as one number, entry i in bits 8i + 7 : 8i. -/
def aesSbox : Nat :=
  0x16BB54B00F2D99416842E6BF0D89A18CDF2855CEE9871E9B948ED9691198F8E19E1DC186B95735610EF6034866B53E708A8BBD4B1F74DDE8C6B4A61C2E2578BA08AE7A65EAF4566CA94ED58D6D37C8E779E4959162ACD3C25C2406490A3A32E0DB0B5EDE14B8EE4688902A22DC4F816073195D643D7EA7C41744975FEC130CCDD2F3FF1021DAB6BCF5389D928F40A351A89F3C507F02F94585334D43FBAAEFD0CF584C4A39BECB6A5BB1FC20ED00D153842FE329B3D63B52A05A6E1B1A2C830975B227EBE28012079A059618C323C7041531D871F1E5A534CCF73F362693FDB7C072A49CAFA2D4ADF04759FA7DC982CA76ABD7FE2B670130C56F6BF27B777C63

/-- The inverse S-box. -/
def aesInvSbox : Nat :=
  0x7D0C2155631469E126D677BA7E042B17619953833CBBEBC8B0F52AAE4D3BE0A0EF9CC9939F7AE52D0D4AB519A97F51605FEC8027591012B131C7078833A8DD1FF45ACD78FEC0DB9A2079D2C64B3E56FC1BBE18AA0E62B76F89C5291D711AF1476EDF751CE837F9E28535ADE72274AC9673E6B4F0CECFF297EADC674F4111913A6B8A130103BDAFC1020F3FCA8F1E2CD00645B3B80558E4F70AD3BC8C00ABD890849D8DA75746155EDAB9EDFD5048706C92B6655DCC5CA4D41698688664F6F87225D18B6D49A25B76B224D92866A12E084EC3FA420B954CEE3D23C2A632947B54CBE9DEC444438E3487FF2F9B8239E37CFBD7F3819EA340BF38A53630D56A0952

/-- A byte through a substitution table. -/
def subByte (box : Nat) (b : Byte) : Byte := BitVec.ofNat 8 (box / 2 ^ (8 * b.toNat))

/-- Bytewise exclusive or; the longer list's tail is dropped. -/
def xorBytes (a b : List Byte) : List Byte := List.zipWith (· ^^^ ·) a b

/-- Multiplication by x in GF(2^8) modulo x^8 + x^4 + x^3 + x + 1. -/
def xtime (b : Byte) : Byte := (b <<< 1) ^^^ (if bitOf b 7 then 0x1B#8 else 0#8)

/-- Multiplication in GF(2^8) by a constant below 16. -/
def gmul (k : Nat) (b : Byte) : Byte :=
  (if k % 2 = 1 then b else 0) ^^^ (if k / 2 % 2 = 1 then xtime b else 0) ^^^
  (if k / 4 % 2 = 1 then xtime (xtime b) else 0) ^^^ (if k / 8 % 2 = 1 then xtime (xtime (xtime b)) else 0)

/-- Element of a byte list, zero outside it. -/
def byteAt (bs : List Byte) (i : Nat) : Byte := bs[i]?.getD 0

/-- One word of the key schedule: word i from the words before it, held oldest first. -/
def aesWord (w : List (List Byte)) (rcon : Byte) (i : Nat) : List Byte :=
  let prev := (w[i - 1]?).getD []
  let old := (w[i - 8]?).getD []
  let t := if i % 8 = 0 then
      xorBytes ((prev.drop 1 ++ prev.take 1).map (subByte aesSbox)) [rcon, 0, 0, 0]
    else if i % 8 = 4 then prev.map (subByte aesSbox) else prev
  xorBytes old t

/-- The key schedule from word i on, with n words left and the round constant in force. -/
def aesExpand : Nat → Nat → Byte → List (List Byte) → List (List Byte)
  | 0, _, _, w => w
  | n + 1, i, rcon, w => aesExpand n (i + 1) (if i % 8 = 0 then xtime rcon else rcon) (w ++ [aesWord w rcon i])

/-- The 15 round keys of a 32-byte key. -/
def aesKeys (key : List Byte) : List (List Byte) :=
  let w0 := (List.range 8).map (fun i => slice key (4 * i) 4)
  let all := (aesExpand 52 8 1 w0).flatten
  (List.range 15).map (fun r => slice all (16 * r) 16)

/-- Row shifts: byte r + 4c from column c + k·r. -/
def aesRows (k : Nat) (st : List Byte) : List Byte :=
  (List.range 16).map (fun i => byteAt st (i % 4 + 4 * ((i / 4 + k * (i % 4)) % 4)))

/-- Column mixing with the coefficients of one row. -/
def aesMix (a b c e : Nat) (st : List Byte) : List Byte :=
  (List.range 16).map (fun i =>
    let x (j : Nat) : Byte := byteAt st (i / 4 * 4 + (i + j) % 4)
    gmul a (x 0) ^^^ gmul b (x 1) ^^^ gmul c (x 2) ^^^ gmul e (x 3))

/-- The rounds of encryption after the first key addition. -/
def aesRounds : List (List Byte) → List Byte → List Byte
  | [], st => st
  | [k], st => xorBytes (aesRows 1 (st.map (subByte aesSbox))) k
  | k :: ks, st => aesRounds ks (xorBytes (aesMix 2 3 1 1 (aesRows 1 (st.map (subByte aesSbox)))) k)

/-- AES-256 encryption of one 16-byte block. -/
def aesEnc (key blk : List Byte) : List Byte :=
  match aesKeys key with
  | [] => blk
  | k :: ks => aesRounds ks (xorBytes blk k)

/-- The rounds of decryption, keys last first. -/
def aesInvRounds : List (List Byte) → List Byte → List Byte
  | [], st => st
  | [k], st => xorBytes ((aesRows 3 st).map (subByte aesInvSbox)) k
  | k :: ks, st => aesInvRounds ks (aesMix 14 11 13 9 (xorBytes ((aesRows 3 st).map (subByte aesInvSbox)) k))

/-- AES-256 decryption of one 16-byte block. -/
def aesDec (key blk : List Byte) : List Byte :=
  match (aesKeys key).reverse with
  | [] => blk
  | k :: ks => aesInvRounds ks (xorBytes blk k)

/-- Every block of a byte string through a block operation. -/
def blocks (f : List Byte → List Byte) (bs : List Byte) : List Byte :=
  ((List.range (bs.length / 16)).map (fun i => f (slice bs (16 * i) 16))).flatten

/-! ### SHAKE256 and KMAC256 (R375) -/

/-- Rotation to the left. -/
def rol64 (x : Word) (n : Nat) : Word := (x <<< (n % 64)) ||| (x >>> (64 - n % 64))

/-- Rotation offsets of the lanes, lane x + 5y. -/
def keccakRot : List Nat := [0, 1, 62, 28, 27, 36, 44, 6, 55, 20, 3, 10, 43, 25, 39, 41, 45, 15, 21, 8, 18, 2, 61, 56, 14]

/-- Round constants. -/
def keccakRc : List Word :=
  [0x1, 0x8082, 0x800000000000808A, 0x8000000080008000, 0x808B, 0x80000001, 0x8000000080008081, 0x8000000000008009, 0x8A, 0x88, 0x80008009, 0x8000000A] ++
  [0x8000808B, 0x800000000000008B, 0x8000000000008089, 0x8000000000008003, 0x8000000000008002, 0x8000000000000080, 0x800A, 0x800000008000000A, 0x8000000080008081, 0x8000000000008080, 0x80000001, 0x8000000080008008]

/-- A lane of the state. -/
def kLane (a : List Word) (x y : Nat) : Word := (a[x % 5 + 5 * (y % 5)]?).getD 0

/-- The state with each lane given by its coordinates. -/
def kLanes (f : Nat → Nat → Word) : List Word := (List.range 25).map (fun i => f (i % 5) (i / 5))

/-- Theta. -/
def keccakTheta (a : List Word) : List Word :=
  let c := (List.range 5).map (fun x => kLane a x 0 ^^^ kLane a x 1 ^^^ kLane a x 2 ^^^ kLane a x 3 ^^^ kLane a x 4)
  let c' (x : Nat) : Word := c.getD (x % 5) 0
  kLanes (fun x y => kLane a x y ^^^ (c' (x + 4) ^^^ rol64 (c' (x + 1)) 1))

/-- Rho and pi: lane (x, y) of the result is lane (x + 3y, x) rotated. -/
def keccakRhoPi (a : List Word) : List Word :=
  kLanes (fun x y => rol64 (kLane a (x + 3 * y) x) ((keccakRot[(x + 3 * y) % 5 + 5 * x]?).getD 0))

/-- Chi and iota. -/
def keccakChi (rc : Word) (a : List Word) : List Word :=
  kLanes (fun x y => (kLane a x y ^^^ (~~~kLane a (x + 1) y &&& kLane a (x + 2) y)) ^^^ (if x = 0 && y = 0 then rc else 0))

/-- The permutation. -/
def keccakF (a : List Word) : List Word := keccakRc.foldl (fun a rc => keccakChi rc (keccakRhoPi (keccakTheta a))) a

/-- Absorb whole blocks of the rate, 136 bytes. -/
def keccakAbsorb : Nat → List Byte → List Word → List Word
  | 0, _, a => a
  | n + 1, bs, a =>
    if bs.isEmpty then a
    else keccakAbsorb n (bs.drop 136)
      (keccakF (kLanes (fun x y => kLane a x y ^^^
        (if x + 5 * y < 17 then BitVec.ofNat 64 (leAt bs (8 * (x + 5 * y)) 8) else 0))))

/-- The sponge with capacity 512 over bytes and a domain suffix byte; 32 bytes of output. -/
def sponge256 (suffix : Byte) (bs : List Byte) : List Byte :=
  let p := bs ++ [suffix]
  let z := p ++ List.replicate (roundUp p.length 136 - p.length) 0
  let last := (z.getLast?).getD 0 ||| 0x80#8
  let m := z.dropLast ++ [last]
  ((keccakAbsorb (m.length / 136) m (List.replicate 25 0)).take 4).flatMap (fun w => natLe 8 w.toNat)

/-- SHAKE256 with 256 bits of output. -/
def shake256 (bs : List Byte) : List Byte := sponge256 0x1F bs

/-- Bytes a number needs, at least one. -/
def bytesOf : Nat → Nat → Nat
  | 0, _ => 1
  | fuel + 1, n => if n < 256 then 1 else 1 + bytesOf fuel (n / 256)

/-- left_encode and right_encode of SP 800-185. -/
def leftEncode (n : Nat) : List Byte := BitVec.ofNat 8 (bytesOf 16 n) :: natBe (bytesOf 16 n) n
def rightEncode (n : Nat) : List Byte := natBe (bytesOf 16 n) n ++ [BitVec.ofNat 8 (bytesOf 16 n)]

/-- encode_string and bytepad of SP 800-185. -/
def encodeString (bs : List Byte) : List Byte := leftEncode (8 * bs.length) ++ bs
def bytepad (bs : List Byte) : List Byte :=
  let x := leftEncode 136 ++ bs
  x ++ List.replicate (roundUp x.length 136 - x.length) 0

/-- "KMAC". -/
def kmacName : List Byte := [0x4B, 0x4D, 0x41, 0x43]
/-- "AKV-KDF" (R375). -/
def kdfName : List Byte := [0x41, 0x4B, 0x56, 0x2D, 0x4B, 0x44, 0x46]

/-- KMAC256(key, data, bits, custom) for at most 256 bits of output: its first bytes are the result. -/
def kmac (key data : List Byte) (bits : Nat) (custom : List Byte) : List Byte :=
  sponge256 0x04 (bytepad (encodeString kmacName ++ encodeString custom) ++ bytepad (encodeString key) ++ data ++
    rightEncode bits)

/-! ### Keys (R375, R376) -/

/-- The 32-byte label. -/
def keyLabel (purpose ksid gen obj : Nat) : List Byte :=
  natLe 1 purpose ++ natLe 1 ksid ++ natLe 4 gen ++ natLe 8 obj ++ List.replicate 18 0

/-- A key derived from a root under a label. -/
def deriveKey (root label : List Byte) : List Byte := kmac root label 256 kdfName

/-- DRK as 32 bytes. -/
def drkBytes : List Byte := (List.range 32).map Config.drk

/-- The keyspace root of a salt and a credential. -/
def ksrOf (k : Nat) (salt cred : List Byte) : List Byte := deriveKey (drkBytes ++ salt ++ cred) (keyLabel 0 k 0 0)

/-- The data key of a keyspace at a generation (R376). -/
def dataKey (k gen : Nat) (ksr : List Byte) : List Byte := deriveKey ksr (keyLabel 1 k gen 0)

/-- The stored check value of a keyspace root. -/
def checkOf (k : Nat) (ksr : List Byte) : List Byte := (deriveKey ksr (keyLabel 2 k 0 0)).take 16

/-! ### Chunked encryption (R385): AES-GCM as NIST SP 800-38D defines it, with a 96-bit IV and no AAD -/

/-- A block as an element of GF(2^128): bit 0 of the field is the top bit of byte 0. -/
def gcmWord (blk : List Byte) : BitVec 128 := BitVec.ofNat 128 (beNat (slice blk 0 16))

/-- Multiplication in GF(2^128), n bits of x from bit i of the field on: z collects, v runs. -/
def gcmMulFrom (x : BitVec 128) : Nat → Nat → BitVec 128 → BitVec 128 → BitVec 128
  | 0, _, z, _ => z
  | n + 1, i, z, v =>
    gcmMulFrom x n (i + 1) (if bitOf x (127 - i) then z ^^^ v else z)
      (if bitOf v 0 then (v >>> 1) ^^^ 0xE1000000000000000000000000000000#128 else v >>> 1)

/-- Multiplication in GF(2^128). -/
def gcmMul (x y : BitVec 128) : BitVec 128 := gcmMulFrom x 128 0 0 y

/-- GHASH of a byte string cut in blocks of 16, the last filled with zeros, then of its length block. -/
def ghash (h : BitVec 128) (bs : List Byte) : BitVec 128 :=
  let n := (bs.length + 15) / 16
  let y := (List.range n).foldl (fun y i => gcmMul (y ^^^ gcmWord (slice bs (16 * i) 16)) h) 0
  gcmMul (y ^^^ BitVec.ofNat 128 (8 * bs.length)) h

/-- The counter block of data block j of a chunk; j = 0 gives J0. -/
def counterBlock (ver : W32) (chunk objId j : Nat) : List Byte :=
  natLe 4 ver.toNat ++ natLe 4 chunk ++ natLe 4 (objId % 2 ^ 32) ++ natBe 4 (j + 1)

/-- A chunk encrypted: ciphertext and tag. -/
def gcmChunk (key : List Byte) (ver : W32) (chunk objId : Nat) (bs : List Byte) : List Byte × List Byte :=
  let n := (bs.length + 15) / 16
  let ks := (List.range n).flatMap (fun j => aesEnc key (counterBlock ver chunk objId (j + 1)))
  let c := xorBytes bs ks
  let h := gcmWord (aesEnc key (List.replicate 16 0))
  (c, xorBytes (natBe 16 (ghash h c).toNat) (aesEnc key (counterBlock ver chunk objId 0)))

/-- The stored bytes of a committed piece encrypted in chunks of 64 KiB, n from chunk i on: ciphertext and the tags. -/
def gcmChunks (key : List Byte) (ver : W32) (objId : Nat) : Nat → Nat → List Byte → List Byte × List Byte
  | 0, _, _ => ([], [])
  | n + 1, i, bs =>
    let a := gcmChunk key ver i objId (bs.take 65536)
    let r := gcmChunks key ver objId n (i + 1) (bs.drop 65536)
    (a.1 ++ r.1, a.2 ++ r.2)

/-- A piece encrypted: ciphertext and its tags in order. -/
def encryptPiece (key : List Byte) (ver : W32) (objId : Nat) (bs : List Byte) : List Byte × List Byte :=
  gcmChunks key ver objId ((bs.length + 65535) / 65536) 0 bs

/-- Block operations that encrypting n bytes takes: its data blocks and a J0 for each chunk (R386). -/
def encryptOps (n : Nat) : Nat := (n + 15) / 16 + (n + 65535) / 65536

/-- CCL_LIMIT.LOG2 as it acts, as a count of blocks (R382, R391). -/
def usageLimit (d : Dev) : Nat := 2 ^ min 32 (max 20 (fld d.ccl.limit 0 6))

end Sys2Proof.Machine
end

