-- ==== Sys2Proof/Machine/HostOps.lean ====
section
/-! DEFINITION. Shared operations of the host queue engine (04): completion entries, coalesced interrupts, failed
pairs, and writing to host memory through a value buffer's segments. -/

namespace Sys2Proof.Machine

/-- Host access failure codes (R515). -/
def errCode (e : HostErr) : Byte :=
  match e with
  | .ur => 0x01
  | .ca => 0x04
  | .poisoned => 0x10
  | .timeout => 0x11

/-- What a fetch of inbound data gives: the bytes, a failure with its code, or nothing yet while Bus Master Enable is held
clear or a chain stream is incomplete. -/
inductive Got where
  | data (bs : List Byte)
  | fail (code : Byte)
  | wait
  deriving DecidableEq, Repr

/-- A request to host memory that may go out now brings this. -/
def rdGot (r : Rd) : Got := match r with | .ok bs => .data bs | .fail e => .fail (errCode e)

/-- A read of host memory under Bus Master Enable: what it brings, nothing while the 1 s hold runs, a failure with
code 0x12 after it (R122, R515). The bit clear with no hold running, because it was never set since enabling or was
cleared while ENABLE read 0, is treated as a hold that has expired; the manual speaks only of its being cleared while
enabled (DESIGN CHOICE, log 115). In D3hot a request waits for D0 (log 87). -/
def hostRead (d : Dev) (r : Rd) : Got :=
  if d.hqe.issues then rdGot r else if d.hqe.bmeHold.isSome || d.hqe.busMaster then .wait else .fail 0x12

/-- Field of a 64-byte capsule (R109): `n` bytes from offset `off`. -/
def cap (c : V512) (off n : Nat) : Nat := fld c (8 * off) (8 * n)

/-- OPC, FLAGS, CID, KSID, KLEN, VALUE_PTR, VALUE_LEN and OFFSET of a capsule (R109). -/
def capOpc (c : V512) : Nat := cap c 0 1
def capFlags (c : V512) : Nat := cap c 1 1
def capCid (c : V512) : Nat := cap c 2 2
def capKsid (c : V512) : Nat := cap c 4 1
def capKlen (c : V512) : Nat := cap c 5 1
def capOpts (c : V512) : Nat := cap c 6 2
def capPtr (c : V512) : Nat := cap c 8 8
def capLen (c : V512) : Nat := cap c 16 8
def capOff (c : V512) : Nat := cap c 24 8
def capOrdered (c : V512) : Bool := bitOf c 8
def capDurable (c : V512) : Bool := bitOf c 9
def capInline (c : V512) : Bool := bitOf c 10
def capSgl (c : V512) : Bool := bitOf c 11
def capGroup (c : V512) : Bool := bitOf c 12
def capPrio (c : V512) : Nat := fld c 13 3

/-- The 64 bytes of a capsule or descriptor. -/
def v512Bytes (c : V512) : List Byte := natLe 64 c.toNat

/-- A 64-byte structure from its bytes (R8). -/
def bytesV512 (bs : List Byte) : V512 := BitVec.ofNat 512 (leNat bs)

/-- A queue pair, when it exists. -/
def pairOf (d : Dev) (q : Nat) : Option Pair := tblGet d.hqe.pairs q

/-- DEV_CTRL.ENABLE reads 1: the controller is enabled, or a write of 1 is held until ACTIVE (R453, log 85). -/
def Hqe.enabled (h : Hqe) : Bool := h.enable || h.enableHeld

/-- Change a queue pair that exists. -/
def updPair (q : Nat) (f : Pair → Pair) (d : Dev) : Dev :=
  match tblGet d.hqe.pairs q with
  | some p => { d with hqe := { d.hqe with pairs := tblSet d.hqe.pairs q (f p) } }
  | none => d

/-- Cause bits of block 0x01 (R128). -/
abbrev hqeCause (env : Env) (bits : W32) (d : Dev) : Dev := setCause env 1 bits d

/-- The Uncorrectable Error Status bit a failed request sets, as the PCI Express Base Specification has it: Poisoned TLP Received
(12) and Completion Timeout (14). A completion with UR or CA status is the completer's error and sets none (R96; log 87). -/
def aerBit (code : Byte) : W32 := if code = 0x10 then w32 (2 ^ 12) else if code = 0x11 then w32 (2 ^ 14) else 0

/-- AER records a failed request. -/
def noteAer (code : Byte) (d : Dev) : Dev :=
  { d with hqe := { d.hqe with aer := { d.hqe.aer with uncorrStatus := d.hqe.aer.uncorrStatus ||| aerBit code } } }

/-- A queue pair enters FAILED (R122, R123): reason 1 submission fetch, 2 completion write. -/
def failPair (env : Env) (q reason : Nat) (code : Byte) (d : Dev) : Dev :=
  let d1 := noteAer code (updPair q (fun p => { p with failed := true }) d)
  let h := d1.hqe
  let d2 := { d1 with hqe := { h with qfailQid := BitVec.ofNat 16 q, qfailReason := reason, qfailValid := true,
                                      dmaErrors := sat32 (h.dmaErrors + 1) } }
  event env (if reason = 1 then 0x0104 else 0x0105) 4 clsProtocol 0 q code.toNat 0 (hqeCause env 1 d2)

/-- A value, key or scatter list access failed (R122). -/
def dataDmaFail (env : Env) (q cid : Nat) (code : Byte) (d : Dev) : Dev :=
  let d1 := noteAer code { d with hqe := { d.hqe with dmaErrors := sat32 (d.hqe.dmaErrors + 1) } }
  event env 0x0106 3 clsProtocol 0 (q + cid * 65536) code.toNat 0 (hqeCause env 4 d1)

/-- Signal the vector of a pair for the completions counted since its last signal (R118). -/
def signalPair (q : Nat) (d : Dev) : Dev :=
  match pairOf d q with
  | none => d
  | some p =>
    let d1 := updPair q (fun p => { p with aggN := 0, aggFirst := none }) d
    if p.ien then sendMsi p.vector d1 else d1

/-- A channel of the couch. -/
def chanOf (d : Dev) (c : Nat) : Chan := vget d.cch.chans c {}

/-- Tags of the endpoint (R96). -/
abbrev pcieTags : Nat := 768

/-- Tags that reads of the channels hold: those outstanding and those kept in records (R96, R340, R341). -/
def chanTags (d : Dev) : List Nat :=
  d.cch.chans.toList.flatMap (fun ch => (ch.reads.filter (fun r => r.data.isNone)).map (·.tag) ++ ch.records.map (·.tag))

/-- How many tags are held: the channels', and those of reads of leased map pages (R96). -/
def tagsInUse (d : Dev) : Nat := (chanTags d).length + d.hqe.lease.reads.length

/-- A tag no channel holds, the lowest; none once 768 reads are out (R96, R341). Which free tag a read takes the manual does not
say (DESIGN CHOICE, log 155). -/
def freePcieTag (d : Dev) : Option Nat :=
  let held := chanTags d
  if pcieTags ≤ tagsInUse d then none else (List.range pcieTags).find? (fun t => !held.contains t)

/-- The 16 bytes of a completion entry (R112). -/
def cqeBytes (result : Word) (sqHead cid : Nat) (status : Byte) (phase deferred more : Bool) (sqid : Nat) : List Byte :=
  natLe 8 result.toNat ++ natLe 2 sqHead ++ natLe 2 cid ++
  [status, BitVec.ofNat 8 (b2n phase + 2 * b2n deferred + 4 * b2n more)] ++ natLe 2 sqid

/-- Write one completion entry and raise or count its interrupt (R112, R113, R118, R120). -/
def writeCqe (env : Env) (q cid : Nat) (status : Byte) (result : Word) (more : Bool) (d : Dev) : Dev :=
  match pairOf d q with
  | none => d
  | some p =>
    let bs := cqeBytes result p.head cid status p.phase p.deferred more q
    let d1 := { d with hqe := { d.hqe with hmem := memStore d.hqe.hmem (p.cqBase.toNat + 16 * p.cqTail) bs } }
    let wrap := p.cqTail + 1 = p.size
    let n := p.aggN + 1
    let d2 := updPair q (fun p => { p with
      cqTail := if wrap then 0 else p.cqTail + 1, phase := if wrap then !p.phase else p.phase,
      deferred := false, outstanding := p.outstanding - 1, unreleased := p.unreleased + 1,
      aggN := n, aggFirst := some (p.aggFirst.getD env.tick) }) d1
    if status ≠ 0 || p.deferred || max 1 p.aggCount ≤ n then signalPair q d2 else d2

/-- Post a completion on a pair: discarded while the pair is FAILED, held while Bus Master Enable is clear and its
hold runs, failing once the hold has run out (R122, R515). -/
def postCqe (env : Env) (q cid : Nat) (status : Byte) (result : Word) (more : Bool) (d : Dev) : Dev :=
  match pairOf d q with
  | none => d
  | some p =>
    if p.failed then updPair q (fun p => { p with outstanding := p.outstanding - 1 }) d
    else if d.hqe.issues then writeCqe env q cid status result more d
    else if d.hqe.bmeHold.isSome || d.hqe.busMaster then
      { d with hqe := { d.hqe with heldCqes := d.hqe.heldCqes ++ [(q, cid, status, result, more)] } }
    else failPair env q 2 0x12 (updPair q (fun p => { p with outstanding := p.outstanding - 1 }) d)

/-- Host memory with bytes stored from logical offset `off` of a buffer made of segments (R110). -/
def storeSegs (m : Mem) : List (Nat × Nat) → Nat → List Byte → Mem
  | [], _, _ => m
  | (a, n) :: segs, off, bs =>
    if n ≤ off then storeSegs m segs (off - n) bs
    else storeSegs (memStore m (a + off) (bs.take (n - off))) segs 0 (bs.drop (n - off))

/-- The segments of the part of a buffer from `off` of length `len`. -/
def sliceSegs : List (Nat × Nat) → Nat → Nat → List (Nat × Nat)
  | [], _, _ => []
  | (a, n) :: segs, off, len =>
    if len = 0 then []
    else if n ≤ off then sliceSegs segs (off - n) len
    else
      let k := min len (n - off)
      (a + off, k) :: sliceSegs segs 0 (len - k)

/-- Bytes of a buffer's segments in all. -/
def segsLen (segs : List (Nat × Nat)) : Nat := (segs.map (·.2)).foldl (· + ·) 0

/-- Write bytes to host memory through segments. -/
def hostWrite (segs : List (Nat × Nat)) (off : Nat) (bs : List Byte) (d : Dev) : Dev :=
  { d with hqe := { d.hqe with hmem := storeSegs d.hqe.hmem segs off bs } }

/-- The scatter entries a list of bytes spells: address, length (R110). -/
def sglEntries : Nat → List Byte → List (Nat × Nat)
  | 0, _ => []
  | n + 1, bs => (leAt bs 0 8, leAt bs 8 4) :: sglEntries n (bs.drop 16)

end Sys2Proof.Machine
end

