-- ==== Sys2Proof/Machine/ActOps.lean ====
section
/-! DEFINITION. Shared operations of the chain: the drive's own frames (08, R267, R272) and the messages of chain
transport flows (09, R285–R298). -/

namespace Sys2Proof.Machine

/-- A chain port. -/
def portOf (d : Dev) (p : Nat) : Port := vget d.cpt.ports p {}

/-- Change a chain port. -/
def updPort (p : Nat) (f : Port → Port) (d : Dev) : Dev :=
  { d with cpt := { d.cpt with ports := vupd d.cpt.ports p f } }

/-- Count i of R283 on a port rises by one. -/
def portCount (p i : Nat) (d : Dev) : Dev := updPort p (fun x => { x with counts := vupd x.counts i (· + 1) }) d

/-- Count i of R308 rises by one. -/
def xptCount (i : Nat) (d : Dev) : Dev := { d with xpt := { d.xpt with counts := vupd d.xpt.counts i (· + 1) } }

/-- An address in transmission order; its first octet is bits 7:0 (R283). -/
def addrBytes (a : BitVec 48) : List Byte := natLe 6 a.toNat

/-- The address six transmitted octets spell. -/
def bytesAddr (bs : List Byte) : BitVec 48 := BitVec.ofNat 48 (leNat (bs.take 6))

/-- A frame of the drive's own, without its FCS: addresses, the tag TAG_MODE asks for, EtherType and payload,
padded to 60 bytes (R272). -/
def ownFrame (env : Env) (d : Dev) (port pcp : Nat) (dst : BitVec 48) (payload : List Byte) : EFrame :=
  let p := portOf d port
  let mode := fld p.pctrl 20 2
  let tag := if mode = 1 then natBe 2 0x8100 ++ natBe 2 (pcp * 8192)
    else if mode = 2 then natBe 2 0x8100 ++ natBe 2 (pcp * 8192 + fld p.pvid 0 12) else []
  let prio := if mode = 1 || mode = 2 then pcp else fld p.pctrl 16 3
  let body := addrBytes dst ++ addrBytes d.cpt.station ++ tag ++ natBe 2 d.cpt.actType.toNat ++ payload
  { bytes := body ++ List.replicate (60 - body.length) 0, from? := none, prio := prio, tick := env.tick }

/-- A partner violation's counter rises, and PARTNER_ERR is set (R282). -/
def partnerErr (env : Env) (port i : Nat) (d : Dev) : Dev := setCause env 2 0x80 (portCount port i d)

/-- Queue a frame for transmission: dropped and counted while the link is down, a removal runs or the priority is in
storm (R259, R263, R277). -/
def queueFrame (env : Env) (port : Nat) (f : EFrame) (d : Dev) : Dev :=
  let p := portOf d port
  if !p.link || d.cpt.op == .removing then partnerErr env port 17 d
  else if (vget p.storm f.prio none).isSome then partnerErr env port 16 d
  else updPort port (fun x => { x with egress := x.egress ++ [f] }) d

/-- A flow. -/
def flowOf (d : Dev) (id : Nat) : Option Flow := tblGet d.xpt.flows id

/-- Change a flow that is open. -/
def updFlow (id : Nat) (f : Flow → Flow) (d : Dev) : Dev :=
  match tblGet d.xpt.flows id with
  | some x => { d with xpt := { d.xpt with flows := tblSet d.xpt.flows id (f x) } }
  | none => d

/-- Message kinds (R287). -/
abbrev kOpen : Nat := 1
abbrev kOpenAck : Nat := 2
abbrev kClose : Nat := 3
abbrev kCloseAck : Nat := 4
abbrev kCmd : Nat := 5
abbrev kData : Nat := 6
abbrev kResp : Nat := 7
abbrev kAck : Nat := 8
abbrev kAttn : Nat := 9
abbrev kReset : Nat := 10
abbrev kProbe : Nat := 11

/-- The 32-byte header, big-endian (R285). -/
def actHeader (kind hflags dflow sflow seq ack window len cid doff : Nat) : List Byte :=
  natBe 1 1 ++ natBe 1 kind ++ natBe 2 hflags ++ natBe 2 dflow ++ natBe 2 sflow ++ natBe 4 seq ++
  natBe 4 ack ++ natBe 4 window ++ natBe 2 len ++ natBe 2 cid ++ natBe 8 doff

/-- SEQ s is before t (R294). -/
def seqBefore (s t : W32) : Bool := 1 ≤ (t - s).toNat && (t - s).toNat ≤ 2147483647

/-- SEQ of a message: of a kind that is not sequenced the manual leaves it open (R285, R287; log 4). -/
def seqField (kind seq : Nat) (d : Dev) : Nat × Dev :=
  if kind = kAck ∨ kind = kCloseAck ∨ kind = kReset then
    let f := takeFree d
    (fld f.1 0 32, f.2)
  else (seq, d)

/-- Transmit one message of an open flow; it carries ACK and WINDOW (R297). -/
def sendOnFlow (env : Env) (id : Nat) (fl : Flow) (kind seq cid doff : Nat) (last nak : Bool) (payload : List Byte)
    (d : Dev) : Dev :=
  let q := seqField kind seq d
  let hdr := actHeader kind (1 + 2 * b2n last + 4 * b2n nak) fl.sflow.toNat id q.1 fl.rxNext.toNat fl.rxWin.toNat
    payload.length cid doff
  queueFrame env fl.port (ownFrame env q.2 fl.port fl.pcp fl.client (hdr ++ payload)) (xptCount 1 q.2)

/-- A message carries the acknowledgement, so none is owed any more. -/
def ackSent (id : Nat) (d : Dev) : Dev := updFlow id (fun f => { f with ackPend := 0, ackSince := none }) d

/-- Retransmit timer length in ticks from its length in wheel steps (R278, R297). -/
def rtoTicks (steps : Nat) : Nat := 250 * steps

/-- XPT_CTRL fields as they act (R308). -/
def xptCredit (d : Dev) : Nat := max 1 (fld d.xpt.ctrl 0 8)
def xptRto (d : Dev) : Nat := max 1 (fld d.xpt.ctrl 8 8)
def xptRetryMax (d : Dev) : Nat := max 1 (fld d.xpt.ctrl 16 4)
def xptIdleS (d : Dev) : Nat := fld d.xpt.ctrl 24 8

/-- Send the queued sequenced messages the client's window admits, oldest first (R294). -/
def pumpList (env : Env) (id : Nat) : List Unacked → Dev → Dev
  | [], d => d
  | u :: us, d =>
    match flowOf d id with
    | none => d
    | some fl =>
      if seqBefore u.seq fl.txWin then
        let d1 := sendOnFlow env id fl u.kind.toNat u.seq.toNat u.cid.toNat u.doff.toNat u.last false u.payload d
        let d2 := updFlow id (fun f => { f with
          queue := us, unacked := f.unacked ++ [u], ackPend := 0, ackSince := none,
          rtoDue := some (f.rtoDue.getD (env.tick + rtoTicks f.rto)) }) d1
        pumpList env id us d2
      else d

/-- Send what the window of a flow admits. -/
def pump (env : Env) (id : Nat) (d : Dev) : Dev :=
  match flowOf d id with
  | some fl => pumpList env id fl.queue d
  | none => d

/-- Queue a sequenced message on a flow and send what the window admits; nothing once the flow has ended. -/
def sendSeq (env : Env) (id kind cid doff : Nat) (last : Bool) (payload : List Byte) (d : Dev) : Dev :=
  pump env id (updFlow id (fun f => { f with
    txNext := f.txNext + 1,
    queue := f.queue ++ [⟨f.txNext, BitVec.ofNat 8 kind, BitVec.ofNat 16 cid, BitVec.ofNat 64 doff, last, payload⟩] }) d)

/-- Send messages of a response, each under the flow's next SEQ. -/
def sendAll (env : Env) (id : Nat) (ms : List Unacked) (d : Dev) : Dev :=
  ms.foldl (fun d u => sendSeq env id u.kind.toNat u.cid.toNat u.doff.toNat u.last u.payload d) d

/-- The RESP just sent acknowledges a CONSUME read (R397). -/
def noteConsume (id : Nat) (x : Option (Nat × Nat)) (d : Dev) : Dev :=
  match x with
  | some c => updFlow id (fun f => { f with consume := f.consume ++ [(f.txNext - 1, c.1, c.2)] }) d
  | none => d

/-- A RESP that stood behind another response has gone: what a chain command waits for is its acknowledgement (R409). -/
def noteResp (env : Env) (id : Nat) (no : Option Nat) (d : Dev) : Dev :=
  match flowOf d id with
  | none => d
  | some fl =>
    let sent (c : ChainCmd) : ChainCmd :=
      if c.waits.isSome && c.waits == no then { c with waits := none, since := env.tick, resp := some (id, fl.txNext - 1) } else c
    { d with cpt := { d.cpt with cmds := d.cpt.cmds.map sent } }

/-- Responses that have waited go out in order, up to the first that has not ended (R300). -/
def flushOuts (env : Env) (id : Nat) : List Response → Dev → Dev
  | [], d => updFlow id (fun f => { f with outs := [] }) d
  | r :: rs, d =>
    let d1 := noteConsume id r.consume (sendAll env id r.msgs d)
    if r.done then flushOuts env id rs (noteResp env id r.no d1) else updFlow id (fun f => { f with outs := { r with msgs := [] } :: rs }) d1

/-- A message of the response a number names. -/
def Response.of (r : Response) (no : Option Nat) : Bool := no.isSome && r.no == no && !r.done

/-- Messages join their response behind the one that is going out. -/
def joinOuts (no : Option Nat) (ms : List Unacked) (done : Bool) : List Response → List Response
  | [] => [{ no := no, msgs := ms, done := done }]
  | r :: rs => if r.of no then { r with msgs := r.msgs ++ ms, done := done } :: rs else r :: joinOuts no ms done rs

/-- Messages of a response: the messages of one response leave the flow consecutively, so that those of another wait until
its RESP has gone (R300). Which of two responses begun goes first the manual does not say: the one begun first (DESIGN CHOICE,
log 153). -/
def respond (env : Env) (id : Nat) (no : Option Nat) (ms : List Unacked) (done : Bool) (d : Dev) : Dev :=
  match flowOf d id with
  | none => d
  | some fl =>
    match fl.outs with
    | [] =>
      if done then sendAll env id ms d else updFlow id (fun f => { f with outs := [{ no := no }] }) (sendAll env id ms d)
    | r :: rs =>
      if r.of no then if done then flushOuts env id rs (sendAll env id ms d) else sendAll env id ms d
      else updFlow id (fun f => { f with outs := r :: joinOuts no ms done rs }) d

/-- Cut bytes into messages of at most 8,192, DATA from offset `off` (R300). -/
def dataMsgs (cid : Nat) (last : Bool) : Nat → Nat → List Byte → List Unacked
  | 0, _, _ => []
  | n + 1, off, bs =>
    if bs.isEmpty then []
    else ⟨0, BitVec.ofNat 8 kData, BitVec.ofNat 16 cid, BitVec.ofNat 64 off, last && (bs.drop 8192).isEmpty, bs.take 8192⟩ ::
      dataMsgs cid last n (off + 8192) (bs.drop 8192)

/-- Send bytes of a response stream; `last` when they end it. -/
def sendData (env : Env) (id no cid off : Nat) (last : Bool) (bs : List Byte) (d : Dev) : Dev :=
  respond env id (some no) (dataMsgs cid last (bs.length / 8192 + 1) off bs) false d

/-- Grant credit to a flow: at least one message always, more from free buffers unless credit is withheld, up to
FLOW_CREDIT in all (R296, R306). -/
def grantCredit (id : Nat) (held : Bool) (d : Dev) : Dev :=
  match flowOf d id with
  | none => d
  | some fl =>
    let want := if held || d.xpt.creditHeld then 1 - fl.bufs else xptCredit d - fl.bufs
    let n := min want (max d.xpt.freeBuf (1 - fl.bufs))
    let d1 := updFlow id (fun f => { f with bufs := f.bufs + n, rxWin := f.rxWin + w32 n }) d
    { d1 with xpt := { d1.xpt with freeBuf := d1.xpt.freeBuf - n } }

/-- Messages of a flow have been consumed: their buffers are free (R296). -/
def consume (id n : Nat) (d : Dev) : Dev :=
  match flowOf d id with
  | none => d
  | some fl =>
    let k := min n fl.bufs
    let d1 := updFlow id (fun f => { f with bufs := f.bufs - k }) d
    { d1 with xpt := { d1.xpt with freeBuf := d1.xpt.freeBuf + k } }

/-- A command received on a flow and not completed. -/
def inboundOf (d : Dev) (id arr : Nat) : Option Inbound :=
  match flowOf d id with
  | none => none
  | some fl => fl.inbound.find? (fun x => x.no == arr)

/-- Change a command received on a flow. -/
def updInbound (id arr : Nat) (f : Inbound → Inbound) (d : Dev) : Dev :=
  updFlow id (fun fl => { fl with inbound := fl.inbound.map (fun y => if y.no == arr then f y else y) }) d

/-- Free the buffers a command's messages hold. -/
def dropInbound (id arr : Nat) (d : Dev) : Dev :=
  match inboundOf d id arr with
  | none => d
  | some x =>
    consume id x.held.length (updFlow id (fun f => { f with inbound := f.inbound.filter (fun y => y.no != arr) }) d)

/-- What is left of stretches after bytes from..to are consumed. -/
def cutStretches (a b : Nat) (l : List (Nat × Nat)) : List (Nat × Nat) :=
  (l.flatMap (fun x => [(x.1, min x.2 a), (max x.1 b, x.2)])).filter (fun x => x.1 < x.2)

/-- Bytes a..b of a command's stream are consumed while it goes on: the buffers of the messages wholly consumed are free and
new credit may be granted (R296, R301). -/
def consumeBytes (id arr a b : Nat) (held : Bool) (d : Dev) : Dev :=
  match inboundOf d id arr with
  | none => d
  | some x =>
    let left := (x.held.map (cutStretches a b)).filter (fun l => !l.isEmpty)
    grantCredit id held (consume id (x.held.length - left.length) (updInbound id arr (fun y => { y with held := left }) d))

/-- The drive takes what has come of a command's stream: a command it serves itself takes its bytes as they come, a vendor
opcode's program by RECV_DATA, so that at dispatch only messages without bytes of the stream are consumed (R296, R301; log
154). -/
def releaseInbound (id arr : Nat) (served : Bool) (held : Bool) (d : Dev) : Dev :=
  match inboundOf d id arr with
  | none => d
  | some x => consumeBytes id arr 0 (if served then x.bytes.length else 0) held d

/-- A bare ACK, with or without NAK (R295, R297). -/
def bareAck (env : Env) (id : Nat) (nak : Bool) (d : Dev) : Dev :=
  match flowOf d id with
  | none => d
  | some fl => ackSent id (sendOnFlow env id fl kAck 0 0 0 false nak [] d)

/-- Send the RESP of a command (R300). -/
def sendResp (env : Env) (id : Nat) (no : Option Nat) (cid : Nat) (status : Byte) (result : Word) (more : Bool) (d : Dev) : Dev :=
  respond env id no [⟨0, BitVec.ofNat 8 kResp, BitVec.ofNat 16 cid, 0, false, cqeBytes result 0 cid status false false more id⟩]
    true d

end Sys2Proof.Machine
end

