-- ==== Sys2Proof/Machine/Tasks.lean ====
section
/-! DEFINITION. Shared operations on tasks (02): contexts and their selection, posts, faults, the ways a command is
answered, and the release of a context. -/

namespace Sys2Proof.Machine

/-! ### Finding and changing tasks -/

/-- The task in a context. -/
def taskAt (d : Dev) (e c : Nat) : Option Task := d.mea.tasks.find? (fun t => t.eng == e && t.ctx == c)

/-- The task a reference names. -/
def taskOf (d : Dev) (r : TaskRef) : Option Task := taskAt d r.eng r.ctx

/-- The reference of a task. -/
def Task.ref (t : Task) : TaskRef := ⟨t.eng, t.ctx⟩

/-- Change the task in a context. -/
def updTask (e c : Nat) (f : Task → Task) (d : Dev) : Dev :=
  { d with mea := { d.mea with tasks := d.mea.tasks.map (fun t => if t.eng == e && t.ctx == c then f t else t) } }

/-- Store a task back into its context. -/
def putTask (t : Task) (d : Dev) : Dev := updTask t.eng t.ctx (fun _ => t) d

/-- The RUNNING task of an engine (R33). -/
def running (d : Dev) (e : Nat) : Option Task := d.mea.tasks.find? (fun t => t.eng == e && t.st == .running)

/-- A vendor task (R59). -/
def Task.vendor (t : Task) : Bool := t.program == 0

/-- The task id (R37). -/
def taskId (e c : Nat) : Nat := e + 128 * c

/-- The stamp for the next happening that is ordered, and the drive with it taken. -/
def nextStamp (d : Dev) : Nat × Dev := (d.mea.stamp, { d with mea := { d.mea with stamp := d.mea.stamp + 1 } })

/-! ### Selection (R33, R35, R362) -/

/-- The better of two READY tasks: higher priority, then longer READY (R35). -/
def better (a b : Task) : Bool := b.prio < a.prio || (a.prio == b.prio && a.readyAt ≤ b.readyAt)

/-- The READY task an engine runs next. -/
def nextReady (d : Dev) (e : Nat) : Option Task :=
  (d.mea.tasks.filter (fun t => t.eng == e && t.st == .ready)).foldl
    (fun acc t => match acc with
      | none => some t
      | some a => some (if better a t then a else t)) none

/-- An engine with no RUNNING task takes up the READY task of R35. -/
def schedule (env : Env) (e : Nat) (d : Dev) : Dev :=
  match running d e with
  | some _ => d
  | none =>
    match nextReady d e with
    | none => d
    | some t => updTask e t.ctx (fun t => { t with st := .running, runFrom := env.tick, instrs := 0 }) d

/-- Charge the instructions of a task that leaves RUNNING: 0.20 µJ for 1,000 (R362). -/
def chargeInstrs (t : Task) (d : Dev) : Dev := chargeFor t.wclass t.group (energyV2 d 200 t.instrs 1) d

/-- The task leaves RUNNING for another state; its engine selects again. -/
def leaveRunning (env : Env) (t : Task) (st : TaskSt) (d : Dev) : Dev :=
  schedule env t.eng (updTask t.eng t.ctx (fun t => { t with st := st, instrs := 0 }) (chargeInstrs t d))

/-- A WAITING task becomes READY behind those READY longer (R35). -/
def makeReady (env : Env) (e c : Nat) (d : Dev) : Dev :=
  let (n, d1) := nextStamp d
  schedule env e (updTask e c (fun t => { t with st := .ready, readyAt := n, wait := none }) d1)

/-- A natively served command waits for the drive: its context does not hold the engine. -/
def park (env : Env) (t : Task) (d : Dev) : Dev :=
  if t.st == .running then leaveRunning env t .waiting d
  else updTask t.eng t.ctx (fun t => { t with st := .waiting }) d

/-! ### Releasing a context (R52, R378) -/

/-- The owner a task is for the walker and the cipher cluster: engine, context and arrival (R224, R50), and the member of a
BATCH that runs. -/
def Task.owner (t : Task) : Owner := ⟨t.eng, t.ctx, t.arrNo, t.mem⟩

/-- An owner is a task or one of its members. -/
def Task.owns (t : Task) (o : Owner) : Bool := o.eng == t.eng && o.ctx == t.ctx && o.arrNo == t.arrNo

/-- A slot without one owner's lock, waiting requests and reservation. -/
def Slot.release (o : Owner) (s : Slot) : Slot :=
  { s with lock := if s.lock == some o then none else s.lock,
           waiters := s.waiters.filter (fun w => w.owner != o),
           reservation := if s.reservation == some o then none else s.reservation }

/-- Home bucket of a hash (R221). -/
def homeBucket (h : Word) : Nat := fld h 37 27

/-- Slots from the first of the home bucket to a slot, in the order of the probe. -/
def probeSlots (h : Word) (slot : Nat) : Nat := (slot + 2 ^ 30 - 8 * homeBucket h) % 2 ^ 30

/-- Nobody holds, waits for or reserves the slot. -/
def Slot.idle (s : Slot) : Bool := s.lock.isNone && s.waiters.isEmpty && s.reservation.isNone

/-- Among the n slots from the i-th after a freed one on, up to an EMPTY one: the first entry whose probe passes the freed
slot. An entry somebody has locked or waits for keeps its number, which that task holds (R221, R226; DESIGN CHOICE, log
121). -/
def shiftFrom (t : Tbl Slot) (free : Nat) : Nat → Nat → Option (Nat × Slot)
  | 0, _ => none
  | n + 1, i =>
    let m := (free + i) % 2 ^ 30
    match tblGet t m with
    | none => none
    | some s => if s.idle && decide (probeSlots s.hash free < probeSlots s.hash m) then some (m, s) else shiftFrom t free n (i + 1)

/-- Later entries of the sequence shift back into a freed slot, so that no mark of it remains; answers the directory and
the moves made (R221). -/
def shiftBack : Nat → Nat → Tbl Slot → Tbl Slot × List (Nat × Nat)
  | 0, _, t => (t, [])
  | n + 1, free, t =>
    match shiftFrom t free 512 1 with
    | none => (t, [])
    | some (m, s) =>
      let r := shiftBack n m (tblSet (tblErase t m) free s)
      (r.1, (m, free) :: r.2)

/-- The slot number an entry has after the moves, in order. -/
def movedSlot (mv : List (Nat × Nat)) (n : Nat) : Nat := mv.foldl (fun n x => if x.1 = n then x.2 else n) n

/-- The directory after moves, with what names its slots. -/
def moveSlots (r : Tbl Slot × List (Nat × Nat)) (d : Dev) : Dev :=
  { d with kdr := { d.kdr with slots := r.1 },
           flt := { d.flt with held := d.flt.held.map (fun h => { h with slot := movedSlot r.2 h.slot }) },
           trl := { d.trl with staged := d.trl.staged.map (fun x => { x with slot := movedSlot r.2 x.slot }) } }

/-- A slot becomes EMPTY (R221). -/
def eraseSlot (n : Nat) (d : Dev) : Dev := moveSlots (shiftBack d.kdr.slots.length n (tblErase d.kdr.slots n)) d

/-- The first EMPTY slot among n slots of a key's probe sequence from the i-th on. -/
def emptyBefore (t : Tbl Slot) (h : Word) : Nat → Nat → Option Nat
  | 0, _ => none
  | n + 1, i =>
    let slot := (8 * homeBucket h + i) % 2 ^ 30
    match tblGet t slot with
    | none => some slot
    | some _ => emptyBefore t h n (i + 1)

/-- Entries that stood fast when a slot before them in their sequence became EMPTY shift back once nobody holds or waits for them
(R221; log 121). -/
def shiftLate : Nat → Tbl Slot → Tbl Slot × List (Nat × Nat)
  | 0, t => (t, [])
  | n + 1, t =>
    match t.findSome? (fun x => if x.2.idle then
        (emptyBefore t x.2.hash (probeSlots x.2.hash x.1) 0).map (fun f => (x.1, f, x.2)) else none) with
    | none => (t, [])
    | some (m, f, s) =>
      let r := shiftLate n (tblSet (tblErase t m) f s)
      (r.1, (m, f) :: r.2)

/-- Slots of a kind become EMPTY, n at most. -/
def eraseSlots (p : Slot → Bool) : Nat → Dev → Dev
  | 0, d => d
  | n + 1, d =>
    match d.kdr.slots.find? (fun x => p x.2) with
    | some x => eraseSlots p n (eraseSlot x.1 d)
    | none => d

/-- A PENDING slot nobody holds or waits for returns to EMPTY (R224), and no entry lies past an EMPTY slot that it could take
(R221). -/
def pruneSlots (d : Dev) : Dev :=
  let d1 := eraseSlots (fun s => !s.live && s.idle) d.kdr.slots.length d
  moveSlots (shiftLate d1.kdr.slots.length d1.kdr.slots) d1

/-- Release every slot lock of a task, and what it waits for. -/
def releaseSlots (o : Owner) (d : Dev) : Dev :=
  pruneSlots { d with kdr := { d.kdr with slots := d.kdr.slots.map (fun x => (x.1, x.2.release o)) } }

/-- Release what a task and its members hold and wait for. -/
def releaseAll (t : Task) (d : Dev) : Dev :=
  (List.range t.members.length).foldl (fun d i => releaseSlots { t.owner with mem := some i } d) (releaseSlots t.owner d)

/-- FE offset of a sealed slot (R383). -/
def sealedBase (s : Nat) : Nat := 0xB000000 + s * 0x10000

/-- Zero and free sealed slots (R383). -/
def freeSealed (ss : List Nat) (d : Dev) : Dev :=
  let c := d.ccl
  { d with
    ccl := { c with sealed := c.sealed.filter (fun x => !ss.contains x.1), alarmSealed := c.alarmSealed.filter (fun x => !ss.contains x.1) }
    mea := { d.mea with fe := ss.foldl (fun m s => memZero m (sealedBase s) 0x10000) d.mea.fe } }

/-- The sealed slots a task owns, or owned until an alarm zeroed them. -/
def sealedOf (o : Owner) (d : Dev) : List Nat :=
  (d.ccl.sealed.filter (fun x => x.2.owner == o)).map (·.1) ++
  (d.ccl.alarmSealed.filter (fun x => x.2 == o && (tblGet d.ccl.sealed x.1).isNone)).map (·.1)

/-- A task serves a command on keyspace k, or a BATCH one of whose members is on it (R378). -/
def usesKs (k : Nat) (t : Task) : Bool :=
  let o := capOpc t.capsule
  t.kind != .hook && ((1 ≤ o && o ≤ 0x0D && o != 0x0B && capKsid t.capsule == k) ||
    t.members.any (fun m => m.verdict.isNone && capKsid m.capsule == k))

/-- The key slots of a keyspace and its root are zeroed (R378). -/
def zeroKeys (k : Nat) (d : Dev) : Dev :=
  { d with ccl := { d.ccl with keys := d.ccl.keys.filter (fun x => x.2.ksid.toNat != k) },
           kdr := { d.kdr with ks := tblUpd d.kdr.ks k {} (fun s => { s with ksr := [] }) } }

/-- Keys of locked keyspaces are zeroed once no task of theirs remains (R378). -/
def settleLocks (d : Dev) : Dev :=
  (d.kdr.ks.filter (fun x => x.2.locked && !x.2.ksr.isEmpty && !d.mea.tasks.any (usesKs x.1))).foldl
    (fun d x => zeroKeys x.1 d) d

/-- Append a journal record (R232); its sequence is the next one. -/
def addJournal (typ : JType) (a b c : Nat) (d : Dev) : Dev :=
  { d with trl := { d.trl with journal := d.trl.journal ++ [⟨typ, d.trl.jNext, a, b, c⟩], jNext := d.trl.jNext + 1 } }

/-- A keyspace is being deleted and no dispatched command of it is left: its slots, each with its record in the
journal, its keys and its held writes go (R232, R403). -/
def reclaimKs (k : Nat) (d : Dev) : Dev :=
  let d1 := zeroKeys k d
  let mine := d1.kdr.slots.filter (fun x => x.2.ksid.toNat == k && x.2.live)
  let d2 := eraseSlots (fun s => s.ksid.toNat == k) d1.kdr.slots.length
    (mine.foldl (fun d x => addJournal .remove x.1 x.2.version.toNat 0 d) d1)
  { d2 with kdr := { d2.kdr with ks := tblUpd d2.kdr.ks k {} (fun s => { s with deleting := false }) },
            flt := { d2.flt with held := d2.flt.held.filter (fun h => h.ksid.toNat != k) } }

/-- The next deleted keyspace whose last dispatched command has ended: it may be reclaimed (R403). -/
def reclaimNext (d : Dev) : Option Nat :=
  (d.kdr.ks.find? (fun x => x.2.deleting && !d.mea.tasks.any (usesKs x.1))).map (·.1)

/-- The context becomes FREE: slot locks and sealed slots of the task are released (R52, R378, R383). -/
def freeCtx (t : Task) (d : Dev) : Dev :=
  let d1 := freeSealed (sealedOf t.owner d) (releaseAll t d)
  let d2 := { d1 with mea := { d1.mea with tasks := d1.mea.tasks.filter (fun x => !(x.eng == t.eng && x.ctx == t.ctx)) } }
  settleLocks { d2 with flt := { d2.flt with waits := d2.flt.waits.filter (fun w => w.task != t.ref) } }

/-! ### Answering a command (R54) -/

/-- What an answer needs of a command: from its task, or from its arrival where it has none. -/
structure Who where
  kind : Kind
  source : BitVec 16
  cid : Nat
  hostGen : Nat
  parent : Option PostRef
  arrNo : Nat
  group : BitVec 16

/-- A task's command. -/
def Task.who (t : Task) : Who := ⟨t.kind, t.source, capCid t.capsule, t.hostGen, t.parent, t.arrNo, t.group⟩

/-- An arrival's command. -/
def Arrival.who (a : Arrival) : Who := ⟨a.kind, a.source, capCid a.capsule, a.hostGen, a.parent, a.no, a.group⟩

/-- A unit has finished a post: its completion waits to be routed (R50). -/
def finishPost (p : PostRef) (status : Byte) (result : Word) (d : Dev) : Dev :=
  updTask p.eng p.ctx (fun t => { t with posts := t.posts.map (fun x =>
    if x.tag == p.tag then { x with st := .finished, compl := ⟨status, result⟩ } else x) }) d

/-- Fetching and new credit are held for a group with 1,024 waiting arrivals until 768 (R47). -/
def throttledGroup (d : Dev) (g : Nat) : Bool := d.mea.throttled.contains g

/-- A command's completion: a completion entry, an ACT response or a unit completion to the parent (R54, R56). During a device
reset a dispatched command gets no response, one abandoned undispatched its SC_ABORTED_RESET (R305, R455). -/
def answer (env : Env) (w : Who) (status : Byte) (result : Word) (more : Bool) (d : Dev) : Dev :=
  match w.kind with
  | .host => if w.hostGen = d.hqe.hostGen then postCqe env w.source.toNat w.cid status result more d else d
  | .act =>
    let id := w.source.toNat
    if (inboundOf d id w.arrNo).isSome then
      let d1 := grantCredit id (throttledGroup d w.group.toNat) (dropInbound id w.arrNo d)
      if env.pw.resetStep.isSome && status != 0x07 then d1 else sendResp env id (some w.arrNo) w.cid status result more d1
    else d
  | .loop =>
    match w.parent with
    | some p =>
      match taskAt d p.eng p.ctx with
      | some t => finishPost p status result (chargeFor t.wclass t.group (postCost d) d)
      | none => d
    | none => d
  | _ => d

/-! ### Hooks (R62, R63, R302) -/

/-- RESULT of SC_PROGRAM_FAULT: fault code and PROGRAM_ID (R65). -/
def faultResult (code : Byte) (program : BitVec 16) : Word :=
  BitVec.ofNat 64 (code.toNat + program.toNat * 2 ^ 32)

/-- Status codes (R174). -/
abbrev scOk : Byte := 0x00
abbrev scInvalidOpcode : Byte := 0x01
abbrev scInvalidField : Byte := 0x02
abbrev scNotFound : Byte := 0x03
abbrev scExists : Byte := 0x04
abbrev scFull : Byte := 0x05
abbrev scMediaWorn : Byte := 0x06
abbrev scAbortedReset : Byte := 0x07
abbrev scAbortedHost : Byte := 0x08
abbrev scVersionMismatch : Byte := 0x09
abbrev scTooLarge : Byte := 0x0A
abbrev scUnrecoveredRead : Byte := 0x0B
abbrev scAuthFail : Byte := 0x0C
abbrev scPrivilege : Byte := 0x0D
abbrev scKeyspaceLocked : Byte := 0x0E
abbrev scRedirect : Byte := 0x0F
abbrev scTimeout : Byte := 0x10
abbrev scProgramFault : Byte := 0x11
abbrev scBusyActivation : Byte := 0x12
abbrev scBoundViolation : Byte := 0x13
abbrev scImageRejected : Byte := 0x14
abbrev scChainDown : Byte := 0x15

/-- Waiting arrivals of a group. -/
def waitingOf (d : Dev) (g : BitVec 16) : Nat := (d.mea.arrivals.filter (fun a => a.group == g)).length

/-- The held state of a group's fetching after its waiting count has changed (R47). -/
def throttle (g : BitVec 16) (d : Dev) : Dev :=
  let n := waitingOf d g
  let th := d.mea.throttled
  let th' := if 1024 ≤ n && !th.contains g.toNat then th ++ [g.toNat]
    else if n ≤ 768 then th.filter (· != g.toNat) else th
  { d with mea := { d.mea with throttled := th' } }

/-- Remove an arrival from those waiting: its group's count falls (R47). -/
def dropArrival (a : Arrival) (d : Dev) : Dev :=
  throttle a.group { d with mea := { d.mea with arrivals := d.mea.arrivals.filter (fun x => x.no != a.no) } }

/-- An arrival leaves the queue answered, without a task. -/
def answerArrival (env : Env) (a : Arrival) (status : Byte) (result : Word) (d : Dev) : Dev :=
  answer env a.who status result false (dropArrival a d)

/-- Change an arrival. -/
def updArrival (no : Nat) (f : Arrival → Arrival) (d : Dev) : Dev :=
  { d with mea := { d.mea with arrivals := d.mea.arrivals.map (fun a => if a.no == no then f a else a) } }

/-- A PLACEMENT RESULT redirects: nonzero, and its address is not zero, the drive's own or a group (R302). -/
def redirects (d : Dev) (result : Word) : Bool :=
  let a : BitVec 48 := result.setWidth 48
  result != 0 && a != 0 && a != d.cpt.station && !bitOf a 0

/-- Change member i of a BATCH. -/
def updMember (eng ctx i : Nat) (f : Member → Member) (d : Dev) : Dev :=
  updTask eng ctx (fun t => { t with members := t.members.mapIdx (fun j m => if j = i then f m else m) }) d

/-- The output of a member's hook: a redirect or a rejection is the member's own outcome (R141, R519). -/
def memberHook (no i : Nat) (t : Task) (faulted : Option Byte) (status : Byte) (result : Word) (d : Dev) : Dev :=
  match d.mea.tasks.find? (fun x => x.arrNo == no && x.kind != .hook) with
  | none => d
  | some b =>
    let place (m : Member) : Member :=
      if faulted.isNone && redirects d result then { m with verdict := some (scRedirect, result) } else { m with hook := .placed }
    let admitted (m : Member) : Member := match faulted with
      | some code => { m with verdict := some (scProgramFault, faultResult code t.program) }
      | none => if status = 0 then { m with hook := .admitted } else { m with verdict := some (status, 0) }
    updMember b.eng b.ctx i (if t.source = 2 then place else admitted) d

/-- The output of a hook task that has ended, or of one that faulted (R62, R63). A FRAME_PARSER's output is the
status it ends with, kept by the FRAME_PUT's task until it tiles. -/
def hookDone (env : Env) (t : Task) (faulted : Option Byte) (status : Byte) (result : Word) (d : Dev) : Dev :=
  match t.hookOf with
  | none => d
  | some no =>
    match t.mem with
    | some i => memberHook no i t faulted status result d
    | none =>
    if t.source = 1 then
      { d with mea := { d.mea with tasks := d.mea.tasks.map (fun x =>
        if x.arrNo == no && x.kind != .hook then
          match faulted with
          | some code => { x with job := { x.job with phase := .pieces 2, status := scProgramFault,
                                                      result := faultResult code t.program } }
          | none => { x with job := { x.job with phase := .pieces 1 } }
        else x) } }
    else
      match d.mea.arrivals.find? (fun a => a.no == no) with
      | none => d
      | some a =>
        if t.source = 2 then
          match faulted with
          | some _ => updArrival no (fun a => { a with hook := .placed }) d
          | none =>
            if redirects d result then answerArrival env a scRedirect result d
            else updArrival no (fun a => { a with hook := .placed }) d
        else
          match faulted with
          | some code => answerArrival env a scProgramFault (faultResult code t.program) d
          | none =>
            if status = 0 then updArrival no (fun a => { a with hook := .admitted }) d
            else answerArrival env a status 0 d

/-- Arrival order of a completion that is ready. -/
def Post.readyOrder (p : Post) : Option Nat := match p.st with | .delivered n => some n | _ => none

/-! ### Ending and faulting (R52, R64–R67) -/

/-- The task has ended: its EST is credited back, and its context drains while a post has not delivered its completion,
else becomes FREE (R52, R363). -/
def retire (env : Env) (t : Task) (d : Dev) : Dev :=
  let d1 := creditEst t.wclass t.est (if t.st == .running then chargeInstrs t d else d)
  match taskAt d1 t.eng t.ctx with
  | none => d1
  | some t1 =>
    let left := t1.posts.filter (fun p => p.readyOrder.isNone)
    let d2 := if left.isEmpty then freeCtx t1 d1
      else updTask t.eng t.ctx (fun x => { x with st := .draining, wait := none, instrs := 0, posts := left }) d1
    schedule env t.eng d2

/-- Writes have completed: their manifest entries are acknowledged from now on (R163, R461). -/
def ackEntries (ids : List Nat) (d : Dev) : Dev :=
  { d with flt := { d.flt with held := d.flt.held.map (fun h =>
    if ids.contains h.id then { h with acked := some d.mea.nextArrival } else h) } }

/-- The task ends with STATUS and RESULT (R54). -/
def finishTask (env : Env) (t : Task) (status : Byte) (result : Word) (more : Bool) (d : Dev) : Dev :=
  let d1 := match t.kind with
    | .hook => hookDone env t none status result d
    | _ => answer env t.who status result more d
  ackEntries t.job.heldIds (retire env t d1)

/-- The fault codes of 02. -/
abbrev fIllegal : Byte := 0x01
abbrev fPriv : Byte := 0x02
abbrev fAccess : Byte := 0x03
abbrev fAlign : Byte := 0x04
abbrev fFetch : Byte := 0x05
abbrev fArith : Byte := 0x06
abbrev fPostfull : Byte := 0x07
abbrev fTag : Byte := 0x08
abbrev fDesc : Byte := 0x09
abbrev fRunlimitCode : Byte := 0x0A
abbrev fHooktimeCode : Byte := 0x0B
abbrev fStatus : Byte := 0x0C
abbrev fLsecc : Byte := 0x0D
abbrev fQuarantined : Byte := 0x0E

/-- A user program counts a fault in its 1 s interval and is quarantined at the threshold (R67). -/
def countFault (env : Env) (vat : Nat) (program : BitVec 16) (d : Dev) : Dev :=
  match tblGet d.mea.programs program.toNat with
  | none => d
  | some p =>
    let iv := (env.tick - p.loadTick) / Config.second
    let n := if p.interval = iv then p.faults + 1 else 1
    let thr := fld d.mea.ctrl 16 8
    let q := thr ≠ 0 && thr ≤ n && !p.quarantined
    let p' := { p with interval := iv, faults := n, quarantined := p.quarantined || q }
    let d1 := { d with mea := { d.mea with programs := tblSet d.mea.programs program.toNat p' } }
    if q then event env 0x0503 4 clsUser vat (program.toNat * 65536) n 0 (setCause env 5 4 d1) else d1

/-- Event, cause bit and counts of a fault (R66, R67, R69). `addr` is the faulting Shuan address, where there is one. -/
def reportFault (env : Env) (t : Task) (code : Byte) (addr : Option Word) (d : Dev) : Dev :=
  let p0 := code.toNat + capOpc t.capsule * 256 + t.program.toNat * 65536
  let space := match addr with | some a => fld a 60 4 | none => 0
  let off := match addr with | some a => fld a 0 60 | none => 0
  let p1 := space * 2 ^ 28 + fld t.pc 0 25
  let vat := t.eng / 8
  if t.vendor then
    event env 0x0502 5 clsHardware vat p0 p1 (off / 64) (setCause env 5 2
      { d with mea := { d.mea with vendorFaults := sat32 (d.mea.vendorFaults + 1) } })
  else
    countFault env vat t.program (event env 0x0501 4 clsUser vat p0 p1 (off / 64) (setCause env 5 1
      { d with mea := { d.mea with userFaults := sat32 (d.mea.userFaults + 1) } }))

/-- The task faults at its present instruction: the fault is reported, its command answered with SC_PROGRAM_FAULT or
its hook's output taken as R63 states, and its context drains or becomes FREE (R64–R66). -/
def faultTask (env : Env) (t : Task) (code : Byte) (addr : Option Word) (d : Dev) : Dev :=
  let d1 := reportFault env t code addr d
  let d2 := match t.kind with
    | .hook => hookDone env t (some code) 0 0 d1
    | _ => answer env t.who scProgramFault (faultResult code t.program) false d1
  retire env t d2

/-! ### Arrivals (R47) -/

/-- A slot lock of a hash is held by a task of a group's old epoch while the group drains (R57). -/
def epochMatch (d : Dev) (group : BitVec 16) (hash : Word) : Bool :=
  match tblGet d.mea.groups group.toNat with
  | none => false
  | some g => g.draining && d.kdr.slots.any (fun x => x.2.hash == hash && (match x.2.lock with
      | some o => d.mea.tasks.any (fun t => t.owns o && t.group == group && t.epoch != g.epoch)
      | none => false))

/-- A new arrival joins those waiting for dispatch; it takes the next arrival number. -/
def addArrival (a : Arrival) (d : Dev) : Dev :=
  let a' := { a with no := d.mea.nextArrival }
  throttle a.group { d with mea := { d.mea with arrivals := d.mea.arrivals ++ [a'], nextArrival := d.mea.nextArrival + 1 } }

end Sys2Proof.Machine
end

