-- ==== Sys2Proof/Machine/ChainOps.lean ====
section
/-! DEFINITION. Shared operations of the chain ports and flows: links going down, the bypass switch with insertion and
removal (08, R252–R262), CHAIN_CONTROL commands in turn (13, R409), and the end of a flow (09, R293, R305). -/

namespace Sys2Proof.Machine

/-! ### The timer wheel (R278, R298) -/

/-- The wheel's step, and whether a tick is due at it. -/
def wheelStep (env : Env) : Nat := env.tick / 250
def wheelDue (env : Env) (t : Nat) : Bool := t ≤ 250 * wheelStep env

/-- Expiries a slot of a priority has had served at a step. -/
def wheelServed (x : Port) (step i : Nat) : Nat :=
  match x.wheel.find? (fun w => w.1 == step && w.2.1 == i) with | some w => w.2.2 | none => 0

/-- A slot from 1 to 7 is served at this step: its turn has come, or a full last step left some over; at most 256
expiries (R278). Which slot has its turn at which step is open: step k serves slot 1 + k mod 7 (log 113). -/
def slotServed (env : Env) (x : Port) (prio slot : Nat) : Bool :=
  let i := prio * 8 + slot
  let k := wheelStep env
  (slot == 1 + k % 7 || (k != 0 && 256 ≤ wheelServed x (k - 1) i)) && wheelServed x k i < 256

/-- An expiry is served: it counts in its slot at this step. -/
def countServed (env : Env) (prio slot : Nat) (x : Port) : Port :=
  let i := prio * 8 + slot
  let k := wheelStep env
  let n := wheelServed x k i
  { x with wheel := (k, i, n + 1) :: x.wheel.filter (fun w => (w.1 == k || w.1 + 1 == k) && !(w.1 == k && w.2.1 == i)) }

/-! ### Flow control sent (R276) -/

/-- XOFF and XON thresholds as they act, in bytes (R283). -/
def xoffBytes (x : Port) : Nat := 1024 * min 1024 (max 16 (fld x.thr 0 12))
def xonBytes (x : Port) : Nat :=
  let k := 1024 * fld x.thr 12 12
  if xoffBytes x ≤ k then xoffBytes x / 2 else k

/-- Length of a frame, FCS included. -/
def EFrame.len (f : EFrame) : Nat := f.bytes.length + 4

/-- Bytes in an egress buffer of frames that satisfy a test. -/
def heldIn (x : Port) (f : EFrame → Bool) : Nat := ((x.egress.filter f).map EFrame.len).foldl (· + ·) 0

/-- Bytes held that arrived on port p with priority n: they wait in the other port's egress buffer. -/
def heldFrom (d : Dev) (p n : Nat) : Nat :=
  heldIn (portOf d (1 - p)) (fun f => f.from? == some p && f.prio == n)

/-- Send a PFC frame that pauses one priority for some quanta (R276). -/
def sendPfc (env : Env) (p n quanta : Nat) (d : Dev) : Dev :=
  let times := (List.range 8).flatMap (fun k => natBe 2 (if k = n then quanta else 0))
  let body := natBe 6 0x0180C2000001 ++ addrBytes d.cpt.station ++ natBe 2 0x8808 ++ natBe 2 0x0101 ++ natBe 2 (2 ^ n) ++ times
  let f : EFrame := { bytes := body ++ List.replicate (60 - body.length) 0, from? := none, prio := n, tick := env.tick }
  portCount p 20 (updPort p (fun x => { x with sent := x.sent ++ [f] }) d)

/-- XOFF when the bytes from p at priority n pass the threshold; XON when they have fallen (R276). -/
def pfcCheck (env : Env) (p n : Nat) (d : Dev) : Dev :=
  let x := portOf d p
  let held := heldFrom d p n
  match vget x.xoff n none with
  | none =>
    if x.link && bitOf x.pctrl (8 + n) && xoffBytes x < held then
      sendPfc env p n 65535 (updPort p (fun y => { y with xoff := vset y.xoff n (some env.tick) }) d)
    else d
  | some _ =>
    if !x.link then updPort p (fun y => { y with xoff := vset y.xoff n none }) d
    else if held < xonBytes x then sendPfc env p n 0 (updPort p (fun y => { y with xoff := vset y.xoff n none }) d) else d

/-- The flow control of a port's every priority follows what it still has held (R276). -/
def pfcCheckAll (env : Env) (p : Nat) (d : Dev) : Dev := (List.range 8).foldl (fun d n => pfcCheck env p n d) d

/-! ### Links (R262, R263) -/

/-- A port's egress buffer is emptied; the port its forwarded frames came from checks its flow control (R276). -/
def clearEgress (env : Env) (p : Nat) (d : Dev) : Dev :=
  pfcCheckAll env (1 - p) (updPort p (fun x => { x with egress := [] }) d)

/-- Discard a port's egress buffer; each frame is counted. -/
def dropEgress (env : Env) (p : Nat) (d : Dev) : Dev :=
  let n := (portOf d p).egress.length
  if n = 0 then d
  else setCause env 2 0x80 (clearEgress env p (updPort p (fun x => { x with counts := vupd x.counts 17 (· + n) }) d))

/-- A port's link is reported down: LINK_CHANGE and its event; causes 1 signal, 2 block lock, 3 FEC, 4 port reset (R263). -/
def reportDown (env : Env) (p cause : Nat) (d : Dev) : Dev :=
  event env 0x020D 3 clsHardware p cause 0 0 (setCause env 2 1 d)

/-- A port's link is declared down (R263). -/
def portDown (env : Env) (p cause : Nat) (d : Dev) : Dev :=
  if !(portOf d p).link then d
  else
    reportDown env p cause
      (updPort p (fun x => { x with link := false, fecLock := false, preempt := false, verify := 0 }) (dropEgress env p d))

/-- The flow-control state of a port is cleared (R262). -/
def clearPfc (p : Nat) (d : Dev) : Dev :=
  updPort p (fun x => { x with pausedUntil := Vector.replicate 8 none, pausedSince := Vector.replicate 8 none,
                               storm := Vector.replicate 8 none, xoff := Vector.replicate 8 none }) d

/-- A port reset begins: frames queued for the port go uncounted (R262). -/
def resetPort (env : Env) (p : Nat) (d : Dev) : Dev :=
  event env 0x0002 1 clsPower 0 6 p 0
    { updPort p (fun x => { x with resetting := true }) (clearPfc p (portDown env p 4 (clearEgress env p d))) with lastReset := 6 }

/-! ### The switch (R252–R259) -/

/-- Change the chain ports' own state. -/
def updCpt (f : Cpt → Cpt) (d : Dev) : Dev := { d with cpt := f d.cpt }

/-- An insertion may start: the switch BYPASSED and healthy, 12 V on J-AUX (R254, R255). -/
def mayInsert (env : Env) (d : Dev) : Bool :=
  d.cpt.bypass == 0 && d.cpt.op == .none && env.pw.aux12 && env.pw.main

/-- Step 1 of R257: both optical engines are powered and the self-test begins. -/
def startInsert (env : Env) (cause : Nat) (d : Dev) : Dev :=
  updCpt (fun c => { c with op := .selftest, opTick := env.tick, optics := true, opCause := cause }) d

/-- A requested removal (R259): no new frames, the hold supply released, the switch moving. An insertion still in its
self-test ends without motion. -/
def startRemoval (env : Env) (cause : Nat) (d : Dev) : Dev :=
  if d.cpt.op == .selftest then updCpt (fun c => { c with op := .none, optics := false }) d
  else if d.cpt.bypass = 1 || d.cpt.op == .inserting then
    updCpt (fun c => { c with op := .removing, hold := false, bypass := 2, opTick := env.tick,
                              lastCause := cause }) (dropEgress env 0 (dropEgress env 1 d))
  else d

/-- An insertion has failed: cause and event (R258). -/
def insertFailed (env : Env) (reason lanes : Nat) (d : Dev) : Dev :=
  event env 0x0211 4 clsHardware 0xFF reason lanes 0 (setCause env 2 8 d)

/-! ### CHAIN_CONTROL commands, one after the other (R409) -/

/-- A CHAIN_CONTROL command completes, unless its RESP has gone already. -/
def finishChain (env : Env) (c : ChainCmd) (status : Byte) (d : Dev) : Dev :=
  match c.task with
  | none => d
  | some r => match taskOf d r with
    | some t => finishTask env t status 0 false d
    | none => d

/-- Begin a command's action; a status when it is done at once. -/
def beginChain (env : Env) (c : ChainCmd) (d : Dev) : Dev × Option Byte :=
  match c.action with
  | 0 =>
    if d.cpt.bypass = 1 && d.cpt.op == .none then (d, some scOk)
    else if mayInsert env d then (startInsert env 1 d, none)
    else if d.cpt.op == .none then (d, some scChainDown) else (d, none)
  | 1 =>
    let d1 := startRemoval env 2 d
    if d1.cpt.bypass ≠ 1 && d1.cpt.op == .none then (d1, some scOk) else (d1, none)
  | _ => (resetPort env c.port d, none)

/-- The front command cannot begin yet: it has begun, its RESP is on its way, or a removal runs. -/
def chainHeld (c : ChainCmd) (d : Dev) : Bool :=
  c.started || c.resp.isSome || (c.action == 0 && d.cpt.op == .removing)

/-- Begin commands from the front until one has to wait. -/
def runChain (env : Env) : Nat → Dev → Dev
  | 0, d => d
  | n + 1, d =>
    match d.cpt.cmds with
    | [] => d
    | c :: rest =>
      if chainHeld c d then d
      else match beginChain env c (updCpt (fun x => { x with cmds := rest }) d) with
        | (d1, some st) => runChain env n (finishChain env c st d1)
        | (d1, none) => updCpt (fun x => { x with cmds := { c with started := true, since := env.tick } :: rest }) d1

/-- Begin what can begin. -/
def chainNext (env : Env) (d : Dev) : Dev := runChain env (d.cpt.cmds.length + 1) d

/-- The command under way is an action that has come to its outcome. -/
def chainDone (env : Env) (action : Nat) (status : Byte) (d : Dev) : Dev :=
  match d.cpt.cmds with
  | [] => d
  | c :: rest =>
    if c.started && c.action == action then
      chainNext env (finishChain env c status (updCpt (fun x => { x with cmds := rest }) d))
    else d

/-- The RESP of sequence number s on a flow is acknowledged, or the flow has ended. -/
def respAcked (d : Dev) (id : Nat) (s : W32) : Bool :=
  match flowOf d id with
  | none => true
  | some fl => fl.unacked.all (fun u => u.seq != s) && fl.queue.all (fun u => u.seq != s)

/-- Commands whose RESP is acknowledged may begin (R409). -/
def chainAcked (env : Env) (d : Dev) : Dev :=
  let free (c : ChainCmd) : ChainCmd :=
    match c.resp with
    | some x => if (flowOf d x.1).isNone || (c.waits.isNone && respAcked d x.1 x.2) then { c with resp := none, waits := none } else c
    | none => c
  chainNext env (updCpt (fun x => { x with cmds := x.cmds.map free }) d)

/-- A removal the drive itself runs: an insertion under way fails (R254, R258, R259). -/
def removeNow (env : Env) (cause : Nat) (d : Dev) : Dev :=
  let d1 := startRemoval env cause d
  if d1.cpt.op == .removing || d1.cpt.op == .none then chainDone env 0 scChainDown d1 else d1

/-- Insertion at the end of bring-up (R257), when the feature asks for it. -/
def autoInsert (env : Env) (d : Dev) : Dev := if mayInsert env d then startInsert env 5 d else d

/-- The switch has come to rest in BYPASSED: ports still up lose their light, the command completes, and the optics go
off unless an insertion follows at once (R259). -/
def bypassed (env : Env) (d : Dev) : Dev :=
  let d1 := updCpt (fun c => { c with bypass := 0, sensed := false, op := .none, opTick := env.tick })
    (portDown env 0 1 (portDown env 1 1 d))
  let d2 := event env 0x020F 1 clsHardware 0xFF 0 d1.cpt.lastCause 0 (setCause env 2 2 d1)
  let d3 := chainNext env (chainDone env 1 scOk d2)
  if d3.cpt.op == .none then updCpt (fun c => { c with optics := false }) d3 else d3

/-! ### The end of a flow (R293, R305) -/

/-- A RESET on an open flow. -/
def sendReset (env : Env) (id reason : Nat) (d : Dev) : Dev :=
  match flowOf d id with
  | none => d
  | some fl => sendOnFlow env id fl kReset 0 0 0 false false (natLe 8 reason) d

/-- Commands received on a flow and not dispatched. -/
def flowArrivals (d : Dev) (id : Nat) : List Arrival :=
  d.mea.arrivals.filter (fun a => a.kind == .act && a.source.toNat == id)

/-- A flow's id and buffers are free; its undispatched commands have no effect (R293, R296). -/
def freeFlow (id : Nat) (d : Dev) : Dev :=
  match flowOf d id with
  | none => d
  | some fl =>
    let gone := (flowArrivals d id).map (·.no)
    let d1 := { d with xpt := { d.xpt with flows := tblErase d.xpt.flows id, freeBuf := d.xpt.freeBuf + fl.bufs } }
    throttle (BitVec.ofNat 16 fl.group)
      { d1 with mea := { d1.mea with arrivals := d1.mea.arrivals.filter (fun a => !gone.contains a.no) } }

/-- The drive resets a flow for a reason (R293, R308). -/
def resetFlow (env : Env) (id reason : Nat) (d : Dev) : Dev :=
  match flowOf d id with
  | none => d
  | some fl =>
    let d1 := xptCount 10 (freeFlow id (sendReset env id reason d))
    let d2 := if 4 ≤ reason then setCause env 3 1 d1 else d1
    chainAcked env (event env 0x0305 3 clsProtocol fl.port id reason 0 d2)

/-- Every flow is reset with reason 3, its undispatched commands answered first (R305). -/
def resetAllFlows (env : Env) (d : Dev) : Dev :=
  d.xpt.flows.foldl (fun d x =>
    resetFlow env x.1 3 ((flowArrivals d x.1).foldl (fun d a => answerArrival env a scAbortedReset 0 d) d)) d

end Sys2Proof.Machine
end

