-- ==== Sys2Proof/Machine/Flags.lean ====
section
/-! DEFINITION. The computations of Shuan's integer and vector functions (03). Shuan has no flag register: a compare
writes a scalar or predicate register, and these functions are all there is to it. -/

namespace Sys2Proof.Machine

/-- One if true, as a word. -/
def wb (b : Bool) : Word := if b then 1 else 0

/-- Number of leading zero bits; 64 for zero. -/
def clz64 (x : Word) : Nat := if x = 0 then 64 else 63 - Nat.log2 x.toNat

/-- Index of the lowest 1 bit at or above i, looking at n bits; 64 for none. -/
def lowBit (x : Word) : Nat → Nat → Nat
  | 0, _ => 64
  | n + 1, i => if bitOf x i then i else lowBit x n (i + 1)

/-- Number of trailing zero bits; 64 for zero. -/
def ctz64 (x : Word) : Nat := lowBit x 64 0

/-- Number of 1 bits among the low n bits of a number. -/
def popc : Nat → Nat → Nat
  | 0, _ => 0
  | n + 1, x => x % 2 + popc n (x / 2)

/-- Byte order reversed. -/
def bswap64 (x : Word) : Word := BitVec.ofNat 64 (leNat (natLe 8 x.toNat).reverse)

/-- What an ALU function gives. -/
inductive Alu where
  | unassigned
  | arith
  | val (x : Word)
  | keep

/-- A unary function requires B = 0 (03, ALU). -/
def unary (b : BitVec 5) (x : Word) : Alu := if b = 0 then .val x else .unassigned

/-- The ALU functions by F (03, ALU; R76). `bf` is field B, `x` and `y` the values of sA and sB. -/
def aluOp (f : Nat) (bf : BitVec 5) (x y : Word) : Alu :=
  let n := fld y 0 6
  match f with
  | 0x001 => .val (x + y)
  | 0x002 => .val (x - y)
  | 0x003 => .val (x &&& y)
  | 0x004 => .val (x ||| y)
  | 0x005 => .val (x ^^^ y)
  | 0x006 => .val (x &&& ~~~y)
  | 0x007 => .val (x <<< n)
  | 0x008 => .val (x >>> n)
  | 0x009 => .val (x.sshiftRight n)
  | 0x00A => .val (x.rotateRight n)
  | 0x00B => .val (wb (x.slt y))
  | 0x00C => .val (wb (x.ult y))
  | 0x00D => .val (if x.slt y then x else y)
  | 0x00E => .val (if x.slt y then y else x)
  | 0x00F => .val (if x.ult y then x else y)
  | 0x010 => .val (if x.ult y then y else x)
  | 0x011 => .val (x * y)
  | 0x012 => .val (BitVec.ofInt 64 (x.toInt * y.toInt / 2 ^ 64))
  | 0x013 => .val (BitVec.ofNat 64 (x.toNat * y.toNat / 2 ^ 64))
  | 0x014 => if y = 0 then .arith else .val (x.sdiv y)
  | 0x015 => if y = 0 then .arith else .val (x / y)
  | 0x016 => if y = 0 then .arith else .val (x.srem y)
  | 0x017 => if y = 0 then .arith else .val (x % y)
  | 0x018 => unary bf (BitVec.ofNat 64 (clz64 x))
  | 0x019 => unary bf (BitVec.ofNat 64 (ctz64 x))
  | 0x01A => unary bf (BitVec.ofNat 64 (popc 64 x.toNat))
  | 0x01B => unary bf (bswap64 x)
  | 0x01C => unary bf ((x.setWidth 8).signExtend 64)
  | 0x01D => unary bf ((x.setWidth 16).signExtend 64)
  | 0x01E => unary bf ((x.setWidth 32).signExtend 64)
  | 0x01F => unary bf ((x.setWidth 32).setWidth 64)
  | 0x020 => if y = 0 then .keep else .val x
  | _ => .unassigned

/-- Lane size in bytes from F[6:5] (03, Vector instructions). -/
def laneBytes (f : BitVec 10) : Nat := 2 ^ fld f 5 2

/-- lane(x, k) for lanes of L bytes. -/
def lane (x : V512) (L k : Nat) : Nat := fld x (8 * L * k) (8 * L)

/-- A number of 8L bits read as two's complement. -/
def laneInt (L x : Nat) : Int := if x < 2 ^ (8 * L - 1) then x else (x : Int) - 2 ^ (8 * L)

/-- The vector whose lane k is f k. -/
def ofLanes (L : Nat) (f : Nat → Nat) : V512 :=
  BitVec.ofNat 512 (((List.range (64 / L)).map (fun k => f k % 2 ^ (8 * L) * 2 ^ (8 * L * k))).foldl (· + ·) 0)

/-- active(k): bit k·L of the governing predicate (R80). -/
def active (pg : Word) (L k : Nat) : Bool := bitOf pg (k * L)

/-- Lane by lane with inactive lanes kept (R80). -/
def masked (pg : Word) (L : Nat) (old : V512) (f : Nat → Nat) : V512 :=
  ofLanes L (fun k => if active pg L k then f k else lane old L k)

/-- VALU functions by F[4:0]; none where unassigned (03, VALU). -/
def valuOp (f L a b : Nat) : Option Nat :=
  let w := 8 * L
  let m := 2 ^ w
  match f with
  | 0x01 => some (a + b)
  | 0x02 => some (a + m - b)
  | 0x03 => some (a &&& b)
  | 0x04 => some (a ||| b)
  | 0x05 => some (a ^^^ b)
  | 0x06 => some (a &&& (m - 1 - b))
  | 0x07 => some (a * 2 ^ (b % w))
  | 0x08 => some (a / 2 ^ (b % w))
  | 0x09 => some ((laneInt L a / 2 ^ (b % w)) % m).toNat
  | 0x0A => some (min a b)
  | 0x0B => some (max a b)
  | 0x0C => some (if laneInt L a < laneInt L b then a else b)
  | 0x0D => some (if laneInt L a < laneInt L b then b else a)
  | 0x0E => some (a * b)
  | 0x0F => some (a * b / m)
  | 0x10 => some (min (a + b) (m - 1))
  | 0x11 => some (a - b)
  | _ => none

/-- VCMP comparisons by F[4:0] (R81). -/
def vcmpOp (f L a b : Nat) : Option Bool :=
  match f with
  | 0x01 => some (a == b)
  | 0x02 => some (a != b)
  | 0x03 => some (a < b)
  | 0x04 => some (a ≤ b)
  | 0x05 => some (laneInt L a < laneInt L b)
  | 0x06 => some (laneInt L a ≤ laneInt L b)
  | _ => none

/-- VRED over the active lanes' values (R83). -/
def vredOp (f L : Nat) (xs : List Nat) : Option Nat :=
  match f with
  | 0x01 => some (xs.foldl (· + ·) 0)
  | 0x02 => some (xs.foldl (· ^^^ ·) 0)
  | 0x03 => some (xs.foldl (· ||| ·) 0)
  | 0x04 => some (xs.foldl (· &&& ·) (2 ^ (8 * L) - 1))
  | 0x05 => some (xs.foldl min (2 ^ (8 * L) - 1))
  | 0x06 => some (xs.foldl max 0)
  | _ => none

/-- The carry-less product of two 64-bit values (R82): bits i and above of y, n of them. -/
def clmul (x y : Nat) : Nat → Nat → Nat
  | 0, _ => 0
  | n + 1, i => (if y.testBit i then x * 2 ^ i else 0) ^^^ clmul x y n (i + 1)

/-- The key hash of keyspace k and key bytes (R220). -/
def keyHash (k : Byte) (key : List Byte) : Word :=
  let h := (k :: BitVec.ofNat 8 key.length :: key).foldl
    (fun (h : Word) c => (h ^^^ c.setWidth 64) * 0x00000100000001B3#64) 0xCBF29CE484222325#64
  let h := h ^^^ (h >>> 33)
  let h := h * 0xFF51AFD7ED558CCD#64
  let h := h ^^^ (h >>> 33)
  let h := h * 0xC4CEB9FE1A85EC53#64
  h ^^^ (h >>> 33)

/-- New value of an atomic (R85): `op` is the opcode's low three bits, for values of w bits. -/
def amoOp (op w old b expected : Nat) : Nat :=
  match op with
  | 0 => b
  | 1 => (old + b) % 2 ^ w
  | 2 => old &&& b
  | 3 => old ||| b
  | 4 => old ^^^ b
  | 5 => min old b
  | 6 => max old b
  | _ => if old = expected then b else old

end Sys2Proof.Machine
end

