-- ==== Sys2Proof/Machine/Operands.lean ====
section
/-! DEFINITION. Operand forms of Shuan instructions (02, 03): registers, immediates, effective addresses and the
checks R38, R40, R42 and R383 make of an access, and the frame every instruction runs in. -/

namespace Sys2Proof.Machine

/-! ### Registers (R70, R80) -/

/-- s[n]; s0 reads as zero. -/
def Task.sreg (t : Task) (n : BitVec 5) : Word := if n = 0 then 0 else vget t.s n.toNat 0

/-- v[n]. -/
def Task.vreg (t : Task) (n : BitVec 5) : V512 := vget t.v n.toNat 0

/-- p[n]; p0 reads as all ones. -/
def Task.preg (t : Task) (n : Nat) : Word := if n = 0 then BitVec.allOnes 64 else vget t.p n 0

/-- Write s[n]; a write to s0 is discarded. -/
def Task.setS (t : Task) (n : BitVec 5) (x : Word) : Task := if n = 0 then t else { t with s := vset t.s n.toNat x }

/-- Write v[n]. -/
def Task.setV (t : Task) (n : BitVec 5) (x : V512) : Task := { t with v := vset t.v n.toNat x }

/-- Write p[n]; a write to p0 is discarded. -/
def Task.setP (t : Task) (n : Nat) (x : Word) : Task := if n = 0 then t else { t with p := vset t.p n x }

/-- A field names a vector register: 0–15 (R71). -/
def vOk (n : BitVec 5) : Bool := n.toNat < 16

/-- A field names a predicate register: 0–7 (R71). -/
def pOk (n : BitVec 5) : Bool := n.toNat < 8

/-- sext(IMM15) (R72). -/
def sext15 (i : BitVec 15) : Word := i.signExtend 64

/-! ### The program store range (R79) -/

/-- The task's own range of the program store. -/
def psRange (d : Dev) (t : Task) : Nat × Nat :=
  if t.vendor then (0, 0x1800000)
  else match tblGet d.mea.programs t.program.toNat with
    | some p => (p.psBase, p.psBase + p.psLen)
    | none => (0, 0)

/-- A program store offset the task may fetch from. -/
def pcOk (d : Dev) (t : Task) (pc : Int) : Bool :=
  decide (((psRange d t).1 : Int) ≤ pc ∧ pc < ((psRange d t).2 : Int) ∧ pc % 4 = 0)

/-- The Shuan address of a program store offset, the faulting address of F_FETCH (R38, R66). -/
def psAddr (pc : Int) : Word := 3#4 ++ BitVec.ofInt 60 pc

/-! ### Memory access (R38–R43, R383) -/

/-- Where an access comes from: a load, a store, or an atomic. -/
inductive Acc where
  | load | store | atomic
  deriving DecidableEq, Repr

/-- The regions of FE or DR a task may access (R42). -/
def regionsOf (d : Dev) (t : Task) : List Region :=
  (match tblGet d.mea.programs t.program.toNat with
    | some p => [⟨1, p.feOff, p.feLen⟩, ⟨2, p.drOff, p.drLen⟩]
    | none => []) ++ t.regions

/-- A range of FE or DR lies within one permitted region. -/
def inRegions (d : Dev) (t : Task) (space off n : Nat) : Bool :=
  t.vendor || (regionsOf d t).any (fun r => r.space.toNat == space && r.off ≤ off && off + n ≤ r.off + r.len)

/-- Size of a space that loads and stores may reach, or 0 (R38). -/
def spaceSize (space : Nat) : Nat :=
  if space = 0 then 0x40000 else if space = 1 then 0xC000000 else if space = 2 then 120 * 2 ^ 30 else 0

/-- A range of local store a task may access (R40 and the layout of 02). -/
def lsOk (t : Task) (store : Bool) (off n : Nat) : Bool :=
  if off + n ≤ 0xC00 then !(store && !t.vendor && off < 0x180)
  else if 0x30000 ≤ off && off + n ≤ 0x38000 then t.vendor
  else if 0x38000 ≤ off && off + n ≤ 0x40000 then true
  else 0x30000 ≤ off && off + n ≤ 0x40000 && t.vendor

/-- No byte of a felt range lies in a SEALED slot, nor in a RELEASED one of another task (R383). -/
def sealedOk (d : Dev) (t : Task) (off n : Nat) : Bool :=
  d.ccl.sealed.all (fun x =>
    off + n ≤ sealedBase x.1 || sealedBase x.1 + 0x10000 ≤ off || (x.2.released && x.2.owner == t.owner))

/-- An access of n bytes at an offset of a space is permitted (R38, R40, R42, R383). The manual speaks of an offset at or
beyond the end of a space; a range that begins inside and runs past the end is not permitted either, misaligned or not
(DESIGN CHOICE, log 116). -/
def rangeOk (d : Dev) (t : Task) (acc : Acc) (space off n : Nat) : Bool :=
  decide (off + n ≤ spaceSize space) &&
  (if space = 0 then lsOk t (acc != .load) off n
   else inRegions d t space off n && (space != 1 || acc == .store || sealedOk d t off n))

/-- Physical offset in an engine's local store of an offset as a task addresses it (02, Local store layout). -/
def lsPhys (t : Task) (off : Nat) : Nat := if off < 0xC00 then t.ctx * 0xC00 + off else off

/-- Key of the word of local store that holds an offset, for the words the scrub marked bad (R41, log 8). -/
def lsWord (t : Task) (off : Nat) : Nat := (t.eng * 0x40000 + lsPhys t off) / 8

/-- A range of local store holds a word marked bad. -/
def lsBad (d : Dev) (t : Task) (off n : Nat) : Bool :=
  d.mea.badWords.any (fun w => lsWord t off ≤ w && w ≤ lsWord t (off + n - 1))

/-- n bytes at an offset of a space. -/
def readSpace (d : Dev) (t : Task) (space off n : Nat) : List Byte :=
  if space = 0 then (List.range n).map (fun i =>
    if off + i < 0xC00 then memRead t.frame (off + i) else memRead d.mea.lsShared (t.eng * 0x40000 + off + i))
  else if space = 1 then memBytes d.mea.fe off n
  else memBytes d.mea.dr off n

/-- Store bytes at an offset of a space; a word of local store written is no longer bad (R41). Answers the task with
its frame and the drive. -/
def writeSpace (d : Dev) (t : Task) (space off : Nat) (bs : List Byte) : Task × Dev :=
  if space = 0 then
    let lo := lsWord t off
    let hi := lsWord t (off + bs.length - 1)
    let d1 := { d with mea := { d.mea with badWords := d.mea.badWords.filter (fun w => !(lo ≤ w && w ≤ hi)) } }
    if off < 0xC00 then ({ t with frame := memStore t.frame off bs }, d1)
    else (t, { d1 with mea := { d1.mea with lsShared := memStore d1.mea.lsShared (t.eng * 0x40000 + off) bs } })
  else if space = 1 then (t, { d with mea := { d.mea with fe := memStore d.mea.fe off bs } })
  else (t, { d with mea := { d.mea with dr := memStore d.mea.dr off bs } })

/-- Space and offset of a Shuan address (02, Memory spaces). -/
def spaceOf (a : Word) : Nat := fld a 60 4
def offOf (a : Word) : Nat := fld a 0 60

/-- The fault an access meets, in the order of R74: F_ACCESS, F_ALIGN; `align` is the required alignment. -/
def accessFault (d : Dev) (t : Task) (acc : Acc) (a : Word) (n align : Nat) : Option Byte :=
  if !rangeOk d t acc (spaceOf a) (offOf a) n then some fAccess
  else if offOf a % align ≠ 0 then some fAlign
  else none

/-- What local store's SEC-DED reports takes effect on a read of it: a corrected bit is counted and recorded, an
uncorrectable word faults (R41). -/
def lsCheck (env : Env) (t : Task) (addr : Word) (n : Nat) (ecc : LsEcc) (d : Dev) : Option Dev :=
  if spaceOf addr ≠ 0 then some d
  else if lsBad d t (offOf addr) n then none
  else match ecc with
    | .clean => some d
    | .corrected => some (event env 0x0504 1 clsHardware (t.eng / 8) t.eng (offOf addr) 0 (setCause env 5 8 d))
    | .uncorrectable => none

/-! ### Running one instruction -/

/-- How an instruction ends: a fault with its address if it has one, or the task after it, with pc where it goes on. -/
inductive Done where
  | fault (code : Byte) (addr : Option Word)
  | ok (t : Task) (d : Dev)
  /-- The task as the instruction leaves it, and what the drive then does with it. -/
  | act (t : Task) (d : Dev) (k : Env → Task → Dev → Dev)

/-- The task at the next instruction. -/
def Task.next (t : Task) : Task := { t with pc := t.pc + 4 }

/-- Run limit of a task in ticks (R53, R69). -/
def runLimit (d : Dev) (t : Task) : Nat :=
  if t.vendor then 25000 else min 25000 (max 250 (fld d.mea.ctrl 0 16))

/-- An expiry the task takes at the boundary before its next instruction (R53, R63, R74); of two overdue at once it takes
F_RUNLIMIT, an order the manual leaves open (DESIGN CHOICE, log 117). -/
def boundaryFault (env : Env) (d : Dev) (t : Task) : Option Byte :=
  if t.runFrom + runLimit d t < env.tick then some fRunlimitCode
  else if t.kind == .hook && t.dispTick + 25000 < env.tick then some fHooktimeCode
  else none

/-- Execute one instruction on the RUNNING task of an engine: the boundary before it, its fetch, then its effect;
a fault stops the task there (R64, R74). -/
def shuan (e : Nat) (run : Env → Task → Dev → Done) (env : Env) (d : Dev) : Dev :=
  match running d e with
  | none => d
  | some t =>
    match boundaryFault env d t with
    | some code => faultTask env t code none d
    | none =>
      if !pcOk d t (t.pc.toNat : Int) then faultTask env t fFetch (some (psAddr t.pc.toNat)) d
      else match run env t d with
        | .fault code addr => faultTask env t code addr d
        | .ok t' d' => putTask { t' with instrs := t.instrs + 1 } d'
        | .act t' d' k => k env { t' with instrs := t.instrs + 1 } (putTask { t' with instrs := t.instrs + 1 } d')

/-- An instruction that only changes registers and goes on at pc + 4. -/
def regOnly (f : Task → Except Byte Task) : Env → Task → Dev → Done := fun _ t d =>
  match f t with
  | .ok t' => .ok t'.next d
  | .error code => .fault code none

end Sys2Proof.Machine
end

