-- ==== Sys2Proof/Machine/Dir.lean ====
section
/-! DEFINITION. Shared operations of the key directory and the keyspaces (07, R220–R226; 05, R136–R138, R168–R170). -/

namespace Sys2Proof.Machine

/-- Buckets from the home bucket to a slot's, modulo 2^27. -/
def probeOf (h : Word) (slot : Nat) : Nat := (slot / 8 + 2 ^ 27 - homeBucket h) % 2 ^ 27

/-- The slot of a key under a hash, within 64 buckets of the home bucket (R221, R225; log 9). -/
def findSlot (d : Dev) (ksid : Byte) (h : Word) (key : List Byte) : Option (Nat × Slot) :=
  d.kdr.slots.find? (fun x => x.2.hash == h && x.2.ksid == ksid && x.2.key == key && probeOf h x.1 < 64)

/-- The first EMPTY slot among n slots of the probe sequence from the i-th on. -/
def emptyFrom (d : Dev) (h : Word) : Nat → Nat → Option Nat
  | 0, _ => none
  | n + 1, i =>
    let slot := (homeBucket h + i / 8) % 2 ^ 27 * 8 + i % 8
    match tblGet d.kdr.slots slot with
    | none => some slot
    | some _ => emptyFrom d h n (i + 1)

/-- The first EMPTY slot in the sequence of an insertion (R221). -/
def emptySlot (d : Dev) (h : Word) : Option Nat := emptyFrom d h 512 0

/-- Buckets a lookup examines: up to the key's slot, or the first bucket with an EMPTY slot, at most 64 (R221). -/
def probeCount (d : Dev) (ksid : Byte) (h : Word) (key : List Byte) : Nat :=
  match findSlot d ksid h key with
  | some x => probeOf h x.1 + 1
  | none => match emptySlot d h with
    | some s => probeOf h s + 1
    | none => 64

/-- A lookup raises KDR_PROBE.MAX (R248). -/
def countProbe (ksid : Byte) (h : Word) (key : List Byte) (d : Dev) : Dev :=
  { d with kdr := { d.kdr with probeMax := max d.kdr.probeMax (probeCount d ksid h key) } }

/-- A directory slot that is not EMPTY. -/
def slotAt (d : Dev) (n : Nat) : Option Slot := tblGet d.kdr.slots n

/-- Change a slot that is not EMPTY. -/
def updSlot (n : Nat) (f : Slot → Slot) (d : Dev) : Dev :=
  match tblGet d.kdr.slots n with
  | some s => { d with kdr := { d.kdr with slots := tblSet d.kdr.slots n (f s) } }
  | none => d

/-- LIVE and PENDING slots (R170, R221). -/
def dirCount (d : Dev) : Nat := d.kdr.slots.length

/-- The directory is at its load limit (R170). -/
def dirFull (d : Dev) : Bool := Config.maxObjects ≤ dirCount d

/-- A write met the load limit: cause and event (R170, R249). -/
def loadLimit (env : Env) (ksid : Byte) (d : Dev) : Dev :=
  event env 0x0701 4 clsHardware 0 (dirCount d) ksid.toNat 0 (setCause env 7 1 d)

/-- An insertion found no EMPTY slot: cause and event (R221, R249). -/
def probeLimit (env : Env) (ksid : Byte) (h : Word) (d : Dev) : Dev :=
  event env 0x0702 4 clsHardware 0 (homeBucket h) ksid.toNat 0 (setCause env 7 2 d)

/-- The slot of a key, inserting a PENDING one where there is none; none when no EMPTY slot is found (R221). -/
def findOrInsert (ksid : Byte) (h : Word) (key : List Byte) (d : Dev) : Option (Nat × Dev) :=
  match findSlot d ksid h key with
  | some x => some (x.1, d)
  | none =>
    match emptySlot d h with
    | none => none
    | some n =>
      let s : Slot := { live := false, ksid := ksid, key := key, hash := h }
      some (n, { d with kdr := { d.kdr with slots := tblSet d.kdr.slots n s } })

/-- A slot's lock is free for an owner: nobody holds it, and no other write keeps a reservation unless the owner only
reads (R157). -/
def lockFree (s : Slot) (o : Owner) (read : Bool) : Bool :=
  s.lock.isNone && (read || s.reservation.isNone || s.reservation == some o)

/-- Take a slot's lock. -/
def takeLock (n : Nat) (o : Owner) (d : Dev) : Dev :=
  updSlot n (fun s => { s with lock := some o, waiters := s.waiters.filter (fun w => w.owner != o) }) d

/-- Release a slot's lock; a PENDING slot nobody wants returns to EMPTY (R224). -/
def dropLock (n : Nat) (d : Dev) : Dev :=
  pruneSlots (updSlot n (fun s => { s with lock := none }) d)

/-- Slot locks a task holds (R224). -/
def locksHeld (d : Dev) (o : Owner) : Nat := (d.kdr.slots.filter (fun x => x.2.lock == some o)).length

/-! ### Keyspaces and versions -/

/-- A keyspace's record. -/
def ksOf (d : Dev) (k : Nat) : Keyspace := tblGetD d.kdr.ks k {}

/-- Change a keyspace's record. -/
def updKs (k : Nat) (f : Keyspace → Keyspace) (d : Dev) : Dev :=
  { d with kdr := { d.kdr with ks := tblUpd d.kdr.ks k {} f } }

/-- The next value of a commit sequence; it never yields 0 (R136). -/
def nextVer (v : W32) : W32 := if v = 0xFFFFFFFF then 1 else v + 1

/-- The first value of a run of n (R138): a run that would contain 0 starts at 1. -/
def runFirst (v : W32) (n : Nat) : W32 :=
  let f := nextVer v
  if f.toNat + n ≤ 2 ^ 32 then f else 1

/-- A new mark of a keyspace is journaled and not yet durable. -/
def markPending (d : Dev) (k : Nat) : Bool :=
  d.trl.journal.any (fun r => r.typ == .seq && r.a == k && d.trl.jDurable < r.seq)

/-- A run of n values stays at or below the durable mark (R234). -/
def runAllowed (d : Dev) (k n : Nat) : Bool :=
  let x := ksOf d k
  let f := runFirst x.seq n
  ((f - x.seq).toNat + (n - 1)) ≤ (x.mark - x.seq).toNat

/-- KGEN of an encrypted keyspace advances: the new value is journaled, reported, and data written from here on takes a new
data key (R386). -/
def advanceKgen (env : Env) (k : Nat) (d : Dev) : Dev :=
  let x := ksOf d k
  if !x.encrypted then d
  else
    let g := x.kgen + 1
    event env 0x0D01 1 clsSecurity 0 k g 0
      (setCause env 13 2 (addJournal .kgen k g 0 (updKs k (fun y => { y with kgen := g, kgenSeq := y.seq }) d)))

/-- Take a run of n versions of a keyspace; answers the first (R138). Within 16,384 of the mark a new mark, 65,536 above
the value, is journaled (R234); KGEN advances once the sequence has gone 2^31 further than at its last change (R386). -/
def takeRun (env : Env) (k n : Nat) (d : Dev) : W32 × Dev :=
  let f := runFirst (ksOf d k).seq n
  let last := f + w32 (n - 1)
  let d1 := updKs k (fun x => { x with seq := last }) d
  let near := ((ksOf d k).mark - last).toNat ≤ 16384
  let d2 := if near && !markPending d k then addJournal .seq k (last + 0x10000).toNat 0 d1 else d1
  (f, if 2 ^ 31 ≤ (last - (ksOf d k).kgenSeq).toNat then advanceKgen env k d2 else d2)

/-- Take one version. -/
def takeVer (env : Env) (k : Nat) (d : Dev) : W32 × Dev := takeRun env k 1 d

/-! ### Footprint (R168, R169) -/

/-- Logical footprint of an object (R168). -/
def Obj.footprint (o : Obj) : Nat := if o.frame.isSome then roundUp o.len 4096 else 4096 * o.sheets.length

/-- The drive's footprint (R168). -/
def footprint (d : Dev) : Nat :=
  (d.kdr.slots.map (fun x => if x.2.live then (match x.2.obj with | some o => o.footprint | none => 0) else 0)).foldl
    (· + ·) 0

/-- Growth by `n` bytes fits the logical space with what accepted writes have reserved (R169). -/
def spaceFor (d : Dev) (n : Nat) : Bool := footprint d + d.kdr.reserved + n ≤ Config.capacity

/-- The operation id (R121). -/
def opId (cid : Nat) (src : BitVec 16) (flow : Bool) (tick : Nat) : Word :=
  BitVec.ofNat 64 (cid + src.toNat * 2 ^ 16 + b2n flow * 2 ^ 32 + tick / 2 ^ 16 % 2 ^ 31 * 2 ^ 33)

end Sys2Proof.Machine
end

