-- ==== Sys2Proof/Machine/Prims.lean ====
section
/-! DEFINITION. The primitives other than POST (03, R90–R95), and the events of a task's life (02). -/

namespace Sys2Proof.Machine

/-- UNIT of WAIT, TEST, YIELD, END, BUDGET, CHARGE, EVENT, HASH and CRC is RES0 (03, Primitives). -/
def unit0 (unit : BitVec 4) : Bool := unit == 0

/-- The second scalar register E in PF[4:0]. -/
def regE (pf : BitVec 6) : BitVec 5 := pf.setWidth 5

/-! ### WAIT and TEST (R90) -/

/-- A tag is outstanding. -/
def Task.hasTag (t : Task) (k : Nat) : Bool := t.posts.any (fun p => p.tag == k)

/-- The mask names only outstanding tags, or is zero with a post outstanding (R90). -/
def maskOk (t : Task) (mask : W32) : Bool :=
  if mask = 0 then !t.posts.isEmpty else (List.range 32).all (fun k => !bitOf mask k || t.hasTag k)

/-- A mask selects a tag. -/
def selects (mask : W32) (k : Nat) : Bool := mask == 0 || bitOf mask k

/-- The completion matching a mask that arrived first. -/
def firstReady (t : Task) (mask : W32) : Option Post :=
  (t.posts.filter (fun p => selects mask p.tag && p.readyOrder.isSome)).foldl
    (fun acc p => match acc with
      | none => some p
      | some a => some (if p.readyOrder.getD 0 < a.readyOrder.getD 0 then p else a)) none

/-- The information word of a completion. -/
def infoWord (p : Post) : Word :=
  BitVec.ofNat 64 (p.compl.status.toNat + p.tag * 2 ^ 8 + p.unit.toNat * 2 ^ 16)

/-- The information word when no completion is returned: NONE. -/
def infoNone : Word := 0x8000

/-- A completion is returned: its RESULT and information word, its tag freed, and pc goes on (R90). -/
def Task.collect (t : Task) (p : Post) (d e : BitVec 5) : Task :=
  { ((t.setS d p.compl.result).setS e (infoWord p)).next with posts := t.posts.filter (fun x => x.tag != p.tag), wait := none }

/-- No completion is returned. -/
def Task.none_ (t : Task) (d e : BitVec 5) : Task :=
  { ((t.setS d 0).setS e infoNone).next with wait := none }

/-- WAIT: returns the matching completion that arrived first, or blocks; executing it starts the run limit again
(R51, R53, R90). -/
def execWait (e : Nat) (pf : BitVec 6) (unit : BitVec 4) (b a d : BitVec 5) (s : State) :
    Host.Outcome State Fault Refusal :=
  onDev s (fun env dev => shuan e (fun env t dv =>
    let re := regE pf
    let mask : W32 := (t.sreg a).setWidth 32
    if bitOf pf 5 || !unit0 unit || (d = re && d ≠ 0) then .fault fIllegal none
    else if !maskOk t mask then .fault fTag none
    else match firstReady t mask with
      | some p => .ok { t.collect p d re with runFrom := env.tick } dv
      | none =>
        let due := if t.sreg b = 0 then none else some (env.tick + (t.sreg b).toNat)
        .act { t with wait := some ⟨mask, d, re, due⟩ } dv (fun env t dv => leaveRunning env t .waiting dv)) env dev)

/-- TEST: as WAIT, without blocking; B RES0 (R90). -/
def execTest (e : Nat) (pf : BitVec 6) (unit : BitVec 4) (b a d : BitVec 5) (s : State) :
    Host.Outcome State Fault Refusal :=
  onDev s (fun env dev => shuan e (fun _ t dv =>
    let re := regE pf
    let mask : W32 := (t.sreg a).setWidth 32
    if bitOf pf 5 || !unit0 unit || b ≠ 0 || (d = re && d ≠ 0) then .fault fIllegal none
    else if !maskOk t mask then .fault fTag none
    else match firstReady t mask with
      | some p => .ok (t.collect p d re) dv
      | none => .ok (t.none_ d re) dv) env dev)

/-! ### YIELD and END (R53, R91) -/

/-- YIELD: READY behind every READY context of equal or higher priority (R53). -/
def execYield (e : Nat) (pf : BitVec 6) (unit : BitVec 4) (b a d : BitVec 5) (s : State) :
    Host.Outcome State Fault Refusal :=
  onDev s (fun env dev => shuan e (fun _ t dv =>
    if pf ≠ 0 || unit ≠ 0 || b ≠ 0 || a ≠ 0 || d ≠ 0 then .fault fIllegal none
    else
      let n := nextStamp dv
      .act { t.next with readyAt := n.1 } n.2 (fun env t dv => leaveRunning env t .ready dv)) env dev)

/-- STATUS values END may not give (R55). -/
def statusReserved (x : Byte) : Bool := 0x16 ≤ x.toNat && x.toNat ≤ 0x7F

/-- END: RESULT ← sA, STATUS ← sB[7:0] (R55, R91). -/
def execEndTask (e : Nat) (pf : BitVec 6) (unit : BitVec 4) (b a d : BitVec 5) (s : State) :
    Host.Outcome State Fault Refusal :=
  onDev s (fun env dev => shuan e (fun _ t dv =>
    if pf ≠ 0 || unit ≠ 0 || d ≠ 0 then .fault fIllegal none
    else
      let status : Byte := (t.sreg b).setWidth 8
      let result := t.sreg a
      if statusReserved status then .fault fStatus none
      else .act t dv (fun env t dv => finishTask env t status result false dv)) env dev)

/-! ### BUDGET and CHARGE (R92) -/

/-- A signed amount as a register shows it. -/
def signedWord (x : Int) : Word := BitVec.ofInt 64 x

/-- BUDGET: remaining funding, or ticks to the next window boundary (R92). -/
def execBudget (e : Nat) (pf : BitVec 6) (unit : BitVec 4) (b a d : BitVec 5) (s : State) :
    Host.Outcome State Fault Refusal :=
  onDev s (fun env dev => shuan e (fun env t dv =>
    if unit ≠ 0 || b ≠ 0 || a ≠ 0 || 1 < pf.toNat then .fault fIllegal none
    else if pf = 0 then .ok (t.setS d (signedWord (remaining dv t.wclass))).next dv
    else .ok (t.setS d (BitVec.ofNat 64 (25000 - env.tick % 25000))).next dv) env dev)

/-- CHARGE: adds min(sA, 0xFFFF_FFFF); with PF bit 4 it charges class PF[3:0] and is vendor-only (R75, R92). -/
def execCharge (e : Nat) (pf : BitVec 6) (unit : BitVec 4) (b a d : BitVec 5) (s : State) :
    Host.Outcome State Fault Refusal :=
  onDev s (fun env dev => shuan e (fun _ t dv =>
    let other := bitOf pf 4
    if unit ≠ 0 || b ≠ 0 || bitOf pf 5 || (!other && fld pf 0 4 ≠ 0) then .fault fIllegal none
    else if other && !t.vendor then .fault fPriv none
    else
      let c := if other then fld pf 0 4 else t.wclass
      let dv1 := chargeFor c t.group (min (t.sreg a).toNat 0xFFFFFFFF) dv
      .ok (t.setS d (signedWord (remaining dv1 c))).next dv1) env dev)

/-! ### EVENT, HASH, CRC (R93–R95) -/

/-- EVENT: for a user task the drive sets CODE, SEV, CLASS and P2[31:16] itself (R93). -/
def execEvent (e : Nat) (pf : BitVec 6) (unit : BitVec 4) (b a d : BitVec 5) (s : State) :
    Host.Outcome State Fault Refusal :=
  onDev s (fun env dev => shuan e (fun env t dv =>
    let x := t.sreg a
    let y := t.sreg b
    let z := t.sreg (regE pf)
    let sev := fld x 16 4
    let cls := fld x 20 4
    let vat : Byte := BitVec.ofNat 8 (t.eng / 8)
    let base : Rec := { code := x.setWidth 16, sev := sev, cls := cls, flags := 1, src := vat, p0 := y.setWidth 32,
                        p1 := (y >>> 32).setWidth 32, p2 := z.setWidth 32 }
    let user : Rec := { base with code := 0x05C0#16 ||| BitVec.ofNat 16 (fld x 0 6), sev := (min sev 4), cls := clsUser,
                                  p2 := w32 (fld z 0 16 + t.program.toNat * 65536) }
    if unit ≠ 0 || d ≠ 0 || bitOf pf 5 then .fault fIllegal none
    else if t.vendor then
      if 7 < sev || 5 < cls then .fault fIllegal none else .ok t.next (request env base dv).1
    else .ok t.next (request env user dv).1) env dev)

/-- A read of n bytes without alignment: the fault it meets, or the drive with what local store reported (R41, R94, R95). -/
def bytesRead (env : Env) (d : Dev) (t : Task) (addr : Word) (n : Nat) (ecc : LsEcc) : Except Byte Dev :=
  if n = 0 then .ok d
  else match accessFault d t .load addr n 1 with
    | some code => .error code
    | none => match lsCheck env t addr n ecc d with
      | some d' => .ok d'
      | none => .error fLsecc

/-- HASH (R94). -/
def execHash (e : EngLs) (pf : BitVec 6) (unit : BitVec 4) (b a d : BitVec 5) (s : State) :
    Host.Outcome State Fault Refusal :=
  onDev s (fun env dev => shuan e.eng (fun env t dv =>
    let addr := t.sreg a
    let y := t.sreg b
    let n := fld y 8 8
    if pf ≠ 0 || unit ≠ 0 then .fault fIllegal none
    else match bytesRead env dv t addr n e.ls with
      | .error code => .fault code (some addr)
      | .ok dw => .ok (t.setS d (keyHash (y.setWidth 8) (readSpace dw t (spaceOf addr) (offOf addr) n))).next dw) env dev)

/-- CRC (R95). -/
def execCrc (e : EngLs) (pf : BitVec 6) (unit : BitVec 4) (b a d : BitVec 5) (s : State) :
    Host.Outcome State Fault Refusal :=
  onDev s (fun env dev => shuan e.eng (fun env t dv =>
    let addr := t.sreg a
    let n := (t.sreg (regE pf)).toNat
    let seed : W32 := (t.sreg b).setWidth 32
    if unit ≠ 0 then .fault fIllegal none
    else if 4096 < n then .fault fAccess (some addr)
    else match bytesRead env dv t addr n e.ls with
      | .error code => .fault code (some addr)
      | .ok dw =>
        let c := crc32c seed (readSpace dw t (spaceOf addr) (offOf addr) n)
        let r := if bitOf pf 5 then ~~~c else c
        .ok (t.setS d (r.setWidth 64)).next dw) env dev)

/-! ### Expiries and completions -/

/-- F_RUNLIMIT: the RUNNING task has used its run limit (R53). -/
def execFRunlimit (e : Nat) (s : State) : Host.Outcome State Fault Refusal :=
  onDev s (fun env dev =>
    match running dev e with
    | some t => if t.runFrom + runLimit dev t ≤ env.tick then faultTask env t fRunlimitCode none dev else dev
    | none => dev)

/-- F_HOOKTIME: a hook task has not ended 25,000 ticks after dispatch, whatever it is doing (R63, R74). -/
def execFHooktime (t : TaskRef) (s : State) : Host.Outcome State Fault Refusal :=
  onDev s (fun env dev =>
    match taskOf dev t with
    | some x =>
      if x.kind == .hook && x.st != .draining && x.dispTick + 25000 ≤ env.tick
      then faultTask env x fHooktimeCode none dev else dev
    | none => dev)

/-- WAIT_TIMEOUT: the timeout of a WAIT falls due and wins; the post stays outstanding (R51). -/
def execWaitTimeout (t : TaskRef) (s : State) : Host.Outcome State Fault Refusal :=
  onDev s (fun env dev =>
    match taskOf dev t with
    | some x =>
      match x.st, x.wait with
      | .waiting, some w =>
        match w.due with
        | some due =>
          if due ≤ env.tick then makeReady env x.eng x.ctx (putTask (x.none_ w.d w.e) dev) else dev
        | none => dev
      | _, _ => dev
    | none => dev)

/-- Deliver a finished post to its task: discarded while it drains, returned by a WAIT that matches, else kept ready
(R50–R52). -/
def deliver (env : Env) (t : Task) (p : Post) (d : Dev) : Dev :=
  if t.st == .draining then
    let t' := { t with posts := t.posts.filter (fun x => x.tag != p.tag) }
    if t'.posts.isEmpty then schedule env t.eng (freeCtx t (putTask t' d)) else putTask t' d
  else
    let p' := { p with st := .delivered d.mea.stamp }
    let d1 := { d with mea := { d.mea with stamp := d.mea.stamp + 1 } }
    let t' := { t with posts := t.posts.map (fun x => if x.tag == p.tag then p' else x) }
    match t.st, t.wait with
    | .waiting, some w =>
      if selects w.mask p.tag then makeReady env t.eng t.ctx (putTask (t'.collect p' w.d w.e) d1) else putTask t' d1
    | _, _ => putTask t' d1

/-- UNIT_COMPLETION: the completion of a finished post reaches its task (R50). -/
def execUnitCompletion (p : PostRef) (s : State) : Host.Outcome State Fault Refusal :=
  onDev s (fun env dev =>
    match taskAt dev p.eng p.ctx with
    | none => dev
    | some t =>
      match t.posts.find? (fun x => x.tag == p.tag && x.st == .finished) with
      | some x => deliver env t x dev
      | none => dev)

end Sys2Proof.Machine
end

