-- ==== Sys2Proof/Machine/Checks.lean ====
section
/-! DEFINITION. The dispatch table of the standard program set (R46, R518) and the checks a command meets before it
is dispatched: steps 1 and 2 of R173. -/

namespace Sys2Proof.Machine

/-- Keyless opcodes of the standard program set: FLUSH, BATCH and every administration opcode (R135, R393). -/
def stdNokey (opc : Nat) : Bool := opc == 0x0B || opc == 0x0E || 0x40 ≤ opc

/-- Work classes of R518. -/
def stdClass (opc : Nat) : Nat :=
  if 0x40 ≤ opc then 2
  else if opc = 0x0B then 4
  else if opc = 0x02 || opc = 0x04 || opc = 0x06 || opc = 0x0A || opc = 0x0D then 5
  else 3

/-- The opcodes the standard program set serves (R46). -/
def stdOpcode (opc : Nat) : Bool := (1 ≤ opc && opc ≤ 0x0E) || (0x40 ≤ opc && opc ≤ 0x54)

/-- The 16 bytes of a dispatch table entry (R45). -/
def entryBytes (opc : Nat) (e : DEntry) : List Byte :=
  natLe 1 opc ++ natLe 1 (b2n e.valid + 2 * b2n e.user + 4 * b2n e.admin + 8 * b2n e.nokey) ++ natLe 1 e.wclass ++
  natLe 1 0 ++ natLe 4 e.entry.toNat ++ natLe 2 e.program.toNat ++ natLe 2 0 ++ natLe 4 e.est

/-- The entry of an opcode in a table in the layout of R45; one whose OPC is not its index serves nothing. -/
def entryAt (table : List Byte) (opc : Nat) : DEntry :=
  let b := slice table (16 * opc) 16
  let fl : Byte := BitVec.ofNat 8 (leAt b 1 1)
  { valid := bitOf fl 0 && leAt b 0 1 == opc, user := bitOf fl 1, admin := bitOf fl 2, nokey := bitOf fl 3,
    wclass := leAt b 2 1, entry := w32 (leAt b 4 4), program := BitVec.ofNat 16 (leAt b 8 2), est := leAt b 12 4 }

/-- The entry of an opcode of the standard program set in the table of the image shipped with a version (R46, R518). -/
def shippedEntry (version : Word) (opc : Nat) : DEntry :=
  { valid := true, admin := 0x40 ≤ opc, nokey := stdNokey opc, wclass := stdClass opc,
    entry := Config.entry version (BitVec.ofNat 8 opc), est := (Config.est version (BitVec.ofNat 8 opc)).toNat }

/-- The entry of an opcode of the standard program set: the running image's (R45, R411, R518). -/
def stdEntry (d : Dev) (opc : Nat) : DEntry :=
  match d.sec.run with
  | some i => if i.table.isEmpty then shippedEntry i.version opc else entryAt i.table opc
  | none => shippedEntry 0 opc

/-- The dispatch table entry of an opcode (R45, R46). -/
def entryOf (d : Dev) (opc : Nat) : DEntry :=
  if stdOpcode opc then stdEntry d opc else tblGetD d.mea.dispatch opc {}

/-- Work the drive makes for itself: internal and timer arrivals (R48). -/
def Arrival.ownWork (a : Arrival) : Bool := a.kind == .internal || a.kind == .timer

/-- Work class and EST of an arrival: its dispatch entry's, or those of the drive's own work (R45, R357). -/
def arrClass (d : Dev) (a : Arrival) : Nat := if a.ownWork then a.work else (entryOf d (capOpc a.capsule)).wclass
def arrEst (d : Dev) (a : Arrival) : Nat :=
  if a.ownWork then (Config.internalEst a.work).toNat else (entryOf d (capOpc a.capsule)).est

/-- Where a command comes from: its kind, SQID or flow id, and for a loopback command its parent's program, whether the
parent is a hook task, and the length of the parent's value buffer (R61). -/
structure Src where
  kind : Kind
  id : Nat
  program : BitVec 16 := 0
  hookParent : Bool := false
  bufLen : Nat := 0

/-- A status and RESULT a command completes with. -/
abbrev Verdict := Byte × Word

/-- Opcodes that read and that write a keyspace (R291). -/
def isRead (opc : Nat) : Bool := [0x02, 0x04, 0x06, 0x0A, 0x0D].contains opc
def isWrite (opc : Nat) : Bool := [0x01, 0x03, 0x05, 0x07, 0x08, 0x09, 0x0C].contains opc

/-- A flow's rights allow an opcode on a keyspace (R291). -/
def flowAllows (d : Dev) (id opc ksid : Nat) : Bool :=
  match flowOf d id with
  | none => false
  | some fl =>
    if 0x40 ≤ opc && opc ≤ 0x54 then fl.owner
    else if isRead opc then fl.owner || bitOf fl.rd ksid || (ksOf d ksid).chainOpen
    else if isWrite opc then fl.owner || bitOf fl.wr ksid || (ksOf d ksid).chainOpen
    else true

/-- A keyspace is granted to a program (R60, R61). -/
def granted (d : Dev) (program : BitVec 16) (ksid : Nat) : Bool :=
  match tblGet d.mea.programs program.toNat with
  | some p => bitOf p.grants ksid
  | none => program == 0

/-- A range of a loopback capsule lies in the parent's value buffer; an empty one names nothing (R61). -/
def inBuf (src : Src) (off len : Nat) : Bool := len == 0 || off + len ≤ src.bufLen

/-- VALUE_PTR names a buffer of VALUE_LEN bytes for this opcode (R139). -/
def hasBuffer (c : V512) : Bool :=
  let o := capOpc c
  !(o == 0x03 || o == 0x08 || o == 0x0B || (o == 0x09 && bitOf c 48))

/-- The ranges a loopback capsule names lie in the parent's value buffer (R61, R522). -/
def loopRanges (src : Src) (c : V512) : Bool :=
  (!hasBuffer c || inBuf src (capPtr c) (capLen c)) &&
  (capInline c || inBuf src (cap c 32 8) (capKlen c)) &&
  (capOpc c != 0x0E || inBuf src (capOff c) (capOpts c * 16))

/-- What the loader of RECOVERY serves (R410). -/
def recoveryServes (opc : Nat) : Bool := [0x40, 0x41, 0x43, 0x45, 0x46, 0x47, 0x53].contains opc

/-- Opcodes whose entry has ADMIN set come from queues 0–15 and from flows opened with an owner credential (R46). -/
def adminSrc (d : Dev) (src : Src) : Bool :=
  match src.kind with
  | .host => src.id ≤ 15
  | .act => (match flowOf d src.id with | some fl => fl.owner | none => false)
  | _ => true

/-- Step 1 of R173: opcode, privilege and quarantine (R46, R67, R291, R410, R522). -/
def check1 (d : Dev) (src : Src) (c : V512) : Option Verdict :=
  let opc := capOpc c
  let e := entryOf d opc
  if d.sec.recovery && !recoveryServes opc then some (scInvalidOpcode, 0)
  else if src.kind == .loop && (src.hookParent || !(1 ≤ opc && opc ≤ 0x0E)) then some (scPrivilege, 0)
  else if !e.valid then some (scInvalidOpcode, 0)
  else if e.admin && !adminSrc d src then some (scPrivilege, 0)
  else if src.kind == .act && !flowAllows d src.id opc (capKsid c) then some (scPrivilege, 0)
  else if src.kind == .loop && opc != 0x0B && opc != 0x0E && !granted d src.program (capKsid c) then some (scPrivilege, 0)
  else if src.kind == .loop && !loopRanges src c then some (scPrivilege, 0)
  else match tblGet d.mea.programs e.program.toNat with
    | some p => if p.quarantined then some (scProgramFault, faultResult fQuarantined e.program) else none
    | none => none

/-- A range of a capsule is zero (R10). -/
def zero (c : V512) (off n : Nat) : Bool := cap c off n == 0

/-- Key fields of a keyed opcode (R109, R110, R139); `roi` keeps bytes 40–63 for itself. -/
def keyOk (c : V512) (roi : Bool) : Bool :=
  let k := capKlen c
  1 ≤ k && (if capInline c then k ≤ 32 && fld c (8 * (32 + k)) (8 * (32 - k)) == 0 else roi || zero c 40 24)

/-- Key fields of LIST, which accepts KLEN 0 (R135, R139). -/
def listKeyOk (c : V512) : Bool := if capKlen c = 0 then zero c 32 32 else keyOk c false

/-- OPTS has no bit outside a mask, and COMPRESS is not 3 (R140). -/
def optsOk (c : V512) (mask : Nat) : Bool :=
  capOpts c &&& (0xFFFF - mask) == 0 && !(mask &&& 12 != 0 && fld c 50 2 == 3)

/-- No data: VALUE_PTR, VALUE_LEN and SGL are RES0. -/
def noData (c : V512) : Bool := zero c 8 16 && !capSgl c

/-- SGL needs a VALUE_PTR that is a multiple of 16 (R110). -/
def sglOk (c : V512) : Bool := !capSgl c || capPtr c % 16 == 0

/-- The field checks of a key-value opcode (R135, R139, R140, R150, R181, R197). -/
def kvFieldsOk (d : Dev) (c : V512) : Bool :=
  let opts := capOpts c
  let len := capLen c
  match capOpc c with
  | 0x01 => keyOk c false && optsOk c 15 && opts % 4 != 3 && zero c 24 8 && sglOk c
  | 0x02 => keyOk c false && opts == 0 && zero c 24 8 && sglOk c
  | 0x03 => keyOk c false && optsOk c 1 && noData c && zero c 28 4 && (opts % 2 == 1 || zero c 24 4)
  | 0x04 => keyOk c false && opts == 0 && zero c 24 8 && (len == 0 || 32 ≤ len) && sglOk c
  | 0x05 => keyOk c false && optsOk c 15 && (opts % 2 == 1 || zero c 24 8) && 1 ≤ len && sglOk c
  | 0x06 => keyOk c false && opts == 0 && len ≤ 0xFFFFFFFF && sglOk c
  | 0x07 => keyOk c false && optsOk c 13 && 1 ≤ len && sglOk c
  | 0x08 => keyOk c false && opts == 0 && zero c 8 8 && !capSgl c && 1 ≤ len
  | 0x09 => keyOk c false && optsOk c 13 && zero c 28 4 && sglOk c &&
      (opts % 2 == 0 || (noData c && !zero c 24 4))
  | 0x0A => listKeyOk c && opts == 0 && 4096 ≤ len && len ≤ 2 ^ 24 && capPtr c % 8 == 0 && sglOk c
  | 0x0B => capKlen c == 0 && !capInline c && zero c 4 1 && opts == 0 && zero c 24 40 && noData c
  | 0x0C => keyOk c false && optsOk c 3 && opts != 3 && zero c 24 8 && sglOk c &&
      (if (d.mea.programs.any (fun p => !p.2.unloading && p.2.hooks.any (fun h => h.1 == 1 && h.2.1 == capKsid c)))
       then 1 ≤ len else 65 ≤ len)
  | 0x0D => keyOk c true && !capInline c && !capSgl c && opts == 0 && zero c 24 8 && fld c 340 12 == 0 &&
      cap c 56 2 ≤ 4095 && zero c 58 6
  | 0x0E => capKlen c == 0 && !capInline c && zero c 4 1 && zero c 32 32 && 1 ≤ opts && opts ≤ 64 &&
      len == opts * 64 && capOff c % 16 == 0 && sglOk c
  | _ => true

/-- A length the capsule gives is beyond 16 GiB (R133). -/
def kvTooLarge (c : V512) : Bool :=
  match capOpc c with
  | 0x01 | 0x05 | 0x09 | 0x0C => Config.maxValue < capLen c
  | 0x07 | 0x08 => Config.maxValue < capOff c + capLen c
  | _ => false

/-- FID ranges of FEATURE_SET, with the FIDs whose value the command ignores (R398). -/
def featureOk (d : Dev) (set : Bool) (fid v : Nat) : Bool :=
  match fid with
  | 1 => !set || (1 ≤ v && v ≤ 240)
  | 2 | 7 => !set || v ≤ 1
  | 3 => v ≤ 255 && (!set || (ksOf d v).exist)
  | 4 => true
  | 5 => !set || (250 ≤ v && v ≤ 25000)
  | 6 => !set || v ≤ 8760
  | _ => false

/-- Administration commands that move data; the rest carry none (R393). -/
def adminData (c : V512) : Bool :=
  let sub := capOpts c
  match capOpc c with
  | 0x40 | 0x41 | 0x45 | 0x49 | 0x53 => true
  | 0x4D => sub == 0
  | 0x4F => bitOf c 48
  | 0x52 => sub == 0
  | _ => false

/-- The field checks of an administration opcode (R105–R107, R125, R389, R393–R395, R398, R400, R402–R404, R409,
R413–R415, R422, R435). `own` is the SQID of the queue that carries it. Bytes 6–7 of PROGRAM_LOAD, KEYSPACE_DELETE,
KEYSPACE_ERASE and ATTEST, which R109 calls opcode-specific and no rule uses, must be zero (DESIGN CHOICE, log 137). -/
def adminFieldsOk (d : Dev) (own : Option Nat) (c : V512) : Bool :=
  let sub := capOpts c
  let len := capLen c
  let off := capOff c
  let b6 := cap c 6 1
  let b7 := cap c 7 1
  let ks0 := zero c 4 1
  let off0 := zero c 24 8
  let tail0 := zero c 32 32
  let plain := ks0 && off0 && tail0
  capKlen c == 0 && !capInline c &&
  (if capOpc c == 0x4B then true
   else if adminData c && len != 0 then sglOk c else noData c) &&
  match capOpc c with
  | 0x40 => plain && b6 ≤ 1 && b7 == 0 && 1 ≤ len && !(d.sec.recovery && b6 == 1)
  | 0x41 => ks0 && tail0 && 1 ≤ b6 && b6 ≤ 6 && b7 ≤ (if b6 = 2 then 1 else 0) && off % 4 == 0 && len % 4 == 0 &&
      4 ≤ len && len ≤ 2 ^ 24 && !(d.sec.recovery && (b6 == 1 || b6 == 2 || b6 == 6))
  | 0x42 => ks0 && cap c 32 1 ≤ 1 && zero c 33 31 && featureOk d true sub off
  | 0x43 => ks0 && tail0 && featureOk d false sub off && (sub == 3 || off0)
  | 0x44 => plain && (sub == 1 || sub == 2 || sub == 0xF)
  | 0x45 => ks0 && tail0 && sub ≤ 1 && off % 4 == 0 && len % 4 == 0 && 4 ≤ len && len ≤ 2 ^ 22 && off + len ≤ 2 ^ 25
  | 0x46 | 0x48 => plain && sub == 0
  | 0x47 => ks0 && tail0 && b6 ≤ 1 && b7 == 0 && zero c 28 4 && (off == 0 || (60 ≤ off && off ≤ 86400)) &&
      !(d.sec.recovery && b6 == 0)
  | 0x49 => plain && sub == 0
  | 0x4A => plain
  | 0x4B => ks0 && fld c 9 4 == 0 && 1 ≤ sub && cap c 8 8 % 4096 == 0 && cap c 16 8 % 4096 == 0 &&
      2 ≤ cap c 24 4 && cap c 24 4 ≤ 65536 && cap c 28 2 ≤ 2047 && cap c 30 1 ≤ 7 && zero c 31 1 &&
      cap c 32 2 ≤ 4095 && zero c 38 26
  | 0x4C => plain && sub != 0 && own != some sub
  | 0x4D => plain && sub ≤ 2 && (sub != 0 || (len % 16 == 0 && 16 ≤ len))
  | 0x4E => ks0 && 1 ≤ b6 && b6 ≤ 3 && b7 == 0 && cap c 32 4 == 0x4C434B41 && zero c 36 28
  | 0x4F => off0 && tail0 && b6 ≤ 15 && (fld c 50 2 == 1 || fld c 50 2 == 2) && b7 == 0 &&
      len == (if bitOf c 48 then 32 else 0)
  | 0x50 | 0x51 => off0 && tail0 && sub == 0
  | 0x52 => off0 && tail0 && sub ≤ 1 && len == (if sub = 0 then 32 else 0)
  | 0x53 => ks0 && off0 && sub == 0 && 1 ≤ len
  | 0x54 => plain && b6 ≤ 2 && b7 ≤ (if b6 = 2 then 1 else 0)
  | _ => true

/-- The checks R109, R110 and R135 make of every opcode, the user programs' included. -/
def commonOk (d : Dev) (c : V512) : Bool :=
  !capGroup c && sglOk c && (!capInline c || capKlen c ≤ 32) &&
  (stdOpcode (capOpc c) ||
    (((entryOf d (capOpc c)).nokey || 1 ≤ capKlen c) &&
     (!capInline c || fld c (8 * (32 + capKlen c)) (8 * (32 - capKlen c)) == 0)))

/-- The command names a keyspace, which has to exist (R132, R135). -/
def namesKeyspace (opc : Nat) : Bool := 1 ≤ opc && opc ≤ 0x0D && opc != 0x0B

/-- A chain client's pointers are 0 and SGL is clear (R299); a loopback capsule's SGL is clear (R61). -/
def sourceOk (src : Src) (c : V512) : Bool :=
  match src.kind with
  | .act => !capSgl c && (!(hasBuffer c && capOpc c != 0x4B) || zero c 8 8) &&
      (capInline c || (capKlen c == 0 || zero c 32 8)) && (capOpc c != 0x0E || zero c 24 8)
  | .loop => !capSgl c
  | _ => true

/-- The part of step 2 of R173 that needs only the entry. -/
def check2 (d : Dev) (src : Src) (c : V512) : Option Verdict :=
  let opc := capOpc c
  if !commonOk d c || !sourceOk src c then some (scInvalidField, 0)
  else if opc < 0x40 then
    if !kvFieldsOk d c || (namesKeyspace opc && !(ksOf d (capKsid c)).exist) then some (scInvalidField, 0)
    else if kvTooLarge c then some (scTooLarge, 0)
    else none
  else if opc < 0x80 then
    if adminFieldsOk d (if src.kind == .host then some src.id else none) c then none else some (scInvalidField, 0)
  else none

/-- Steps 1 and 2 of R173 on the entry alone. -/
def checkEntry (d : Dev) (src : Src) (c : V512) : Option Verdict :=
  match check1 d src c with
  | some v => some v
  | none => check2 d src c

/-- Entries of a scatter list up to VALUE_LEN; none where an entry breaks R110 (length 0, RES0 set, the sum passes
VALUE_LEN, or more than n entries). -/
def walkSgl : Nat → Nat → List Byte → Option (List (Nat × Nat))
  | _, 0, _ => some []
  | 0, _, _ => none
  | n + 1, need, bs =>
    let len := leAt bs 8 4
    if bs.length < 16 || len = 0 || leAt bs 12 4 ≠ 0 || need < len then none
    else (walkSgl n (need - len) (bs.drop 16)).map (fun r => (leAt bs 0 8, len) :: r)

/-- The value buffer's segments of a host command (R110): one, or those its scatter list names. -/
def bufferOf (c : V512) (sgl : List Byte) : Option (List (Nat × Nat)) :=
  if capSgl c then walkSgl 65536 (capLen c) sgl
  else some (if capLen c = 0 then [] else [(capPtr c, capLen c)])

/-- The key bytes of a capsule whose key is inline. -/
def inlineKey (c : V512) : List Byte := ((v512Bytes c).drop 32).take (capKlen c)

/-- The opcode's key has to be fetched from where KEY_PTR points. -/
def needsKey (d : Dev) (c : V512) : Bool := !(entryOf d (capOpc c)).nokey && !capInline c && capKlen c != 0

end Sys2Proof.Machine
end

