-- ==== Sys2Proof/Machine/Headbox.lean ====
section
/-! DEFINITION. The headbox (02): dispatch of arrivals, hooks, and affinity groups under migration. -/

namespace Sys2Proof.Machine

/-- KIND codes (R48). -/
def kindCode (k : Kind) : Nat :=
  match k with
  | .host => 1
  | .act => 2
  | .loop => 3
  | .hook => 4
  | .timer => 5
  | .internal => 6

/-- An affinity group's placement; at reset group g stands on vat g mod 12 (R57). -/
def groupOf (d : Dev) (g : Nat) : Group := tblGetD d.mea.groups g { vat := g % 12 }

/-- Change a group. -/
def updGroup (g : Nat) (f : Group → Group) (d : Dev) : Dev :=
  { d with mea := { d.mea with groups := tblUpd d.mea.groups g { vat := g % 12 } f } }

/-- The arrival block (R48). -/
def arrivalBlock (kind : Kind) (prio source group epoch tick : Nat) (hash : Word) (stage stageLen : Nat)
    (capsule : V512) : List Byte :=
  natLe 1 (kindCode kind) ++ natLe 1 prio ++ natLe 2 source ++ natLe 2 group ++ natLe 2 epoch ++ natLe 8 tick ++
  natLe 8 hash.toNat ++ natLe 8 stage ++ natLe 4 stageLen ++ List.replicate 28 0 ++ v512Bytes capsule

/-- A task of a loopback or of internal work, for which one context of each engine is kept (R36). -/
def reserveKind (k : Kind) : Bool := k == .loop || k == .timer || k == .internal

/-- A context may take a task: it is FREE, and tasks of other kinds than the reserve's hold 63 of the engine's contexts at
most (R36). Which of the 64 contexts is the one kept the manual leaves open: any one is (DESIGN CHOICE, log 138). -/
def ctxFree (d : Dev) (t : TaskRef) (reserve : Bool) : Bool :=
  t.eng < 96 && t.ctx < 64 && (taskOf d t).isNone &&
  (reserve || (d.mea.tasks.filter (fun x => x.eng == t.eng && !reserveKind x.kind)).length < 63)

/-- The context stands on the vat of the group; internal and timer work may go to any (R57). -/
def vatOk (d : Dev) (t : TaskRef) (group : BitVec 16) : Bool :=
  group == 0xFFFF || (groupOf d group.toNat).vat == t.eng / 8

/-- Two arrivals, or an arrival and a task, belong to one queue or flow (R47, R61, R158). -/
def sameQueue (a : Arrival) (kind : Kind) (source : BitVec 16) (parent : Option PostRef) : Bool :=
  a.kind == kind && a.source == source &&
  (kind != .loop || (a.parent.map (fun p => (p.eng, p.ctx))) == (parent.map (fun p => (p.eng, p.ctx))))

/-- A task has completed its command. -/
def Task.completed (t : Task) : Bool := t.st == .draining

/-- The command takes a slot lock of its own (R158). -/
def takesLock (opc : Nat) : Bool := namesKeyspace opc && opc != 0x0A

/-- The task has acquired its slot lock, be it that a split write has released it between two pieces since. -/
def Task.acquired (t : Task) : Bool :=
  match t.job.lock with
  | .held _ => true
  | .dropped => true
  | _ => decide (0 < t.job.done)

/-- Earlier arrivals of the queue and priority go first (R47); ORDERED holds its command back until every earlier one
has completed, and later ones until it has acquired its lock (R158). -/
def orderOk (d : Dev) (a : Arrival) : Bool :=
  d.mea.arrivals.all (fun b => !(b.no < a.no && sameQueue a b.kind b.source b.parent &&
      (b.prio == a.prio || b.ordered || a.ordered))) &&
  d.mea.tasks.all (fun t => !(t.arrNo < a.no && t.kind != .hook && sameQueue a t.kind t.source t.parent &&
      !t.completed && (a.ordered || (capOrdered t.capsule && !(takesLock (capOpc t.capsule) && t.acquired)))))

/-- The group's migration lets the arrival go: its hash has matched no slot lock of an old-epoch task, and a BATCH waits
for the group to drain (R57). -/
def epochOk (d : Dev) (a : Arrival) (hash : Word) : Bool :=
  a.group == 0xFFFF || !(groupOf d a.group.toNat).draining ||
  (capOpc a.capsule != 0x0E && !a.epochHeld && !epochMatch d a.group hash)

/-- The arrival's hash is compared: one that matches waits until the group is drained, the lock's release
notwithstanding (R57). -/
def noteEpoch (a : Arrival) (hash : Word) (d : Dev) : Dev :=
  if epochMatch d a.group hash && !a.epochHeld then updArrival a.no (fun x => { x with epochHeld := true }) d else d

/-- A firmware activation lets the arrival go: work accepted before it, no internal or timer work (R417). -/
def activationOk (d : Dev) (a : Arrival) : Bool :=
  match d.sec.activating with
  | none => true
  | some x =>
    match a.kind with
    | .act => decide (a.tick < x.2.1)
    | .timer | .internal => false
    | _ => true

/-- Chain commands held through an activation go before all other work but a task's own loopback commands (R417). -/
def heldTurn (d : Dev) (a : Arrival) : Bool :=
  a.kind == .loop || (match d.mea.heldFirst.find? (fun n => d.mea.arrivals.any (fun x => x.no == n)) with
    | some n => a.no == n
    | none => true)

/-- A hook a program holds on a keyspace: PROGRAM_ID, program and entry (R62). -/
def hookFor (d : Dev) (hook ksid : Nat) : Option (Nat × Program × Nat) :=
  match d.mea.programs.find? (fun p => !p.2.unloading && p.2.hooks.any (fun h => h.1 == hook && h.2.1 == ksid)) with
  | none => none
  | some p => (p.2.hooks.find? (fun h => h.1 == hook && h.2.1 == ksid)).map (fun h => (p.1, p.2, h.2.2))

/-- PLACEMENT and ADMISSION run for the command (R519). -/
def hooked (a : Arrival) : Bool :=
  (a.kind == .host || a.kind == .act) &&
  (let o := capOpc a.capsule; 1 ≤ o && o ≤ 0x0D && o != 0x0B)

/-- The arrival's key is complete (R47). -/
def keyReady (d : Dev) (a : Arrival) : Bool := !needsKey d a.capsule || capKlen a.capsule ≤ a.key.length

/-- Where an arrival comes from, for the checks of step 1. -/
def arrivalSrc (d : Dev) (a : Arrival) : Src :=
  { kind := a.kind, id := a.source.toNat, program := a.program,
    bufLen := match a.parent with
      | some p => (match taskAt d p.eng p.ctx with | some t => segsLen t.sgl | none => 0)
      | none => 0 }

/-- Put a fresh task into a context: registers as R37 states, its frame written whole with the arrival block and the key
(R41, R48). -/
def startTask (env : Env) (t : Task) (stage stageLen : Nat) (hash : Word) (d : Dev) : Dev :=
  let block := arrivalBlock t.kind t.prio t.source.toNat t.group.toNat t.epoch.toNat t.accTick hash stage stageLen t.capsule
  let frame := memStore (memStore [] 0 block) 0x80 (t.key.take 255)
  let n := nextStamp d
  let t' := { t with st := .ready, dispTick := env.tick, readyAt := n.1, frame := frame,
                     s := vset (Vector.replicate 32 0) 2 (BitVec.ofNat 64 (taskId t.eng t.ctx)) }
  let own (w : Nat) : Bool := lsWord t 0 ≤ w && w ≤ lsWord t 0xBFF
  let d1 := chargeEst t.wclass t.est { n.2 with mea := { n.2.mea with
    tasks := n.2.mea.tasks ++ [t'], badWords := n.2.mea.badWords.filter (fun w => !own w) } }
  schedule env t.eng d1

/-- The key hash an arrival carries; zero when no key is fetched (R48). -/
def arrivalHash (a : Arrival) (nokey : Bool) : Word :=
  if nokey then 0 else keyHash (BitVec.ofNat 8 (capKsid a.capsule)) a.key

/-- A write that may create its key (R140, R142, R146, R148, R150, R182). -/
def mayCreate (c : V512) : Bool :=
  match capOpc c with
  | 0x01 | 0x0C => true
  | 0x05 => !bitOf c 49
  | 0x07 => bitOf c 48
  | 0x09 => !bitOf c 48
  | _ => false

/-- Reads take the lock past a write reservation (R157). -/
def lockReads (opc : Nat) : Bool := opc == 0x02 || opc == 0x04 || opc == 0x06 || opc == 0x0D

/-- Request the slot lock of a command at its dispatch (R155): granted at once when nothing stands before it. -/
def requestLock (env : Env) (t : Task) (hash : Word) (d : Dev) : LockSt × Dev :=
  let ksid := BitVec.ofNat 8 (capKsid t.capsule)
  let d0 := countProbe ksid hash t.key d
  let found := match findSlot d0 ksid hash t.key with
    | some x => some (x.1, d0)
    | none => if mayCreate t.capsule && !dirFull d0 then findOrInsert ksid hash t.key d0 else none
  match found with
  | none => (.none, d0)
  | some (n, d1) =>
    match slotAt d1 n with
    | none => (.none, d1)
    | some s =>
      if s.waiters.isEmpty && lockFree s t.owner (lockReads (capOpc t.capsule)) then (.held n, takeLock n t.owner d1)
      else
        let w : LockReq := ⟨t.owner, none, some (env.tick + 250000000), lockReads (capOpc t.capsule)⟩
        (.waiting n, updSlot n (fun s => { s with waiters := s.waiters ++ [w] }) d1)

/-- Answer an arrival without a task. -/
def rejectArrival (env : Env) (a : Arrival) (v : Verdict) (d : Dev) : Dev := answerArrival env a v.1 v.2 d

/-- Dispatch an arrival into a context with its staging buffer (R37, R47, R48). -/
def dispatchTo (env : Env) (a : Arrival) (r : TaskRef) (stage : Option (Nat × List Byte)) (d : Dev) : Dev :=
  let opc := capOpc a.capsule
  let e := entryOf d opc
  let internal := a.ownWork
  let hash := arrivalHash a (e.nokey || internal)
  let off := match stage with | some x => x.1 | none => 0
  let len := match stage with | some x => x.2.length | none => 0
  let d0 := match stage with
    | some x => { d with mea := { d.mea with fe := memStore d.mea.fe x.1 x.2 } }
    | none => d
  let t : Task :=
      { eng := r.eng, ctx := r.ctx, kind := a.kind, prio := (if internal then 7 else a.prio),
        source := a.source, group := a.group, epoch := (if a.group = 0xFFFF then 0 else (groupOf d a.group.toNat).epoch),
        wclass := arrClass d a, program := e.program, est := arrEst d a, capsule := a.capsule, key := a.key, sgl := a.sgl,
        accTick := a.tick, arrNo := a.no, hostGen := a.hostGen, pc := e.entry, parent := a.parent,
        opSrc := a.opSrc, opFlow := a.opFlow, regions := (if len = 0 then [] else [⟨1, off, len⟩]),
        job := { lockDue := env.tick + 250000000 } }
  let lk := if takesLock opc && stdOpcode opc then requestLock env t hash d0 else (LockSt.none, d0)
  let d1 := if a.kind == .act then releaseInbound a.source.toNat a.no (stdOpcode opc) (throttledGroup d a.group.toNat) lk.2 else lk.2
  startTask env { t with job := { t.job with lock := lk.1 } } (if len = 0 then 0 else 2 ^ 60 + off) len hash
    (dropArrival a d1)

/-- Invoke a hook for an arrival in a context (R62). TICK of its arrival block is the tick at which the command that
invoked it was accepted: when a hook invocation itself is accepted the manual leaves open (R48; DESIGN CHOICE, log 118).
A hook binding carries no EST (R405): the invocation's EST is 0 (DESIGN CHOICE, log 139). -/
def startHook (env : Env) (a : Arrival) (r : TaskRef) (hook : Nat) (p : Nat × Program × Nat) (mem : Option Nat) (d : Dev) :
    Dev :=
  let t : Task :=
      { eng := r.eng, ctx := r.ctx, kind := .hook, prio := a.prio, source := BitVec.ofNat 16 hook,
        group := a.group, epoch := (groupOf d a.group.toNat).epoch, wclass := p.2.1.wclass, program := BitVec.ofNat 16 p.1,
        capsule := a.capsule, key := a.key, accTick := a.tick, arrNo := a.no, pc := w32 p.2.2, hookOf := some a.no, mem := mem }
  startTask env t 0 0 (keyHash (BitVec.ofNat 8 (capKsid a.capsule)) a.key) d

/-- What stands between an arrival and its dispatch: a verdict, a hook to run, or nothing (R62, R63, R132, R173, R403). -/
inductive Gate where
  | reject (v : Verdict)
  | hook (n : Nat) (p : Nat × Program × Nat)
  | wait
  | go
  deriving DecidableEq, Repr

/-- The hooks PLACEMENT and ADMISSION on a keyspace, by which of them has run; a quarantined PLACEMENT is passed over, and
a quarantined ADMISSION turns the command away (R62, R63, R67). -/
def hookGate (d : Dev) (k : Nat) (h : HookSt) : Gate :=
  let admission : Gate := match hookFor d 3 k with
    | some q => if q.2.1.quarantined
        then .reject (scProgramFault, faultResult fQuarantined (BitVec.ofNat 16 q.1)) else .hook 3 q
    | none => .go
  match h with
  | .todo =>
    (match hookFor d 2 k with
    | some p => if p.2.1.quarantined then admission else .hook 2 p
    | none => admission)
  | .placed => admission
  | .admitted => .go
  | _ => .wait

/-- Keyspace and lock state, then the hooks, in the order of R173. -/
def gate (d : Dev) (a : Arrival) : Gate :=
  let opc := capOpc a.capsule
  let ks := ksOf d (capKsid a.capsule)
  match check1 d (arrivalSrc d a) a.capsule with
  | some v => .reject v
  | none =>
    if namesKeyspace opc && stdOpcode opc && !ks.exist then .reject (scInvalidField, 0)
    else if namesKeyspace opc && stdOpcode opc && ks.encrypted && ks.locked then .reject (scKeyspaceLocked, 0)
    else if !hooked a then .go
    else hookGate d (capKsid a.capsule) a.hook

/-- The first member of a BATCH whose next hook may start: its number, the hook and its program. The hooks of a chain's or a
host queue's BATCH run for each member (R519). -/
def memberHookDue (d : Dev) (t : Task) : Option (Nat × Member × Nat × (Nat × Program × Nat)) :=
  if t.kind != .host && t.kind != .act then none
  else (t.members.zipIdx).findSome? (fun x =>
    if x.1.verdict.isSome then none
    else match hookGate d (capKsid x.1.capsule) x.1.hook with
      | .hook n p => some (x.2, x.1, n, p)
      | _ => none)

/-- The headbox starts the next hook of a BATCH's members (R62, R519). -/
def startMemberHook (env : Env) (no : Nat) (r : TaskRef) (d : Dev) : Dev :=
  match d.mea.tasks.find? (fun t => t.arrNo == no && capOpc t.capsule == 0x0E && t.kind != .hook) with
  | none => d
  | some t =>
    match memberHookDue d t with
    | none => d
    | some (i, m, n, p) =>
      if ctxFree d r false && vatOk d r t.group && fits d p.2.1.wclass 0 && env.pw.st == .active && env.pw.resetStep.isNone then
        startHook env { no := t.arrNo, kind := t.kind, capsule := m.capsule, source := t.source, group := t.group, prio := t.prio,
                        tick := t.accTick, key := m.key } r n p (some i)
          (updMember t.eng t.ctx i (fun m => { m with hook := if n = 2 then .placing else .admitting }) d)
      else d

/-- Dispatch a waiting arrival into a context when R47 lets it go: its turn, its keyspace, its hooks, a free context on
its vat, and its EST within the funding. Internal and timer work passes no check of a command's fields. -/
def tryDispatch (env : Env) (no : Nat) (r : TaskRef) (stage : Option (Nat × List Byte)) (d : Dev) : Dev :=
  match d.mea.arrivals.find? (fun a => a.no == no) with
  | none => startMemberHook env no r d
  | some a =>
    let internal := a.ownWork
    let e := entryOf d (capOpc a.capsule)
    let hash := arrivalHash a (e.nokey || internal)
    if !(keyReady d a && orderOk d a && epochOk d a hash && activationOk d a && heldTurn d a && (env.pw.st == .active || env.pw.st == .recovery) &&
         env.pw.resetStep.isNone) then noteEpoch a hash d
    else match (if internal then Gate.go else gate d a) with
      | .reject v => rejectArrival env a v d
      | .wait => d
      | .hook n p =>
        if ctxFree d r false && vatOk d r a.group && fits d p.2.1.wclass 0 then
          startHook env a r n p none
            (updArrival a.no (fun a => { a with hook := if n = 2 then .placing else .admitting }) d)
        else d
      | .go =>
        if ctxFree d r (a.kind == .loop || internal) && vatOk d r a.group && fits d (arrClass d a) (arrEst d a)
        then dispatchTo env a r stage d else d

/-- ARRIVAL_DISPATCH: the headbox places an arrival in a context (R47), or the hook task of a BATCH's member when the number
is that of a BATCH being served (R519). -/
def execArrivalDispatch (arrival : Nat) (t : TaskRef) (s : State) : Host.Outcome State Fault Refusal :=
  onDev s (fun env d => tryDispatch env arrival t none d)

/-- USER_COMMAND: an opcode 0x80–0xFF dispatches a task of the bound program, with the staging buffer the drive gives
it (R48, R173; log 10). -/
def execUserCommand (arrival : Nat) (t : TaskRef) (stage : Option (Nat × List Byte)) (s : State) :
    Host.Outcome State Fault Refusal :=
  onDev s (fun env d =>
    match d.mea.arrivals.find? (fun a => a.no == arrival) with
    | some a => if 0x80 ≤ capOpc a.capsule then tryDispatch env arrival t stage d else d
    | none => d)

/-- The group has drained: none of its arrivals is held back for it any longer (R57). -/
def groupDrained (group : Nat) (d : Dev) : Dev :=
  let d1 := updGroup group (fun g => { g with draining := false }) d
  { d1 with mea := { d1.mea with arrivals := d1.mea.arrivals.map (fun a =>
    if a.group.toNat = group then { a with epochHeld := false } else a) } }

/-- GROUP_DRAINED: no old-epoch task of the group remains outside FREE (R57). -/
def execGroupDrained (group : Nat) (s : State) : Host.Outcome State Fault Refusal :=
  onDev s (fun _ d =>
    let g := groupOf d group
    if g.draining && !(d.mea.tasks.any (fun t => t.group == BitVec.ofNat 16 group && t.epoch != g.epoch))
    then groupDrained group d else d)

/-- A new arrival joins those waiting, its hash compared at once (R47, R57). -/
def joinArrival (a : Arrival) (d : Dev) : Dev :=
  noteEpoch { a with no := d.mea.nextArrival } (arrivalHash a (entryOf d (capOpc a.capsule)).nokey) (addArrival a d)

/-- Every waiting arrival of a group is compared with the locks of its old epoch (R57). -/
def noteEpochs (g : Nat) (d : Dev) : Dev :=
  (d.mea.arrivals.filter (fun a => a.group.toNat == g)).foldl (fun d a =>
    noteEpoch a (arrivalHash a (entryOf d (capOpc a.capsule)).nokey) d) d

/-- A migration of a group to a vat begins (R57, R58, R374): its epoch rises and the event is written. -/
def migrate (env : Env) (g vat : Nat) (host : Bool) (d : Dev) : Dev :=
  let old := groupOf d g
  let d1 := updGroup g (fun x => { x with vat := vat, epoch := x.epoch + 1, draining := true }) d
  event env 0x0609 0 clsHardware old.vat g (old.vat + vat * 16 + 256 * b2n host)
    (old.epoch + 1).toNat (noteEpochs g d1)

/-- LS_SCRUB_ERROR: the drive's scrub finds a double-bit error; the word is bad until it is next written (R41). -/
def execLsScrubError (eng : Nat) (off : Nat) (s : State) : Host.Outcome State Fault Refusal :=
  onDev s (fun env d =>
    if 96 ≤ eng || 0x40000 ≤ off then d
    else
      let w := (eng * 0x40000 + off) / 8
      setCause env 5 0x10 { d with mea := { d.mea with
        badWords := if d.mea.badWords.contains w then d.mea.badWords else d.mea.badWords ++ [w] } })

end Sys2Proof.Machine
end

