-- ==== Sys2Proof/Machine/Hqe.lean ====
section
/-! DEFINITION. Host queues (04): doorbells, arbitration and fetch, coalescing, and what the link and the function's
configuration do to them. -/

namespace Sys2Proof.Machine

/-! ### Waking from DORMANT (R448) -/

/-- A wake cause of R448: an entry under way is abandoned and the drive stays ACTIVE; from DORMANT the exit begins. -/
def wakeDormant (cause : Nat) (env : Env) (d : Dev) : Env × Dev :=
  if env.pw.trans == .dormant then
    ({ env with pw := { env.pw with trans := .none, wakeCause := cause } },
     { d with hqe := { d.hqe with fetchStopped := d.hqe.shutdown }, xpt := { d.xpt with creditHeld := d.sec.activating.isSome } })
  else if env.pw.st == .dormant && env.pw.trans == .none then
    ({ env with pw := { env.pw with trans := .wakeup, wakeCause := cause } }, d)
  else (env, d)

/-! ### Doorbells (R114, R122) -/

/-- No copy of the loader has verified: the drive answers on the management bus alone (R387). -/
def loaderDead (d : Dev) : Bool := bitOf d.attn.holding 1

/-- A memory request reaches BAR0: the host side answers, the link is up, and the function is in D0 (R96, R387, R446, R521;
log 87). -/
def barAlive (env : Env) (d : Dev) : Bool :=
  hostAlive env && !d.hqe.d3hot && !d.hqe.perst && d.hqe.linkSpeed != 0 && !loaderDead d

/-- The states in which the link trains (R446, R521). -/
def linkTrains (env : Env) : Bool :=
  match env.pw.st with
  | .bringup | .active | .dormant | .recovery => true
  | _ => false

/-- A doorbell error: counted, DOORBELL_ERR, and its event. -/
def doorbellError (env : Env) (code : BitVec 16) (p0 p1 : Nat) (d : Dev) : Dev :=
  event env code 2 clsProtocol 0 p0 p1 0
    (hqeCause env 2 { d with hqe := { d.hqe with dbErrors := sat32 (d.hqe.dbErrors + 1) } })

/-- A wrong index for a pair that exists; while the pair is being deleted it is no error and is not counted (R108). -/
def pairError (env : Env) (p : Pair) (code : BitVec 16) (q v : Nat) (d : Dev) : Dev :=
  if p.deleting.isSome then d else doorbellError env code q v d

/-- SQ tail doorbell: the new tail, with its wake from DORMANT when it changes (R108, R122, R448). -/
def sqTail (q v : Nat) (env : Env) (d : Dev) : Env × Dev :=
  let i := v % 65536
  if !d.hqe.enabled || !barAlive env d then (env, d)
  else match pairOf d q with
    | none => (env, doorbellError env 0x0101 (0x100000 + q * 8) v d)
    | some p =>
      if p.size ≤ i then (env, pairError env p 0x0102 q v d)
      else if i = p.tail then (env, d)
      else wakeDormant 1 env (updPair q (fun p => { p with tail := i }) d)

/-- CQ head doorbell: completion slots are released, never more than were posted (R122). -/
def cqHead (q v : Nat) (env : Env) (d : Dev) : Dev :=
  let i := v % 65536
  if !d.hqe.enabled || !barAlive env d then d
  else match pairOf d q with
    | none => doorbellError env 0x0101 (0x100004 + q * 8) v d
    | some p =>
      let n := (i + p.size - p.cqHead) % p.size
      if p.size ≤ i then pairError env p 0x0102 q v d
      else if p.unreleased < n then pairError env p 0x0103 q v d
      else updPair q (fun p => { p with cqHead := i, unreleased := p.unreleased - n }) d

/-- SQ_TAIL_DOORBELL (R114). -/
def execSqTailDoorbell (q : BitVec 16) (v : W32) (s : State) : Host.Outcome State Fault Refusal :=
  onEnv s (sqTail q.toNat v.toNat)

/-- CQ_HEAD_DOORBELL (R114). -/
def execCqHeadDoorbell (q : BitVec 16) (v : W32) (s : State) : Host.Outcome State Fault Refusal :=
  onDev s (cqHead q.toNat v.toNat)

/-! ### Arbitration and fetch (R110, R115–R117) -/

/-- A pair has an entry to fetch and room for its completion (R107, R115, R123, and the group limit of R47). -/
def fetchable (d : Dev) (p : Pair) : Bool :=
  !p.failed && p.deleting.isNone && p.tail != p.head && p.outstanding + p.unreleased < p.size - 1 &&
  !throttledGroup d p.group

/-- The fetchable pair of a class that has gone longest without a turn. -/
def nextOfClass (d : Dev) (c : Nat) : Option Nat :=
  ((d.hqe.pairs.filter (fun x => x.2.cls == c && fetchable d x.2)).foldl
    (fun (acc : Option (Nat × Pair)) x => match acc with
      | none => some x
      | some a => some (if x.2.served < a.2.served then x else a)) none).map (·.1)

/-- Weights of HIGH, MEDIUM and LOW; 0 acts as 1 (R128). -/
def weightOf (d : Dev) (c : Nat) : Nat := max 1 (fld d.hqe.arb (8 * (c - 1)) 8)

/-- The first class of HIGH, MEDIUM, LOW with turns left and a pair to serve. -/
def classTurn (d : Dev) (turns : Vector Nat 4) : Option (Nat × Nat) :=
  [1, 2, 3].findSome? (fun c => if vget turns c 0 = 0 then none else (nextOfClass d c).map (fun q => (c, q)))

/-- The pair the next fetch serves, and the arbitration state with that turn begun (R117; log 11). A turn that has begun goes
on to the end of its burst though an URGENT queue has gained entries (DESIGN CHOICE, log 141). -/
def arbitrate (d : Dev) : Option (Nat × Dev) :=
  let h := d.hqe
  let burst := 2 ^ fld h.arb 24 3
  let begin_ (q : Nat) (turns : Vector Nat 4) : Option (Nat × Dev) :=
    some (q, updPair q (fun p => { p with served := h.turnNo + 1 })
      { d with hqe := { h with turnNo := h.turnNo + 1, turns := turns, turn := some (q, burst) } })
  let fresh : Option (Nat × Dev) :=
    match nextOfClass d 0 with
    | some q => begin_ q h.turns
    | none =>
      match classTurn d h.turns with
      | some x => begin_ x.2 (vupd h.turns x.1 (· - 1))
      | none =>
        let round : Vector Nat 4 := Vector.ofFn (fun i => if i.val = 0 then 0 else weightOf d i.val)
        match classTurn d round with
        | some x => begin_ x.2 (vupd round x.1 (· - 1))
        | none => none
  match h.turn with
  | some (q, n) =>
    match pairOf d q with
    | some p => if 0 < n && fetchable d p then some (q, d) else fresh
    | none => fresh
  | none => fresh

/-- The drive fetches entries now (R104, R116, R446, R448). -/
def fetching (env : Env) (d : Dev) : Bool :=
  d.hqe.ready && !d.hqe.fetchPaused && !d.hqe.fetchStopped && !d.hqe.shutdown &&
  (env.pw.st == .active || env.pw.st == .recovery)

/-- A fetched command that passed its checks waits for dispatch. -/
def hostArrival (env : Env) (q : Nat) (p : Pair) (c : V512) (key : List Byte) (segs : List (Nat × Nat)) (d : Dev) : Dev :=
  joinArrival
    { no := 0, kind := .host, capsule := c, source := BitVec.ofNat 16 q, group := BitVec.ofNat 16 p.group,
      prio := capPrio c, tick := env.tick, key := key, sgl := segs, hostGen := d.hqe.hostGen,
      ordered := capOrdered c, opSrc := BitVec.ofNat 16 q } d

/-- Steps 1 and 2 of R173 on a fetched entry, with its key and scatter list read from host memory between; a scatter list that
breaks R110 goes before a key that cannot be read. -/
def admitEntry (env : Env) (q : Nat) (p : Pair) (c : V512) (key sgl : Rd) (d : Dev) : Dev :=
  let w : Who := ⟨.host, BitVec.ofNat 16 q, capCid c, d.hqe.hostGen, none, 0, BitVec.ofNat 16 p.group⟩
  let no (v : Verdict) (d : Dev) : Dev := answer env w v.1 v.2 false d
  match checkEntry d { kind := .host, id := q } c with
  | some v => no v d
  | none =>
    match (if needsKey d c then key else .ok (inlineKey c)), (if capSgl c && hasBuffer c then sgl else .ok []) with
    | .fail e, .fail _ => no (scAbortedHost, 0) (dataDmaFail env q (capCid c) (errCode e) d)
    | .ok _, .fail e => no (scAbortedHost, 0) (dataDmaFail env q (capCid c) (errCode e) d)
    | k, .ok sg =>
      match bufferOf c sg, k with
      | none, _ => no (scInvalidField, 0) d
      | some _, .fail e => no (scAbortedHost, 0) (dataDmaFail env q (capCid c) (errCode e) d)
      | some segs, .ok k => hostArrival env q p c (slice k 0 (capKlen c)) segs d

/-- Take one entry of a pair: it is outstanding from here on (R115). -/
def takeEntry (q : Nat) (d : Dev) : Dev :=
  let d1 := updPair q (fun p => { p with
    head := if p.head + 1 = p.size then 0 else p.head + 1, outstanding := p.outstanding + 1 }) d
  { d1 with hqe := { d1.hqe with turn := d1.hqe.turn.map (fun x => (x.1, x.2 - 1)) } }

/-- ENTRY_FETCH: arbitration chooses a pair; its next entry is read, checked and handed to the headbox (R110, R115,
R117, R122). -/
def execEntryFetch (entry key sgl : Rd) (s : State) : Host.Outcome State Fault Refusal :=
  onDev s (fun env d =>
    if !fetching env d then d
    else match arbitrate d with
      | none => d
      | some (q, d1) =>
        match pairOf d1 q, hostRead d entry with
        | none, _ => d
        | _, .wait => d
        | some _, .fail code => failPair env q 1 code { d1 with hqe := { d1.hqe with turn := none } }
        | some p, .data bs => admitEntry env q p (bytesV512 (slice bs 0 64)) key sgl (takeEntry q d1))

/-- AGG_TIME_EXPIRY: AGG_TIME has passed since the first completion not yet signalled (R118). -/
def execAggTimeExpiry (q : BitVec 16) (s : State) : Host.Outcome State Fault Refusal :=
  onDev s (fun env d =>
    match pairOf d q.toNat with
    | none => d
    | some p =>
      match p.aggFirst with
      | some t => if p.aggTime ≠ 0 && t + p.aggTime * 25 ≤ env.tick then signalPair q.toNat d else d
      | none => d)

/-! ### The map lease (R125–R127) -/

/-- The lease is lost without a host command (R127). -/
def loseLease (env : Env) (reason : Nat) (d : Dev) : Dev :=
  let l := d.hqe.lease
  if !l.active then d
  else
    let d1 := { d with hqe := { d.hqe with lease :=
      { gen := l.gen, lastReason := reason } } }
    event env 0x0108 3 clsProtocol 0 reason l.gen.toNat 0 (hqeCause env 8 d1)

/-! ### Bus Master Enable (R122, R515) -/

/-- BUS_MASTER_DISABLE: requests are held for 1 s and the lease is lost at once (R122, R127). -/
def busMasterOff (env : Env) (d : Dev) : Dev :=
  if !d.hqe.busMaster then d
  else loseLease env 3 { d with hqe := { d.hqe with busMaster := false,
                                                    bmeHold := if d.hqe.enable then some env.tick else none } }

/-- Write the completion entries that were held back, in order. -/
def releaseCqes (env : Env) : List (Nat × Nat × Byte × Word × Bool) → Dev → Dev
  | [], d => d
  | (q, cid, st, r, more) :: t, d => releaseCqes env t (writeCqe env q cid st r more d)

/-- What was held goes out: completion entries in order, then interrupt messages. -/
def releaseHeld (env : Env) (d : Dev) : Dev :=
  let h := d.hqe
  h.heldMsi.foldl (fun d v => sendMsi v d) (releaseCqes env h.heldCqes { d with hqe := { h with heldCqes := [], heldMsi := [] } })

/-- An interrupt message whose hold has run out fails as a request of no queue or command (R122; log 115). -/
def failMsi (env : Env) (d : Dev) (_v : Nat) : Dev := dataDmaFail env 0 0 0x12 d

/-- The interrupt messages raised with Bus Master Enable clear and no hold running have failed (R122). Their failure is reported
with the next change of Bus Master Enable or BME_HOLD_EXPIRY (DESIGN CHOICE, log 115). -/
def failHeldMsi (env : Env) (d : Dev) : Dev :=
  d.hqe.heldMsi.foldl (failMsi env) { d with hqe := { d.hqe with heldMsi := [] } }

/-- Bus Master Enable is set again: requests held for less than 1 s go out, unless the function is in D3hot. -/
def busMasterOn (env : Env) (d : Dev) : Dev :=
  let d0 := if d.hqe.busMaster || d.hqe.bmeHold.isSome then d else failHeldMsi env d
  let d1 := { d0 with hqe := { d0.hqe with busMaster := true, bmeHold := none } }
  if d1.hqe.d3hot then d1 else releaseHeld env d1

/-- The power state of the function: in D3hot it issues nothing and answers no BAR0 access (R96; log 87). -/
def setD3hot (env : Env) (d3 : Bool) (d : Dev) : Dev :=
  let d1 := { d with hqe := { d.hqe with d3hot := d3 } }
  if d1.hqe.issues then releaseHeld env d1 else d1

/-- Each held completion write fails its pair (R122). -/
def failCqes (env : Env) : List (Nat × Nat × Byte × Word × Bool) → Dev → Dev
  | [], d => d
  | (q, _) :: t, d =>
    let d1 := updPair q (fun p => { p with outstanding := p.outstanding - 1 }) d
    failCqes env t (match pairOf d1 q with
      | some p => if p.failed then d1 else failPair env q 2 0x12 d1
      | none => d1)

/-- BUS_MASTER_DISABLE (R122). -/
def execBusMasterDisable (s : State) : Host.Outcome State Fault Refusal := onDev s busMasterOff

/-- BME_HOLD_EXPIRY: the 1 s hold ends and each held request fails; a message raised after it fails without a hold (R122, R515;
log 115). -/
def execBmeHoldExpiry (s : State) : Host.Outcome State Fault Refusal :=
  onDev s (fun env d =>
    match d.hqe.bmeHold with
    | some t =>
      if t + Config.second ≤ env.tick then
        let h := d.hqe
        h.heldMsi.foldl (failMsi env)
          (failCqes env h.heldCqes { d with hqe := { h with bmeHold := none, heldCqes := [], heldMsi := [] } })
      else d
    | none => if d.hqe.busMaster then d else failHeldMsi env d)

/-! ### BAR0 and attention -/

/-- An access of wrong size or alignment: ignored, counted and reported (R99). -/
def barInvalid (off size : Nat) (env : Env) (d : Dev) : Dev :=
  event env 0x010A 2 clsProtocol 0 off size 0
    (hqeCause env 0x40 { d with hqe := { d.hqe with dbErrors := sat32 (d.hqe.dbErrors + 1) } })

/-- BAR_ACCESS_INVALID (R99). -/
def execBarAccessInvalid (off size : Nat) (_write : Bool) (s : State) : Host.Outcome State Fault Refusal :=
  onDev s (fun env d =>
    if !barAlive env d || (size = 4 && off % 4 = 0) || (size = 8 && off % 8 = 0) then d else barInvalid off size env d)

/-- A write of ATTN_MASK, bits 18:1; clearing the mask of a set summary bit counts as a rise (R442, R445). -/
def setAttnMask (v : W32) (env : Env) (d : Dev) : Dev := attnEdit env (fun a => { a with mask := v &&& 0x7FFFE }) d

/-- ATTN_MASK_WRITE. -/
def execAttnMaskWrite (v : W32) (s : State) : Host.Outcome State Fault Refusal :=
  onDev s (fun env d => if barAlive env d then setAttnMask v env d else d)

/-- ATTN_SIGNAL: the 10 µs interval ends and the merged rises are signalled once (R442). -/
def execAttnSignal (s : State) : Host.Outcome State Fault Refusal :=
  onDev s (fun env d =>
    match d.attn.lastSignal with
    | some t =>
      if d.attn.pending && t + 250 ≤ env.tick && hostAlive env then
        sendMsi 0 { d with attn := { d.attn with pending := false, lastSignal := some env.tick } }
      else d
    | none => d)

/-- A 4-byte read of the low half of RDM_TICK latches the high half for its reader: a management port, or BAR0 (R348). -/
def latchTick (port : Nat) (env : Env) (d : Dev) : Dev :=
  let high : W32 := w32 (env.tick / 2 ^ 32)
  if port < 2 then { d with mg := vupd d.mg port (fun m => { m with latch := some high }) }
  else { d with tickLatch := some high }

/-- RDM_TICK_LOW_READ: by management port 0 or 1, or through BAR0 (port 2). -/
def execRdmTickLowRead (port : Nat) (s : State) : Host.Outcome State Fault Refusal :=
  onDev s (fun env d => if port < 2 || barAlive env d then latchTick port env d else d)

/-! ### The link (R98) -/

/-- HQE_LINK (R128). -/
def hqeLink (d : Dev) : Nat := d.hqe.linkSpeed + d.hqe.linkWidth * 16

/-- PCIE_LINK_UP: below x16 or 32 GT/s the link is degraded (R98); the link stays down in OFF, RETENTION and DRAIN (R446,
R521). -/
def execPcieLinkUp (speed width : Nat) (s : State) : Host.Outcome State Fault Refusal :=
  onDev s (fun env d =>
    if d.hqe.perst || !linkTrains env || loaderDead d || !([1, 3, 4, 5].contains speed) || !([1, 4, 8, 16].contains width) then d
    else
      let d1 := { d with hqe := { d.hqe with linkSpeed := speed, linkWidth := width } }
      if speed < 5 || width < 16 then event env 0x0107 3 clsHardware 0 (hqeLink d1) 0 0 (hqeCause env 0x20 d1) else d1)

end Sys2Proof.Machine
end

