-- ==== Sys2Proof/Machine/Pixels.lean ====
section
/-! DEFINITION. Frames and the arithmetic of the calender's modes (06, R175–R199): geometry, the frame header, the
reconstructed pixel v′, and the raw stream of a frame object. -/

namespace Sys2Proof.Machine

/-! ### Pixel types and modes (R176, R186–R191) -/

/-- Bytes per pixel of a type (R176). -/
def bpp (ptype : Nat) : Nat := if ptype = 0 then 1 else if ptype = 1 then 2 else 4

/-- The largest value of an integer type (R176). -/
def vmax (ptype : Nat) : Nat := 2 ^ (8 * bpp ptype) - 1

/-- One binary digit of an integer square root after another. -/
def isqrtBits (n : Nat) : Nat → Nat → Nat
  | 0, r => r
  | k + 1, r => if (r + 2 ^ k) * (r + 2 ^ k) ≤ n then isqrtBits n k (r + 2 ^ k) else isqrtBits n k r

/-- The integer square root of a number below 2^64. -/
def isqrt (n : Nat) : Nat := isqrtBits n 32 0

/-- Width of the CAL4 bin that begins at b (R188). -/
def binWidth (p b : Nat) : Nat := max 1 (isqrt (p * p * b) / 64)

/-- The CAL4 reconstruction of v from the bin at b on (R188). -/
def binValue (p v : Nat) : Nat → Nat → Nat
  | 0, b => b
  | n + 1, b =>
    let w := binWidth p b
    if v < b + w then b + (w - 1) / 2 else binValue p v n (b + w)

/-- An F32 bit pattern is a NaN or an infinity. -/
def f32Special (v : Nat) : Bool := v / 2 ^ 23 % 256 == 255

/-- The IEEE comparison v ≤ T of F32 patterns, T finite and at least +0 (R186, R191). -/
def f32Le (v t : Nat) : Bool :=
  if f32Special v && v % 2 ^ 23 != 0 then false else 2 ^ 31 ≤ v || v ≤ t

/-- A pixel is floored (R191). -/
def floored (ptype mode floorT v : Nat) : Bool :=
  mode / 16 % 2 == 1 && (if ptype = 3 then f32Le v floorT else v ≤ floorT)

/-- The reconstructed pixel v′ of v (R186–R192). `mode` is the header's MODE byte. -/
def recon (ptype mode param floorT v : Nat) : Nat :=
  if floored ptype mode floorT v then 0
  else match mode % 16 with
    | 3 => min ((v + param) / (2 * param + 1) * (2 * param + 1)) (vmax ptype)
    | 4 => min (binValue param v (v + 1) 0) (vmax ptype)
    | 5 => if ptype = 3 then (if f32Special v then v else v / 2 ^ param * 2 ^ param)
           else v / 2 ^ param * 2 ^ param + 2 ^ (param - 1)
    | _ => v

/-- MODE, PARAM and FLOOR_T form a combination R186 allows for a pixel type, and FLOOR goes with modes 2–5 (R179). -/
def modeOk (ptype mode param floorT : Nat) : Bool :=
  let m := mode % 16
  let floor := mode / 16 % 2 == 1
  mode < 32 && ptype ≤ 3 && m ≤ 5 &&
  (if m ≤ 2 then param == 0
   else if m = 3 then ptype != 3 && 1 ≤ param && param ≤ 1073741824
   else if m = 4 then ptype != 3 && 8 ≤ param && param ≤ 256
   else 1 ≤ param && param ≤ (if ptype = 0 then 7 else if ptype = 1 then 15 else if ptype = 2 then 31 else 22)) &&
  (if floor then 2 ≤ m && (if ptype = 3 then floorT / 2 ^ 31 == 0 && !f32Special floorT else floorT ≤ vmax ptype)
   else floorT == 0)

/-- The integer test of R194's table that pixel v′ must pass against v; CAL2 has none but equality. -/
def boundMet (ptype mode param floorT v v' : Nat) : Bool :=
  let gap := (v' - v) + (v - v')
  if floored ptype mode floorT v then v' == 0
  else match mode % 16 with
    | 3 => gap ≤ param
    | 4 => 16384 * (gap * gap) ≤ param * param * v
    | 5 => if ptype = 3 then (if f32Special v then v' == v else v' / 2 ^ param == v / 2 ^ param && v' % 2 ^ param == 0)
           else gap ≤ 2 ^ (param - 1)
    | _ => v' == v

/-- The first of a tile's pixels that fails its test. -/
def firstUnmet (ptype mode param floorT : Nat) (vs vs' : List Nat) : Option Nat :=
  (vs.zip vs').findIdx? (fun x => !boundMet ptype mode param floorT x.1 x.2)

/-- The request is lossy: MODE 3–5 or FLOOR (R185). -/
def lossy (mode : Nat) : Bool := 3 ≤ mode % 16 || mode / 16 % 2 == 1

/-- A tile does not shrink under STORE; otherwise RAW when the coded form would not be smaller (R193). -/
def heldRaw (mode coded raw : Nat) : Bool := mode % 16 == 0 || raw ≤ coded

/-! ### Geometry (R175, R177) -/

/-- Tile columns or rows of a dimension. -/
def tilesOf (dim side : Nat) : Nat := (dim + side - 1) / side

/-- Columns or rows of the i-th tile. -/
def tileSpan (dim side i : Nat) : Nat := min side (dim - i * side)

/-- Tiles of a frame. -/
def FrameObj.tileCount (o : FrameObj) : Nat :=
  tilesOf o.width (2 ^ o.tileLog2) * tilesOf o.height (2 ^ o.tileLog2)

/-- Bytes of a frame's section in the stream (R199). -/
def sectionLen (ptype width height tiles : Nat) : Nat := 64 + 16 * tiles + width * height * bpp ptype

/-- The stream length for a number of frames (R199). -/
def streamLen (ptype width height tiles frames : Nat) : Nat :=
  64 + 16 * frames + frames * sectionLen ptype width height tiles

/-! ### The frame header (R178, R179) -/

/-- A frame header's fields. -/
structure FrameHdr where
  ptype : Nat
  tileLog2 : Nat
  mode : Nat
  swap : Bool
  width : Nat
  height : Nat
  nframes : Nat
  param : Nat
  floorT : Nat
  pixelOff : Nat
  rowPitch : Nat
  framePitch : Nat
  user : Nat

/-- The header 64 bytes spell, when R179 lets them stand before `dataLen` bytes of data. -/
def parseHeader (h : List Byte) (dataLen : Nat) : Option FrameHdr :=
  let ptype := leAt h 4 1
  let tl := leAt h 5 1
  let mode := leAt h 6 1
  let iflags := leAt h 7 1
  let width := leAt h 8 4
  let height := leAt h 12 4
  let nframes := leAt h 16 4
  let param := leAt h 20 4
  let floorT := leAt h 24 4
  let pixelOff := leAt h 32 8
  let rp := leAt h 40 4
  let fp := leAt h 48 8
  let line := width * bpp ptype
  let rowPitch := if rp = 0 then line else rp
  let framePitch := if fp = 0 then height * rowPitch else fp
  if leAt h 0 4 == 0x48464B41 && modeOk ptype mode param floorT && (tl == 0 || (4 ≤ tl && tl ≤ 10)) && iflags ≤ 1 &&
     1 ≤ width && width ≤ 65536 && 1 ≤ height && height ≤ 65536 && 1 ≤ nframes && nframes ≤ 1048576 &&
     leAt h 28 4 == 0 && leAt h 44 4 == 0 && line ≤ rowPitch && (height - 1) * rowPitch + line ≤ (if fp = 0 then
       (height - 1) * rowPitch + line else fp) &&
     pixelOff + (nframes - 1) * framePitch + (height - 1) * rowPitch + line ≤ dataLen
  then some
    { ptype := ptype, tileLog2 := (if tl = 0 then 6 else tl), mode := mode, swap := iflags == 1,
      width := width, height := height, nframes := nframes, param := param, floorT := floorT, pixelOff := pixelOff,
      rowPitch := rowPitch, framePitch := framePitch, user := leAt h 56 8 }
  else none

/-- A pixel of n bytes at an offset, big-endian under SWAP. -/
def pixelAt (data : List Byte) (off n : Nat) (swap : Bool) : Nat :=
  if swap then beNat (slice data off n) else leAt data off n

/-- Pixels of one input frame, row-major (R178). -/
def inputPixels (h : FrameHdr) (data : List Byte) (f : Nat) : List Nat :=
  (List.range h.height).flatMap (fun y => (List.range h.width).map (fun x =>
    pixelAt data (h.pixelOff + f * h.framePitch + y * h.rowPitch + x * bpp h.ptype) (bpp h.ptype) h.swap))

/-- Pixel (x, y) of a row-major plane. -/
def planeAt (pixels : List Nat) (width x y : Nat) : Nat := pixels.getD (y * width + x) 0

/-- Pixels of tile (tx, ty) of a plane, row-major. -/
def tilePixels (width height side : Nat) (pixels : List Nat) (tx ty : Nat) : List Nat :=
  (List.range (tileSpan height side ty)).flatMap (fun y =>
    (List.range (tileSpan width side tx)).map (fun x => planeAt pixels width (tx * side + x) (ty * side + y)))

/-- The stored record of input frame f; `info` gives the index facts of the tiles, numbered over the frames (R193, R199). -/
def frameRec (h : FrameHdr) (data : List Byte) (fver : W32) (tick : Nat) (info : Nat → TileInfo) (f : Nat) : FrameRec :=
  let v := inputPixels h data f
  let v' := v.map (recon h.ptype h.mode h.param h.floorT)
  let tiles := tilesOf h.width (2 ^ h.tileLog2) * tilesOf h.height (2 ^ h.tileLog2)
  { mode := BitVec.ofNat 8 h.mode, param := w32 h.param, floorT := w32 h.floorT, fver := fver,
    user := BitVec.ofNat 64 h.user, accTick := tick, pixels := v',
    tiles := (List.range tiles).map (fun j => info (f * tiles + j)) }

/-! ### The raw stream (R199) -/

/-- Bytes of pixels, packed little-endian. -/
def pixelBytes (ptype : Nat) (px : List Nat) : List Byte := px.flatMap (natLe (bpp ptype))

/-- Stream offsets of the first pixel of every tile of a section whose pixels begin at `off`. -/
def tileOffsets (o : FrameObj) (off : Nat) : List Nat → List (Nat × Nat)
  | [] => []
  | j :: js =>
    let side := 2 ^ o.tileLog2
    let cols := tilesOf o.width side
    let n := tileSpan o.width side (j % cols) * tileSpan o.height side (j / cols) * bpp o.ptype
    (j, off) :: tileOffsets o (off + n) js

/-- One section: frame record, tile index, pixels of the tiles in index order. -/
def sectionBytes (o : FrameObj) (i sectionOff : Nat) (r : FrameRec) : List Byte :=
  let side := 2 ^ o.tileLog2
  let cols := tilesOf o.width side
  let n := o.tileCount
  let rec_ := natLe 4 0x52464B41 ++ natLe 1 o.ptype ++ natLe 1 o.tileLog2 ++ [r.mode, 0] ++ natLe 4 o.width ++
    natLe 4 o.height ++ natLe 4 i ++ natLe 4 r.param.toNat ++ natLe 4 r.floorT.toNat ++ natLe 4 r.fver.toNat ++
    natLe 4 n ++ natLe 4 0 ++ natLe 8 ((r.tiles.map (·.codedLen)).foldl (· + ·) 0) ++ natLe 8 r.accTick ++
    natLe 8 r.user.toNat
  let index := (tileOffsets o (sectionOff + 64 + 16 * n) (List.range n)).flatMap (fun x =>
    let t := r.tiles.getD x.1 ⟨0, false, false⟩
    natLe 8 x.2 ++ natLe 4 t.codedLen ++ [r.mode, BitVec.ofNat 8 (b2n t.raw + 2 * b2n t.exact)] ++ natLe 2 0)
  let px := (List.range n).flatMap (fun j =>
    pixelBytes o.ptype (tilePixels o.width o.height side r.pixels (j % cols) (j / cols)))
  rec_ ++ index ++ px

/-- The stream of a frame object at a version. -/
def streamBytes (o : FrameObj) (version : W32) : List Byte :=
  let n := o.frames.length
  let t := o.tileCount
  let sec := sectionLen o.ptype o.width o.height t
  let at_ (i : Nat) : Nat := 64 + 16 * n + i * sec
  let hdr := natLe 4 0x4F464B41 ++ natLe 2 1 ++ natLe 1 o.ptype ++ natLe 1 o.tileLog2 ++ natLe 4 o.width ++
    natLe 4 o.height ++ natLe 4 n ++ natLe 4 version.toNat ++
    natLe 8 (streamLen o.ptype o.width o.height t n) ++ natLe 4 t ++ List.replicate 28 0
  let idx := o.frames.zipIdx
  let table := idx.flatMap (fun x => natLe 8 (at_ x.2) ++ natLe 4 x.1.fver.toNat ++ natLe 4 0)
  hdr ++ table ++ idx.flatMap (fun x => sectionBytes o x.2 (at_ x.2) x.1)

/-! ### Regions of interest (R197, R198) -/

/-- The parameters of ROI_READ. -/
structure Roi where
  frame : Nat
  x0 : Nat
  y0 : Nat
  w : Nat
  h : Nat
  stride : Nat
  nfr : Nat

/-- The fields at bytes 40–57 of a capsule (R197). -/
def roiOf (c : V512) : Roi :=
  { frame := cap c 40 4, x0 := cap c 44 2, y0 := cap c 46 2, w := cap c 48 2 + 1, h := cap c 50 2 + 1,
    stride := cap c 52 4, nfr := cap c 56 2 + 1 }

/-- The rectangle's lines: offset in the buffer and bytes. -/
def roiLines (o : FrameObj) (r : Roi) : List (Nat × List Byte) :=
  let b := bpp o.ptype
  let s := if r.stride = 0 then r.w * b else r.stride
  (List.range r.nfr).flatMap (fun f => (List.range r.h).map (fun y =>
    (f * (s * r.h) + y * s,
     pixelBytes o.ptype ((List.range r.w).map (fun x =>
       planeAt (match o.frames[r.frame + f]? with | some fr => fr.pixels | none => []) o.width (r.x0 + x) (r.y0 + y))))))

/-- ROI_READ's geometry conditions (R197). -/
def roiOk (o : FrameObj) (r : Roi) (len : Nat) : Bool :=
  let b := bpp o.ptype
  let s := if r.stride = 0 then r.w * b else r.stride
  (r.stride == 0 || r.w * b ≤ r.stride) && (r.nfr - 1) * (s * r.h) + (r.h - 1) * s + r.w * b ≤ len &&
  r.x0 + r.w ≤ o.width && r.y0 + r.h ≤ o.height && r.frame + r.nfr ≤ o.frames.length

/-- Tiles a rectangle meets, over its frames (R198). -/
def roiTiles (o : FrameObj) (r : Roi) : Nat :=
  let t := 2 ^ o.tileLog2
  r.nfr * (((r.x0 + r.w - 1) / t - r.x0 / t + 1) * ((r.y0 + r.h - 1) / t - r.y0 / t + 1))

end Sys2Proof.Machine
end

