-- ==== Sys2Proof/Machine/Reams.lean ====
section
/-! DEFINITION. Where data lies (07): addresses, reams and quires (R206–R213), the maps of an object (R216–R219), object
records (R223), the journal (R232), and placement: what a commit leaves in protected felt goes to open quires of its
stream. Which free ream opens next the manual leaves to the drive; the model takes the lowest (log 15). -/

namespace Sys2Proof.Machine

/-! ### Addresses and reams (R206–R210) -/

/-- Fields of a PSA (R207). -/
def psaChannel (p : Nat) : Nat := p / 2 ^ 32 % 32
def psaDie (p : Nat) : Nat := p / 2 ^ 27 % 32
def psaPlane (p : Nat) : Nat := p / 2 ^ 25 % 4
def psaBlock (p : Nat) : Nat := p / 2 ^ 14 % 2048
def psaPage (p : Nat) : Nat := p / 4 % 4096
def psaSheet (p : Nat) : Nat := p % 4

/-- Key of a ream: die group, plane and index (R210). -/
def reamKey (g plane index : Nat) : Nat := (g * 4 + plane) * 1760 + index
def reamGroup (r : Nat) : Nat := r / 7040
def reamPlane (r : Nat) : Nat := r / 1760 % 4
def reamIndex (r : Nat) : Nat := r % 1760

/-- Channel and die position of member position `pos` of a group (R206). -/
def groupChannel (g pos : Nat) : Nat := g % 2 * 16 + pos
def groupDie (g : Nat) : Nat := g / 2

/-- Key of a die, of a plane of a die, and of a block. -/
def dieKey (channel die : Nat) : Nat := channel * 24 + die
def planeKey (channel die plane : Nat) : Nat := dieKey channel die * 4 + plane
def blockKey (channel die plane block : Nat) : Nat := planeKey channel die plane * 1824 + block

/-- Key of the block a PSA lies in, and of its die and plane; its die group and its position there. -/
def psaBlockKey (p : Nat) : Nat := blockKey (psaChannel p) (psaDie p) (psaPlane p) (psaBlock p)
def psaPlaneKey (p : Nat) : Nat := planeKey (psaChannel p) (psaDie p) (psaPlane p)
def psaDieKey (p : Nat) : Nat := dieKey (psaChannel p) (psaDie p)
def psaGroup (p : Nat) : Nat := 2 * psaDie p + psaChannel p / 16
def psaPos (p : Nat) : Nat := psaChannel p % 16

/-- The physical block of a member: its ream's index, or the spare that stands for it (R210, R245). -/
def memberBlock (d : Dev) (r pos : Nat) : Nat := tblGetD d.trl.remap (r * 16 + pos) (reamIndex r)

/-- Pages of a wordline in a mode. -/
def wlPages (slc : Bool) : Nat := if slc then 1 else 3

/-- Sheets of a quire, and of a whole ream (R211). -/
def Ream.quireSheets (x : Ream) : Nat := x.members.length * 4 * wlPages x.slc
def Ream.capacity (x : Ream) : Nat := 768 * x.quireSheets

/-- Members and parity. -/
def Ream.all (x : Ream) : List Nat := x.members ++ [x.parity]

/-- PSA of a sheet of a member, given by position, page and sheet of the page. -/
def memberPsa (d : Dev) (r pos page sheet : Nat) : Nat :=
  groupChannel (reamGroup r) pos * 2 ^ 32 + groupDie (reamGroup r) * 2 ^ 27 + reamPlane r * 2 ^ 25 +
    memberBlock d r pos * 2 ^ 14 + page * 4 + sheet

/-- PSA of sheet n of a ream in quire order: member, then page, then sheet (R207, R217). -/
def sheetPsa (d : Dev) (r : Nat) (x : Ream) (n : Nat) : Nat :=
  let per := 4 * wlPages x.slc
  let i := n % x.quireSheets
  memberPsa d r (x.members.getD (i / per) 0) (n / x.quireSheets * wlPages x.slc + i % per / 4) (i % 4)

/-- The ream that is not free in one of whose members, parity included, a PSA lies (R210). -/
def reamOf (d : Dev) (p : Nat) : Option (Nat × Ream) :=
  d.trl.reams.find? (fun x => reamGroup x.1 == psaGroup p && reamPlane x.1 == psaPlane p && x.2.all.contains (psaPos p) &&
    memberBlock d x.1 (psaPos p) == psaBlock p)

/-- A PSA is within the ranges of R207: a block in SLC mode has pages 0–767. -/
def psaOk (d : Dev) (p : Nat) : Bool :=
  p < 2 ^ 37 && psaDie p < 24 && psaBlock p < 1824 && psaPage p < 2304 &&
  (match reamOf d p with | some (_, x) => !x.slc || psaPage p < 768 | none => true)

/-- The ream a PSA lies in, and the number of its sheet, for a data member. -/
def psaRef (d : Dev) (p : Nat) : Option (Nat × Ream × Nat) :=
  match reamOf d p with
  | none => none
  | some (r, x) =>
    if !x.members.contains (psaPos p) || 768 * wlPages x.slc ≤ psaPage p then none
    else
      let page := psaPage p
      some (r, x, page / wlPages x.slc * x.quireSheets + x.members.idxOf (psaPos p) * (4 * wlPages x.slc) +
        page % wlPages x.slc * 4 + psaSheet p)

/-- PSAs of k consecutive sheets in quire order from a PSA; outside any ream, consecutive addresses. -/
def psaRun (d : Dev) (p k : Nat) : List Nat :=
  match psaRef d p with
  | some (r, x, n) => (List.range k).map (fun i => sheetPsa d r x (n + i))
  | none => (List.range k).map (fun i => p + i)

/-- Change a ream that is not free. -/
def updReam (r : Nat) (f : Ream → Ream) (d : Dev) : Dev :=
  match tblGet d.trl.reams r with
  | some x => { d with trl := { d.trl with reams := tblSet d.trl.reams r (f x) } }
  | none => d

/-- Change a block's history. -/
def updBlock (k : Nat) (f : Block → Block) (d : Dev) : Dev :=
  { d with trl := { d.trl with blocks := tblUpd d.trl.blocks k {} f } }

/-- A quire of a ream is on media, by the number of one of its sheets (R212). -/
def quireDone (x : Ream) (n : Nat) : Bool := x.programmedQ.contains (n / max 1 x.quireSheets)

/-- The sheet at a PSA is on media (R212). -/
def psaOnMedia (d : Dev) (p : Nat) : Bool := match psaRef d p with | some (_, x, n) => quireDone x n | none => false

/-! ### Sheet tags (R209) -/

def tagObj (t : BitVec 128) : Nat := fld t 0 48
def tagKsid (t : BitVec 128) : Nat := fld t 48 8
def tagKind (t : BitVec 128) : Nat := fld t 56 8
def tagNo (t : BitVec 128) : Nat := fld t 64 32
def tagSeq (t : BitVec 128) : Nat := fld t 96 32

/-- A tag; its WSEQ is set when the sheet is placed. -/
def mkTag (objId ksid kind no : Nat) : BitVec 128 :=
  BitVec.ofNat 128 (objId % 2 ^ 48 + ksid % 256 * 2 ^ 48 + kind % 256 * 2 ^ 56 + no % 2 ^ 32 * 2 ^ 64)

/-! ### Free reams, the reserves, the burst region (R229, R231, R236, R248) -/

/-- The protected limit in bytes. -/
def limitBytes (env : Env) : Nat := env.pw.limitMib * 2 ^ 20

/-- Reams in all: 48 die groups, 4 planes, 1,760 of each (R206, R210). -/
def reamTotal (d : Dev) : Nat := (48 - d.trl.retiredGroups.length) * 4 * 1760

/-- Reams that are erased and free, the reserves included; those of a retired group are not. -/
def erasedReams (d : Dev) : Nat :=
  reamTotal d - (d.trl.reams.filter (fun x => !d.trl.retiredGroups.contains (reamGroup x.1))).length

/-- Reams of the drain reserve for a limit, and of the WORN journal reserve (R231). -/
def reserveReams (env : Env) : Nat := (limitBytes env + 256 * 2 ^ 20 + (180 * 2 ^ 20 - 1)) / (180 * 2 ^ 20)
abbrev wornReams : Nat := 8

/-- Reams left in the WORN journal reserve: those its records have not taken, or that broke has given back (R231, R247). -/
def wornLeft (d : Dev) : Nat := wornReams - d.trl.wornUsed

/-- Free reams, the reserves excluded (R231, R236, R248). -/
def freeReams (env : Env) (d : Dev) : Nat := erasedReams d - reserveReams env - wornLeft d

/-- FREE_LOW and FREE_URGENT as they act (R248). -/
def freeLow (d : Dev) : Nat := max 128 (fld d.trl.brokeReg 0 16)
def freeUrgent (d : Dev) : Nat :=
  let u := max 64 (fld d.trl.brokeReg 16 16)
  if freeLow d ≤ u then freeLow d / 2 else u

/-- The target of R229 in bytes, times 40 times the capacity, so that it is exact. -/
def burstScaled (d : Dev) : Nat :=
  let f := footprint d
  let c := Config.capacity
  if 100 * f ≤ 50 * c then 4000 * 10 ^ 9 * (40 * c)
  else if 100 * f < 90 * c then 4000 * 10 ^ 9 * (40 * c) - (100 * f - 50 * c) * (3500 * 10 ^ 9)
  else 500 * 10 ^ 9 * (40 * c)

/-- Bytes the burst region holds: data sheets of SLC reams of the host, frame and record streams, pads left out. -/
def burstHeld (d : Dev) : Nat :=
  ((d.trl.reams.filter (fun x => x.2.slc && x.2.stream < 3)).map (fun x => 4096 * (x.2.placed - x.2.pads))).foldl (· + ·) 0

/-- The target in whole GB, and the data of the host stream the region holds, as TRL_BURST and the health page report them;
rounded down, which the manual leaves open (R248; DESIGN CHOICE, log 127). -/
def burstGb (d : Dev) : Nat := burstScaled d / (40 * Config.capacity * 10 ^ 9)
def hostHeld (d : Dev) : Nat :=
  ((d.trl.reams.filter (fun x => x.2.slc && x.2.stream = 0)).map (fun x => 4096 * (x.2.placed - x.2.pads))).foldl (· + ·) 0

/-- The region holds less than its target, or more. -/
def burstRoom (d : Dev) : Bool := decide (burstHeld d * (40 * Config.capacity) < burstScaled d)
def burstOver (d : Dev) : Bool := decide (burstScaled d < burstHeld d * (40 * Config.capacity))

/-- A stream's next ream is in SLC mode (R229, R231, R233). -/
def wantsSlc (d : Dev) (stream : Nat) (tlcOnly : Bool) : Bool :=
  if stream < 3 then !tlcOnly && burstRoom d else stream == 4 || stream == 5 || stream == 6

/-! ### Placement (R208, R211–R213, R228, R231) -/

/-- Member positions of a group that are on live dies. -/
def livePos (d : Dev) (g : Nat) : List Nat :=
  (List.range 16).filter (fun pos => !d.trl.failedDies.contains (dieKey (groupChannel g pos) (groupDie g)))

/-- A fresh ream of a stream, with parity at its position, or at the next live one (R210, R246). -/
def freshReam (d : Dev) (r stream : Nat) (slc : Bool) : Ream :=
  let live := livePos d (reamGroup r)
  let want := reamIndex r % 16
  let parity := match live.find? (fun p => want ≤ p) with | some p => p | none => live.headD 0
  { slc := slc, stream := stream, members := live.filter (· != parity), parity := parity }

/-- The lowest free ream of a live group among n from r on. -/
def lowestFree (d : Dev) : Nat → Nat → Option Nat
  | 0, _ => none
  | n + 1, r =>
    if (tblGet d.trl.reams r).isNone && !d.trl.retiredGroups.contains (reamGroup r) then some r
    else lowestFree d n (r + 1)

/-- The open ream of a stream and mode that has room. -/
def openReam (d : Dev) (stream : Nat) (slc : Bool) : Option Nat :=
  (d.trl.reams.find? (fun x => x.2.st == .open && x.2.stream == stream && x.2.slc == slc && x.2.placed < x.2.capacity)).map (·.1)

/-- Reams a stream may take: the reserves are for the drain stream, and the WORN journal reserve for journal records written
under WORN (R231, R247). -/
def reamsFor (env : Env) (stream : Nat) (d : Dev) : Nat :=
  if stream = 6 then erasedReams d - wornLeft d
  else if stream = 4 && d.trl.worn then erasedReams d - reserveReams env
  else freeReams env d

/-- A ream opened for a stream comes out of the WORN journal reserve: for a journal record under WORN, while that has any (R231,
R247). -/
def fromWorn (stream : Nat) (d : Dev) : Bool := stream == 4 && d.trl.worn && decide (0 < wornLeft d)

/-- Free reams have fallen below FREE_URGENT: cause and event (R248, R249). -/
def noteUrgent (env : Env) (before : Nat) (d : Dev) : Dev :=
  let n := freeReams env d
  if n < freeUrgent d && freeUrgent d ≤ before then event env 0x0C08 3 clsMedia 0 n 0 0 (setCause env 12 8 d) else d

/-- A free ream opens for a stream. -/
def startReam (env : Env) (r stream : Nat) (slc : Bool) (d : Dev) : Dev :=
  noteUrgent env (freeReams env d) { d with trl := { d.trl with
    reams := tblSet d.trl.reams r (freshReam d r stream slc), wornUsed := d.trl.wornUsed + b2n (fromWorn stream d) } }

/-- The ream the next sheet of a stream goes to, opened if need be. -/
def takeReam (env : Env) (stream : Nat) (slc : Bool) (d : Dev) : Option (Nat × Dev) :=
  match openReam d stream slc with
  | some r => some (r, d)
  | none =>
    if reamsFor env stream d = 0 then none
    else match lowestFree d (d.trl.reams.length + 7040 * d.trl.retiredGroups.length + 1) 0 with
      | none => none
      | some r => if 48 * 7040 ≤ r then none else some (r, startReam env r stream slc d)

/-- A ream takes no more sheets: it is closed, the latest of all (R236). -/
def closeReam (r : Nat) (d : Dev) : Dev :=
  let n := d.trl.closeStamp + 1
  updReam r (fun x => if x.st == .open then { x with st := .closed, closeStamp := n, quireTick := none } else x)
    { d with trl := { d.trl with closeStamp := n } }

/-- A quire of a ream closes; the ream closes with its last one (R213). -/
def closeQuire (r q : Nat) (d : Dev) : Dev :=
  let d1 := updReam r (fun x => { x with closedQ := x.closedQ ++ [q], quireTick := none }) d
  match tblGet d1.trl.reams r with
  | some x => if x.capacity ≤ x.placed then closeReam r d1 else d1
  | none => d1

/-- The write sequence of the page a PSA lies in, given when its first sheet is placed (R208). -/
def pageSeq (p : Nat) (first : Bool) (d : Dev) : Nat × Dev :=
  if first then
    let n := d.trl.wseq + 1
    (n, { d with trl := { d.trl with wseq := n, wseqs := tblSet d.trl.wseqs (p / 4) n } })
  else (tblGetD d.trl.wseqs (p / 4) 0, d)

/-- Place one sheet as the next of a ream: its tag takes the low bits of its page's write sequence (R209); answers its
PSA. -/
def placeIn (env : Env) (r : Nat) (sh : Sheet) (d : Dev) : Option (Nat × Dev) :=
  match tblGet d.trl.reams r with
  | none => none
  | some x =>
    let psa := sheetPsa d r x x.placed
    let w := pageSeq psa (x.placed % 4 = 0) d
    let sh' : Sheet := { sh with tag := setFld sh.tag 96 32 w.1 }
    let d1 := updReam r (fun x => { x with placed := x.placed + 1, quireTick := some (x.quireTick.getD env.tick) })
      { w.2 with trl := { w.2.trl with sheets := tblSet w.2.trl.sheets psa sh' } }
    some (psa, if (x.placed + 1) % x.quireSheets = 0 then closeQuire r (x.placed / x.quireSheets) d1 else d1)

/-- Place n pad sheets in a ream (R213). -/
def padSheets (env : Env) (r : Nat) : Nat → Dev → Dev
  | 0, d => d
  | n + 1, d =>
    let no := match tblGet d.trl.reams r with | some x => x.placed / 4 | none => 0
    match placeIn env r ⟨[], mkTag 0 0 5 no, true⟩ (updReam r (fun x => { x with pads := x.pads + 1 }) d) with
    | some x => padSheets env r n x.2
    | none => d

/-- Close the open quire of a ream, its unfilled sheets as pad sheets (R213). -/
def padQuire (env : Env) (r : Nat) (d : Dev) : Dev :=
  match tblGet d.trl.reams r with
  | none => d
  | some x =>
    if x.quireSheets = 0 || x.placed % x.quireSheets = 0 then d
    else padSheets env r (x.quireSheets - x.placed % x.quireSheets) d

/-- Place sheets in a ream one after another; answers their PSAs. -/
def placeRow (env : Env) (r : Nat) : List Sheet → Dev → Option (List Nat × Dev)
  | [], d => some ([], d)
  | s :: ss, d =>
    match placeIn env r s d with
    | none => none
    | some (p, d1) => (placeRow env r ss d1).map (fun x => (p :: x.1, x.2))

/-- The ream n consecutive sheets of a stream go to: a stretch never crosses a ream, so one without room for it closes
(R218). -/
def reamFor (env : Env) (stream : Nat) (slc : Bool) (n : Nat) (d : Dev) : Option (Nat × Dev) :=
  match openReam d stream slc with
  | some r =>
    match tblGet d.trl.reams r with
    | some x => if x.placed + n ≤ x.capacity then some (r, d) else takeReam env stream slc (closeReam r (padQuire env r d))
    | none => none
  | none => takeReam env stream slc d

/-- Place a stretch of consecutive sheets in open quires of a stream; answers their PSAs, or none when no ream is left. -/
def placeStretch (env : Env) (stream : Nat) (slc : Bool) (shs : List Sheet) (d : Dev) : Option (List Nat × Dev) :=
  match reamFor env stream slc shs.length d with
  | none => none
  | some (r, d1) =>
    (placeRow env r shs d1).map (fun x => (x.1, { x.2 with trl := { x.2.trl with
      hostWritten := x.2.trl.hostWritten + (if stream < 3 then 4096 * shs.length else 0),
      lastHostWrite := if stream = 0 then env.tick else x.2.trl.lastHostWrite } }))

/-- Place sheets in order, each by itself; answers their PSAs, or none when media is exhausted on the way. -/
def placeSheets (env : Env) (stream : Nat) (slc : Bool) : List Sheet → Dev → Option (List Nat × Dev)
  | [], d => some ([], d)
  | s :: ss, d =>
    match placeStretch env stream slc [s] d with
    | none => none
    | some (p, d1) => (placeSheets env stream slc ss d1).map (fun r => (p ++ r.1, r.2))

/-- Place n checkpoint sheets, the `c`-th and those after it, in a stream's open reams, as far as reams last: each page takes the
next write sequence (R208, R233; log 125). Answers the stretches placed: ream, number of the first sheet and how many. -/
def placeBulk (env : Env) (stream : Nat) : Nat → Nat → Nat → Dev → List (Nat × Nat × Nat) × Dev
  | 0, _, _, d => ([], d)
  | fuel + 1, c, n, d =>
    if n = 0 then ([], d)
    else match takeReam env stream true d with
      | none => ([], d)
      | some (r, d1) =>
        match tblGet d1.trl.reams r with
        | none => ([], d1)
        | some x =>
          let k := min n (x.capacity - x.placed)
          let q0 := x.placed / max 1 x.quireSheets
          let q1 := (x.placed + k) / max 1 x.quireSheets
          let d2 := updReam r (fun x => { x with
            placed := x.placed + k, closedQ := x.closedQ ++ (List.range (q1 - q0)).map (· + q0), round := d1.trl.round,
            bulk := x.bulk ++ [⟨x.placed, k, d1.trl.wseq + 1, c⟩],
            quireTick := if (x.placed + k) % max 1 x.quireSheets = 0 then none else some env.tick })
            { d1 with trl := { d1.trl with wseq := d1.trl.wseq + (k + 3) / 4 } }
          let rest := placeBulk env stream fuel (c + k) (n - k) (if x.placed + k = x.capacity then closeReam r d2 else d2)
          ((r, x.placed, k) :: rest.1, rest.2)

/-- Sheets in some stretches. -/
def bulkCount (l : List (Nat × Nat × Nat)) : Nat := (l.map (·.2.2)).foldl (· + ·) 0

/-! ### Pages on media (R208, R211) -/

/-- The checkpoint sheets a PSA is one of, with its number among them. -/
def bulkAt (d : Dev) (psa : Nat) : Option (Bulk × Nat) :=
  match psaRef d psa with
  | some (_, x, n) => (x.bulk.find? (fun b => decide (b.at_ ≤ n ∧ n < b.at_ + b.len))).map (fun b => (b, n - b.at_))
  | none => none

/-- The write sequence of the page a PSA lies in (R208). -/
def seqAt (d : Dev) (psa : Nat) : Nat :=
  match tblGet d.trl.wseqs (psa / 4), bulkAt d psa with
  | some w, _ => w
  | none, some (b, i) => b.seq + i / 4
  | none, none => 0

/-- The sheet placed at a PSA, if any: its data and tag; of a pad sheet and of a checkpoint sheet the manual does not give the
data (R209, R213, R233). -/
def sheetOn (d : Dev) (psa : Nat) : Option Sheet :=
  match tblGet d.trl.sheets psa, bulkAt d psa with
  | some s, _ => some (if s.data.isEmpty then { s with data := (List.range 4096).map (Config.padByte s.tag.toNat) } else s)
  | none, some (b, i) => some ⟨(List.range 4096).map (Config.ckptByte (b.cont + i)),
      setFld (mkTag 0 0 4 ((b.at_ + i) / 4)) 96 32 (b.seq + i / 4), true⟩
  | none, none => none

/-- The sheet at a PSA as a read returns it; what was never placed reads as is left open. -/
def sheetData (psa : Nat) (d : Dev) : Sheet × Dev :=
  match sheetOn d psa with
  | some s => (s, d)
  | none =>
    let f := takeFreeBytes 4112 d
    (⟨f.1.take 4096, BitVec.ofNat 128 (leNat (f.1.drop 4096)), true⟩, f.2)

/-- A codeword: the sheet's data, its tag and 492 bytes of LDPC parity, which the manual does not define (R208). -/
def codeword (s : Sheet) : List Byte :=
  let b := slice s.data 0 4096 ++ natLe 16 s.tag.toNat
  b ++ (List.range 492).map (Config.ldpc b)

/-- The page header: the write sequence, the CRC-32C of its bytes, and four bytes of zeros (R208). -/
def pageHeader (seq : Nat) : List Byte := natLe 8 seq ++ natLe 4 (crcStd (natLe 8 seq)).toNat ++ natLe 4 0

/-- The 18,432 bytes of a data page, by the PSA of its first sheet; sheets never placed stand as zeros (R208). -/
def pageBytes (d : Dev) (psa : Nat) : List Byte :=
  (List.range 4).flatMap (fun k => codeword ((sheetOn d (psa + k)).getD ⟨[], 0, true⟩)) ++
  pageHeader (seqAt d psa)

/-- Page k of the parity member of a ream: the exclusive or of page k of every data member (R211). -/
def parityPage (d : Dev) (r : Nat) (x : Ream) (page : Nat) : List Byte :=
  (x.members.map (fun pos => pageBytes d (memberPsa d r pos page 0))).foldl xorBytes (List.replicate 18432 0)

/-- A sheet as a read of media returns it: of a parity member, the codeword its page holds there. -/
def sheetAt (psa : Nat) (d : Dev) : Sheet × Dev :=
  match reamOf d psa with
  | some (r, x) =>
    if x.parity = psaPos psa && !x.members.contains (psaPos psa) then
      let c := slice (parityPage d r x (psaPage psa)) (4604 * psaSheet psa) 4112
      (⟨c.take 4096, BitVec.ofNat 128 (leNat (c.drop 4096)), true⟩, d)
    else sheetData psa d
  | none => sheetData psa d

/-- Sheets in order. -/
def sheetsAt : List Nat → Dev → List Sheet × Dev
  | [], d => ([], d)
  | p :: ps, d =>
    let a := sheetAt p d
    let r := sheetsAt ps a.2
    (a.1 :: r.1, r.2)

/-! ### The journal (R232, R234) -/

/-- Code of a record's type. -/
def JType.code (t : JType) : Nat :=
  match t with
  | .commit => 0 | .remove => 1 | .map => 2 | .remap => 3 | .erasePending => 4 | .erased => 5 | .retire => 6 | .seq => 7
  | .worn => 8 | .kgen => 9 | .ksDelete => 10 | .fmt => 11

/-- The 64 bytes of a record: what it carries, at places the manual does not give, and a CRC-32C over it (R232; log 122). -/
def JRec.bytes (r : JRec) : List Byte :=
  let b := (List.range 60).map (Config.journalByte [r.typ.code, r.seq, r.a, r.b, r.c])
  b ++ natLe 4 (crcStd b).toNat

/-- Journal records not yet in a journal sheet. -/
def unplaced (d : Dev) : List JRec := d.trl.journal.filter (fun r => d.trl.jPlaced < r.seq)

/-- Place journal sheets of 64 records, the last one short when `force` says so. Journal writes are funded under WC4, under
WORN from WC1 (R231, R362). -/
def placeJournal (env : Env) (force : Bool) : Nat → Dev → Dev
  | 0, d => d
  | n + 1, d =>
    let rs := (unplaced d).take 64
    if rs.isEmpty || (!force && rs.length < 64) then d
    else
      let bs := rs.flatMap JRec.bytes
      let top := (rs.map (·.seq)).foldl max 0
      let sh : Sheet := ⟨bs ++ List.replicate (4096 - bs.length) 0, mkTag 0 0 3 (d.trl.jPlaced / 64), true⟩
      match placeStretch env 4 true [sh] d with
      | none => d
      | some x =>
        placeJournal env force n (charge (if d.trl.worn then 1 else 4) (energyFlat 8200000 1 1)
          { x.2 with trl := { x.2.trl with jPlaced := top, jSheets := x.2.trl.jSheets ++ x.1.map (fun p => (p, top)) } })

/-- The last record of the journal sheets that are on media with every one before them. -/
def journalTop (d : Dev) : Nat :=
  ((d.trl.jSheets.takeWhile (fun x => psaOnMedia d x.1)).map (·.2)).foldl max d.trl.jDurable

/-! ### The maps of an object (R216–R219) -/

/-- Sheets a coded unit takes on media. -/
def Coded.span (c : Coded) : Nat := (c.off + c.len + 4095) / 4096

/-- The PSAs an object's maps name. -/
def Obj.psas (d : Dev) (o : Obj) : List Nat :=
  o.map.filterMap (fun e => match e.2 with | .psa p => some p | .felt _ => none) ++
  o.coded.flatMap (fun c => match c.loc with | .psa p => psaRun d p c.span | .felt _ => [])

/-- Sheets of the object's range that a coded unit stands for: its own, or of a frame object those in which the pixels of
its tile begin (log 124). -/
def unitSheets (o : Obj) (c : Coded) : List Nat :=
  match o.frame with
  | none => (List.range c.sheets).map (· + c.no)
  | some f =>
    let t := f.tileCount
    let sec := sectionLen f.ptype f.width f.height t
    let base := 64 + 16 * f.frames.length + c.no / max 1 t * sec
    match (tileOffsets f (base + 64 + 16 * t) (List.range t)).find? (fun x => x.1 == c.no % max 1 t) with
    | some x => [x.2 / 4096]
    | none => []

/-- The coded unit of an object that covers a sheet: of a frame object the last one, in the stream's order, that begins at or
before it (R218). -/
def unitOver (o : Obj) (s : Nat) : Option Coded :=
  if o.frame.isNone then o.coded.find? (fun c => (unitSheets o c).contains s)
  else
    let first (c : Coded) : Nat := (unitSheets o c).headD (s + 1)
    o.coded.foldl (fun acc c => if s < first c then acc else match acc with
      | some a => if first a < first c then some c else acc
      | none => some c) none

/-- Entry of a map for a sheet (R218): SHEET, CODED or CONT; UNMAPPED where it holds nothing, and while its data waits in
protected felt for a place. -/
def mapEntry (o : Obj) (s : Nat) : Nat :=
  match o.coded.find? (fun c => (unitSheets o c).head? == some s) with
  | some c => (match c.loc with
      | .psa p => 2 ^ 63 + (c.len / 64 - 1) * 2 ^ 46 + c.off / 64 * 2 ^ 40 + p
      | .felt _ => 0)
  | none =>
    match unitOver o s with
    | some c => (match c.loc with | .psa _ => 3 * 2 ^ 62 | .felt _ => 0)
    | none => match tblGet o.map s with
      | some (.psa p) => 2 ^ 62 + p
      | _ => 0

/-- Entry of the extent table for extent e (R217): HOLE, SOLID where its 256 sheets follow in quire order within one ream,
else PAGED with its map page. -/
def extentEntry (d : Dev) (o : Obj) (e : Nat) : Nat :=
  let ss := (List.range 256).map (· + 256 * e)
  if ss.all (fun s => mapEntry o s == 0) then 0
  else match tblGet o.map (256 * e) with
    | some (.psa p) =>
      if (ss.map (fun s => mapEntry o s)) == (psaRun d p 256).map (2 ^ 62 + ·) then 2 ^ 62 + p
      else 2 ^ 63 + tblGetD o.pages e 0
    | _ => 2 ^ 63 + tblGetD o.pages e 0

/-- Extents of an object (R216). -/
def Obj.extents (o : Obj) : Nat := (o.len + (2 ^ 20 - 1)) / 2 ^ 20

/-- The 2,048 bytes of the map page of extent e (R218). -/
def mapPage (o : Obj) (e : Nat) : List Byte := (List.range 256).flatMap (fun i => natLe 8 (mapEntry o (256 * e + i)))

/-- A map page as it stands in a lease slot: the entries, then page number, generation and CRC-32C (R219). -/
def slotPage (o : Obj) (e page gen : Nat) : List Byte :=
  let b := mapPage o e ++ natLe 8 page ++ natLe 4 gen
  b ++ natLe 4 (crcStd b).toNat ++ List.replicate 48 0

/-- Extents a range touches get a map page each, the first time (R217). -/
def givePages (o : Obj) : List Nat → Dev → Obj × Dev
  | [], d => (o, d)
  | e :: es, d =>
    if (tblGet o.pages e).isSome then givePages o es d
    else givePages { o with pages := tblSet o.pages e d.trl.nextPage } es
      { d with trl := { d.trl with nextPage := d.trl.nextPage + 1 } }

/-- The object a map page belongs to, with its extent. -/
def pageOwner (d : Dev) (page : Nat) : Option (Obj × Nat) :=
  (d.kdr.slots.findSome? (fun x => match x.2.obj with
    | some o => (match o.pages.find? (fun e => e.2 == page) with | some e => some (o, e.1) | none => none)
    | none => none))

/-! ### Leased map pages (R29, R125, R126, R219) -/

/-- Map pages the cache of 40 GiB holds: a page of a higher number lies in a lease, where there is one (R219; log 88). -/
abbrev cachePages : Nat := 20971520

/-- Slots of the leased regions, 992 in each 2 MiB of them: their addresses (R219). -/
def leaseSlotAt (l : Lease) (i : Nat) : Option Nat :=
  let rec go : List (Nat × Nat) → Nat → Option Nat
    | [], _ => none
    | (a, n) :: rs, i =>
      let k := n / 2 ^ 21 * 992
      if i < k then some (a + i / 992 * 2 ^ 21 + i % 992 * 2112) else go rs (i - k)
  go l.regions i

/-- A page lies in the lease in force. -/
def leased (d : Dev) (page : Nat) : Bool := d.hqe.lease.active && !d.hqe.lease.revoking && cachePages ≤ page

/-- The lease holds a page as it stands: written to its slot, and not changed since (R126). -/
def leaseHolds (d : Dev) (page : Nat) : Bool :=
  leased d page && d.hqe.lease.slots.contains page && !d.hqe.lease.dirty.any (fun x => x.1 == page)

/-- The slot of a page, the next one for a page that has none. -/
def leaseSlotOf (page : Nat) (d : Dev) : Option Nat × Dev :=
  let l := d.hqe.lease
  if l.slots.contains page then (leaseSlotAt l (l.slots.idxOf page), d)
  else match leaseSlotAt l l.slots.length with
    | none => (none, d)
    | some a => (some a, { d with hqe := { d.hqe with lease := { l with slots := l.slots ++ [page] } } })

/-- Write a page to its slot in host memory (R219). -/
def writeLeased (page : Nat) (d : Dev) : Dev :=
  match pageOwner d page with
  | none => d
  | some (o, e) =>
    let s := leaseSlotOf page d
    match s.1 with
    | none => s.2
    | some a => { s.2 with hqe := { s.2.hqe with
        hmem := memStore s.2.hqe.hmem a (slotPage o e page s.2.hqe.lease.gen.toNat) } }

/-- Pages all of whose changes have durable journal records are written to the lease, never before (R126, R232). -/
def writeDirty (d : Dev) : Dev :=
  let late := (d.hqe.lease.dirty.filter (fun x => d.trl.jDurable < x.2)).map (·.1)
  let ready := d.hqe.lease.dirty.filter (fun x => !late.contains x.1)
  if !d.hqe.issues || ready.isEmpty then d
  else
    let d1 := { d with hqe := { d.hqe with lease := { d.hqe.lease with
      dirty := d.hqe.lease.dirty.filter (fun x => late.contains x.1) } } }
    ready.foldl (fun d x => if leased d x.1 then writeLeased x.1 d else d) d1

/-- The pages of some extents of an object have changed under journal record `seq`. -/
def dirtyPages (pages : List Nat) (seq : Nat) (d : Dev) : Dev :=
  let ps := pages.filter (leased d)
  if ps.isEmpty then d
  else { d with hqe := { d.hqe with lease := { d.hqe.lease with dirty := d.hqe.lease.dirty ++ ps.map (·, seq) } } }

/-! ### Protected felt (R22, R212, R461) -/

/-- Bytes of a held write not yet on media. -/
def Held.amount (h : Held) : Nat := (h.runs.map (·.amount)).foldl (· + ·) 0

/-- A held write is on media with the journal records that map it. -/
def Held.settled (d : Dev) (h : Held) : Bool := h.runs.isEmpty && h.committed && decide (h.jseq ≤ d.trl.jDurable)

/-- Drop the manifest entries of completed writes that are on media (R461); a write of a BATCH group stays until the whole
group is (R166). -/
def pruneHeld (d : Dev) : Dev :=
  let done (h : Held) : Bool := h.acked.isSome && h.settled d
  { d with flt := { d.flt with held := d.flt.held.filter (fun h =>
    !(done h && (h.group.isNone || d.flt.held.all (fun x => x.group != h.group || done x)))) } }

/-- A run is on media. -/
def Run.onMedia (d : Dev) (r : Run) : Bool := !r.psas.isEmpty && r.psas.all (psaOnMedia d)

/-- Change a held entry. -/
def updHeld (id : Nat) (f : Held → Held) (d : Dev) : Dev :=
  { d with flt := { d.flt with held := d.flt.held.map (fun h => if h.id == id then f h else h) } }

/-- Runs that have reached media are held no more; those of a streamed write that has not committed keep their places for
the maps its commit makes (R212, R516). -/
def settleRuns (d : Dev) : Dev :=
  pruneHeld { d with flt := { d.flt with held := d.flt.held.map (fun h =>
    if h.committed then { h with runs := h.runs.filter (fun r => !r.onMedia d) } else h) } }

/-- Journal records up to a sequence are durable; a keyspace's durable mark follows its newest SEQ record (R232, R234), and
leased pages whose record is durable are written (R126). -/
def journalDurable (seq : Nat) (d : Dev) : Dev :=
  if seq ≤ d.trl.jDurable then d
  else
    let marks := d.trl.journal.filter (fun r => r.typ == .seq && d.trl.jDurable < r.seq && r.seq ≤ seq)
    let d1 := { d with trl := { d.trl with jDurable := seq } }
    pruneHeld (writeDirty (marks.foldl (fun d r => updKs r.a (fun k => { k with mark := w32 r.b }) d) d1))

/-- The map entry of a run that waited in felt names its place now. -/
def setLoc (h : Held) (r : Run) (p : Nat) (d : Dev) : Dev :=
  let sheet (e : Nat × Loc) : Nat × Loc := if e.1 == r.no && e.2 == .felt h.id then (e.1, .psa p) else e
  let unit (c : Coded) : Coded := if c.no == r.no && c.loc == .felt h.id then { c with loc := .psa p } else c
  updSlot h.slot (fun s =>
    if s.live && s.objId == h.objId && r.kind == 0 then
      { s with obj := s.obj.map (fun o => if r.coded then { o with coded := o.coded.map unit } else { o with map := o.map.map sheet }) }
    else s) d

/-- The sheets a run goes to media in: the tag names the object, its keyspace and the sheet (R209). -/
def runSheets (h : Held) (r : Run) : List Sheet :=
  (List.range ((r.bytes.length + 4095) / 4096)).map (fun i =>
    ⟨slice r.bytes (4096 * i) 4096, mkTag h.objId h.ksid.toNat r.kind (r.sheetNo.getD r.no + i), true⟩)

/-- Charge of placing sheets of streams 0–2 natively (R362). -/
def placeCharge (slc : Bool) (n : Nat) (d : Dev) : Dev := charge 4 (energyFlat (if slc then 8200000 else 10500000) n 1) d

/-- Place the runs of a held write that wait, in order, while free reams allow it (R229, R236); answers whether one was
placed. Object records go by themselves, and raw frames wait for the calender. -/
def placeRuns (env : Env) (h : Held) : List Run → Dev → Bool × Dev
  | [], d => (false, d)
  | r :: rs, d =>
    if r.kind = 1 || r.kind = 256 || !r.psas.isEmpty then placeRuns env h rs d
    else if freeReams env d < freeUrgent d then (false, d)
    else
      let slc := wantsSlc d r.stream false
      match placeStretch env r.stream slc (runSheets h r) d with
      | none => (false, d)
      | some x =>
        let mark (y : Run) : Run := if y.kind == r.kind && y.no == r.no && y.psas.isEmpty then { y with psas := x.1 } else y
        let d1 := updHeld h.id (fun y => { y with runs := y.runs.map mark }) (placeCharge slc x.1.length x.2)
        (true, (placeRuns env h rs (setLoc h r (x.1.headD 0) d1)).2)

/-- Map pages of the extents a held write's runs touch. -/
def heldPages (d : Dev) (h : Held) : List Nat :=
  match slotAt d h.slot with
  | some s => (match s.obj with
      | some o => if s.objId == h.objId then
          (o.pages.filter (fun e => h.runs.any (fun r => r.kind == 0 && (o.frame.isSome || r.no / 256 == e.1)))).map (·.2)
        else []
      | none => [])
  | none => []

/-- Place what a held write has waiting; the changed map entries are journaled, and a committed write is durable with that
record (R232). -/
def placeHeld (env : Env) (id : Nat) (d : Dev) : Dev :=
  match d.flt.held.find? (fun h => h.id == id) with
  | none => d
  | some h =>
    let x := placeRuns env h h.runs d
    if !x.1 then x.2
    else
      let d1 := addJournal .map h.objId h.version.toNat 0 x.2
      dirtyPages (heldPages d1 h) (d1.trl.jNext - 1) (updHeld id (fun y => { y with jseq := max y.jseq (d1.trl.jNext - 1) }) d1)

/-! ### Object records (R222, R223) -/

/-- Staged records, in order, that one sheet holds. -/
def stagedFit : Nat → List Staged → List Staged
  | _, [] => []
  | used, s :: ss => if used + s.bytes.length ≤ 4096 then s :: stagedFit (used + s.bytes.length) ss else []

/-- A staged record has its place: the slot names it unless a later record took its place there, its bytes leave protected
felt, and the write whose INLINE value it holds waits for its sheet (R222, R232). -/
def settleStaged (psa : Nat) : Nat → List Staged → Dev → Dev
  | _, [], d => d
  | off, s :: ss, d =>
    let staged : Word := BitVec.ofNat 64 (s.dr + 2 ^ 63)
    let d1 := match slotAt d s.slot with
      | some x => if x.record == staged then
          addJournal .commit s.slot x.version.toNat (x.objId + (psa + off * 2 ^ 40) * 2 ^ 48)
            (updSlot s.slot (fun x => { x with record := BitVec.ofNat 64 (psa + off * 2 ^ 40) }) d)
        else d
      | none => d
    let d2 := updHeld s.held (fun h => { h with
      jseq := max h.jseq (d1.trl.jNext - 1), runs := h.runs.map (fun r => if r.kind == 1 then { r with psas := [psa] } else r) }) d1
    settleStaged psa (off + s.bytes.length) ss
      { d2 with mea := { d2.mea with dr := memZero d2.mea.dr s.dr s.bytes.length } }

/-- Place record sheets: a full one as soon as the next record does not fit it, the last one when `force` says so. -/
def placeStaged (env : Env) (force : Bool) : Nat → Dev → Dev
  | 0, d => d
  | n + 1, d =>
    let fit := stagedFit 0 d.trl.staged
    if fit.isEmpty || (!force && fit.length = d.trl.staged.length) || freeReams env d < freeUrgent d then d
    else
      let bs := fit.flatMap (·.bytes)
      let slc := wantsSlc d 2 false
      match placeStretch env 2 slc [⟨bs ++ List.replicate (4096 - bs.length) 0, mkTag 0 0 1 (d.trl.wseq), true⟩] d with
      | none => d
      | some x =>
        let d1 := settleStaged (x.1.headD 0) 0 fit (placeCharge slc 1 x.2)
        placeStaged env force n { d1 with trl := { d1.trl with staged := d1.trl.staged.drop fit.length, stagedAt := env.tick } }

/-- Everything that waits for a place gets one as far as it can: held writes, object records and journal records; with
`force` also the sheets that are not full. -/
def placeAll (env : Env) (force : Bool) (d : Dev) : Dev :=
  let d1 := d.flt.held.foldl (fun d h => placeHeld env h.id d) d
  let d2 := placeStaged env force (d1.trl.staged.length + 1) d1
  placeJournal env force (d2.trl.journal.length + 1) d2

/-! ### Reading pages (R214, R215, R242, R249) -/

/-- RETRY_REFRESH and READ_LIMIT as they act (R248). -/
def retryRefresh (d : Dev) : Nat := max 1 (fld d.trl.refreshReg 16 4)
def readLimit (d : Dev) (slc : Bool) : Nat := 1000 * max 1 (fld d.trl.refreshReg 0 16) * (if slc then 4 else 1)

/-- Queue the ream of a PSA for refresh: cause 1 reads, 2 retry, 3 patrol (R242). -/
def queueRefresh (psa cause : Nat) (d : Dev) : Dev :=
  match reamOf d psa with
  | some (r, _) => updReam r (fun x => { x with refreshQ := some (x.refreshQ.getD cause) }) d
  | none => d

/-- How a page read ends whose die is failed: by rebuild, and not at all while another member of its ream is lost too
(R246). -/
def deadEnd (d : Dev) (psa : Nat) (e : ReadEnd) : ReadEnd :=
  if !d.trl.failedDies.contains (psaDieKey psa) then e
  else match reamOf d psa with
    | some (r, x) =>
      if (x.all.filter (fun pos => d.trl.failedDies.contains (dieKey (groupChannel (reamGroup r) pos) (groupDie (reamGroup r))))).length < 2
      then (if e == .unrecoverable then .unrecoverable else .rebuild) else .unrecoverable
    | none => .unrecoverable

/-- A read of a page counts for its block and its ream, and queues a refresh at the limit (R242). -/
def countRead (psa : Nat) (d : Dev) : Dev :=
  let d0 := updBlock (psaBlockKey psa) (fun b => { b with reads := b.reads + 1 }) d
  match reamOf d0 psa with
  | some (r, x) =>
    let d' := updReam r (fun x => { x with reads := x.reads + 1 }) d0
    if readLimit d x.slc ≤ (tblGetD d'.trl.blocks (psaBlockKey psa) {}).reads then queueRefresh psa 1 d' else d'
  | none => d0

/-- A rebuild reads the page of the same number of every other live member of the ream (R214, R242). -/
def countRebuild (psa : Nat) (d : Dev) : Dev :=
  match reamOf d psa with
  | some (r, x) =>
    (x.all.filter (fun pos => pos != psaPos psa && (livePos d (reamGroup r)).contains pos)).foldl
      (fun d pos => countRead (memberPsa d r pos (psaPage psa) 0) d) d
  | none => d

/-- One page read: counts, events, refresh and retirement; a read whose die gave its data ends a run of failures (R214,
R215, R242, R246, R249). A channel transfer error is reported, and the page is transferred again (R248). -/
def pageRead (env : Env) (psa : Nat) (e0 : ReadEnd) (d : Dev) : Dev :=
  let ch := psaChannel psa
  let lo := psa % 2 ^ 32
  let hi := psa / 2 ^ 32
  let whole := match deadEnd d psa e0 with | .rebuild => true | .unrecoverable => true | _ => false
  let d1 := if whole then countRebuild psa (countRead psa d) else countRead psa d
  let good (d : Dev) : Dev := { d with trl := { d.trl with dieFails := tblErase d.trl.dieFails (psaDieKey psa) } }
  match deadEnd d psa e0 with
  | .hard l =>
    if l % 16 = 0 || l % 16 = (tblGetD d.trl.blocks (psaBlockKey psa) {}).level then good d1
    else
      let d2 := updBlock (psaBlockKey psa) (fun b => { b with level := l % 16 }) { d1 with trl := { d1.trl with retries := sat32 (d1.trl.retries + 1) } }
      let d3 := event env 0x0B01 1 clsMedia ch lo hi (l % 16) d2
      good (if retryRefresh d ≤ l % 16 then queueRefresh psa 2 d3 else d3)
  | .soft n =>
    good (queueRefresh psa 2 (event env 0x0B02 2 clsMedia ch lo hi n { d1 with trl := { d1.trl with soft := sat32 (d1.trl.soft + 1) } }))
  | .rebuild =>
    queueRefresh psa 2 (event env 0x0B03 3 clsMedia ch lo hi 0
      { d1 with trl := { d1.trl with rebuilds := sat32 (d1.trl.rebuilds + 1) } })
  | .unrecoverable =>
    let ksid := match tblGet d.trl.sheets psa with | some sh => tagKsid sh.tag | none => 0
    let d2 := { d1 with trl := { d1.trl with uncorr := sat32 (d1.trl.uncorr + 1), uncorrLife := d1.trl.uncorrLife + 1 } }
    let d3 := event env 0x0B04 5 clsMedia ch lo hi ksid (setCause env 11 1 d2)
    queueRefresh psa 2 (updBlock (psaBlockKey psa) (fun b => { b with retireQ := some (b.retireQ.getD 3) }) d3)
  | .channel kind => good (event env 0x0B08 5 clsHardware ch ch kind 0 (setCause env 11 0x10 d1))

/-- The highest retry level a page read uses: the block's last successful one at step 1; step 2 begins after it and wraps,
and what ends later has been through all of them (R214, R228). -/
def usedLevel (d : Dev) (psa : Nat) (e : ReadEnd) : Nat :=
  let last := (tblGetD d.trl.blocks (psaBlockKey psa) {}).level
  match e with
  | .hard l => if l % 16 = 0 || l % 16 = last then last else if last < l % 16 then l % 16 else 15
  | .channel _ => last
  | _ => 15

/-- The method of a page read: 0 hard, 1 soft, 2 rebuild. -/
def endMethod : ReadEnd → Nat
  | .soft _ => 1
  | .rebuild => 2
  | _ => 0

/-- First sheets of the pages a list of sheets lies in, in order. -/
def pagesOf : List Nat → List Nat
  | [] => []
  | p :: ps => p :: (pagesOf ps).filter (fun q => q / 4 != p / 4)

/-- Read the pages on media that a list of sheets lies in, with how each read ended (`.hard 0` where nothing is said); sheets
of quires not yet programmed come from felt (R212). Answers the pages with their ends and levels. -/
def readPages (env : Env) (psas : List Nat) (ends : List ReadEnd) (d : Dev) : List (Nat × ReadEnd × Nat) × Dev :=
  let pages := pagesOf (psas.filter (fun p => (psaRef d p).isNone || psaOnMedia d p))
  let es := (pages.zipIdx).map (fun x =>
    let e := if psas.any (fun p => p / 4 == x.1 / 4 && d.trl.badPsas.contains p) then .unrecoverable
      else deadEnd d x.1 (ends.getD x.2 (.hard 0))
    (x.1, e, usedLevel d x.1 e))
  (es, es.foldl (fun d x => pageRead env x.1 x.2.1 d) d)

end Sys2Proof.Machine
end

