-- ==== Sys2Proof/Machine/Writes.lean ====
section
/-! DEFINITION. Shared operations of the key-value writes (05, R136–R172, R516): protected felt, the conditions under
the slot lock, range pieces, and the commit of a change. -/

namespace Sys2Proof.Machine

/-! ### Protected felt (R22, R231, R458, R516) -/

/-- What the limit of R22 counts: data of acknowledged or committed writes not yet on media. -/
def heldBytes (d : Dev) : Nat := ((d.flt.held.filter (·.committed)).map Held.amount).foldl (· + ·) 0

/-- All data in the protected write region, streamed portions included; what has reached media has left it (R516). -/
def regionBytes (d : Dev) : Nat :=
  (d.flt.held.map (fun h => ((h.runs.filter (fun r => !r.onMedia d)).map (·.amount)).foldl (· + ·) 0)).foldl (· + ·) 0

/-- What may be held: the limit, and no more than the drain reserve can take; the WORN journal reserve is not part of it (R22,
R231). -/
def admitLimit (env : Env) (d : Dev) : Nat :=
  min (limitBytes env) (min (erasedReams d - wornLeft d) (reserveReams env) * (180 * 2 ^ 20) - 256 * 2 ^ 20)

/-- There is room for n more bytes of committed data. -/
def roomFor (env : Env) (d : Dev) (n : Nat) : Bool := heldBytes d + n ≤ admitLimit env d

/-- Admission is held: cause and event (R22, 16). -/
def admissionHeld (env : Env) (d : Dev) : Dev :=
  event env 0x0A02 3 clsPower 0 ((heldBytes d + (2 ^ 20 - 1)) / 2 ^ 20) env.pw.limitMib 0 (setCause env 10 4 d)

/-- A write is streamed: its value exceeds a quarter of the limit in force, or the limit is 0 and it brings data, be it the
zeros of a punch (R149, R162, R458, R516). -/
def streams (env : Env) (c : V512) : Bool :=
  let o := capOpc c
  let value := o == 0x01 || o == 0x05 || o == 0x07 || o == 0x0C || (o == 0x09 && !bitOf c 48)
  (env.pw.limitMib == 0 && (value || o == 0x08)) || (value && limitBytes env < 4 * capLen c)

/-- A write is handled as DURABLE (R23, R162, R458). -/
def durableWrite (env : Env) (c : V512) : Bool := capDurable c || streams env c || env.pw.limitMib == 0

/-- Every held entry listed is settled, or gone. -/
def allSettled (d : Dev) (ids : List Nat) : Bool := d.flt.held.all (fun h => !ids.contains h.id || h.settled d)

/-! ### The staging pool (R203, R204) -/

/-- Floors as they act, in bytes. -/
def stageFloor (d : Dev) (roi : Bool) : Nat :=
  2 ^ 20 * (if roi then min 32 (max 4 (fld d.flt.stageFloor 8 8)) else min 96 (max 4 (fld d.flt.stageFloor 0 8)))

/-- Staging in use by a class: what is granted, and coded tiles on their way to media. -/
def stageUsed (d : Dev) (roi : Bool) : Nat :=
  ((d.flt.waits.filter (fun w => w.granted && w.roi == roi)).map (·.bytes)).foldl (· + ·) 0 +
  (if roi then 0 else ((d.flt.held.filter (fun h => !h.runs.isEmpty)).map (·.stage)).foldl (· + ·) 0)

/-- A request of r bytes by a class may be granted (R203). -/
def stageFits (d : Dev) (roi : Bool) (r : Nat) : Bool :=
  stageUsed d roi + r ≤ stageFloor d roi ||
  stageUsed d false + stageUsed d true + r ≤ 128 * 2 ^ 20 - (stageFloor d (!roi) - stageUsed d (!roi))

/-- A task's staging is granted, or may be granted at once because nothing of its class waits. -/
def stageNow (d : Dev) (t : Task) (roi : Bool) (r : Nat) : Bool :=
  d.flt.waits.any (fun w => w.task == t.ref && w.granted) ||
  (!(d.flt.waits.any (fun w => w.roi == roi && !w.granted)) && stageFits d roi r)

/-- A task waits for staging; ROI requests that wait are counted. -/
def stageWait (t : Task) (roi : Bool) (r : Nat) (d : Dev) : Dev :=
  if d.flt.waits.any (fun w => w.task == t.ref) then d
  else { d with flt := { d.flt with waits := d.flt.waits ++ [⟨roi, r, t.ref, false⟩],
                                    roiWaits := sat32 (d.flt.roiWaits + b2n roi) } }

/-- A task gives its staging back. -/
def stageFree (t : Task) (d : Dev) : Dev :=
  { d with flt := { d.flt with waits := d.flt.waits.filter (fun w => w.task != t.ref) } }

/-- The first waiting request of a class. -/
def stageFirst (d : Dev) (roi : Bool) : Option StageReq := d.flt.waits.find? (fun w => w.roi == roi && !w.granted)

/-- Mark a request granted. -/
def stageMark (w : StageReq) (d : Dev) : Dev :=
  { d with flt := { d.flt with waits := d.flt.waits.map (fun x => if x == w then { x with granted := true } else x) } }

/-- STAGING_GRANT: calender requests first, in arrival order within a class (R203). -/
def execStagingGrant (s : State) : Host.Outcome State Fault Refusal :=
  onDev s (fun _ d =>
    let cal := match stageFirst d false with | some w => if stageFits d false w.bytes then some w else none | none => none
    match cal with
    | some w => stageMark w d
    | none =>
      match stageFirst d true with
      | some w => if stageFits d true w.bytes then stageMark w d else d
      | none => d)

/-! ### The current object and the conditions (R133–R150, R173 step 8) -/

/-- Version and object a slot holds, when it is LIVE. -/
def Slot.current (s : Slot) : Option (W32 × Obj) := if s.live then s.obj.map (fun o => (s.version, o)) else none

/-- RESULT of a version and a count. -/
def resultOf (v : W32) (hi : Nat) : Word := BitVec.ofNat 64 (v.toNat + min hi 0xFFFFFFFF * 2 ^ 32)

/-- The current version, 0 when no object exists. -/
def curVer (cur : Option (W32 × Obj)) : W32 := match cur with | some x => x.1 | none => 0

/-- The current object is a frame object. -/
def curFrame (cur : Option (W32 × Obj)) : Bool := match cur with | some x => x.2.frame.isSome | none => false

/-- The current length, 0 when no object exists. -/
def curLen (cur : Option (W32 × Obj)) : Nat := match cur with | some x => x.2.len | none => 0

/-- Kind, existence, version and length conditions of a write on plain values, in the order of R173. -/
def writeConds (c : V512) (cur : Option (W32 × Obj)) : Option Verdict :=
  let opts := capOpts c
  let ver := resultOf (curVer cur) 0
  match capOpc c with
  | 0x01 =>
    if bitOf c 48 && cur.isSome then some (scExists, ver)
    else if bitOf c 49 && cur.isNone then some (scNotFound, 0) else none
  | 0x03 =>
    if opts % 2 = 1 && cap c 24 4 ≠ (curVer cur).toNat then some (scVersionMismatch, ver)
    else if cur.isNone then some (scNotFound, 0) else none
  | 0x05 =>
    if curFrame cur then some (scInvalidField, 0)
    else if bitOf c 49 && cur.isNone then some (scNotFound, 0)
    else if bitOf c 48 && curLen cur ≠ capOff c then some (scVersionMismatch, ver)
    else if Config.maxValue < curLen cur + capLen c then some (scTooLarge, 0) else none
  | 0x07 =>
    if curFrame cur then some (scInvalidField, 0)
    else if !bitOf c 48 && cur.isNone then some (scNotFound, 0) else none
  | 0x08 =>
    if curFrame cur then some (scInvalidField, 0) else if cur.isNone then some (scNotFound, 0) else none
  | 0x09 => if cap c 24 4 ≠ (curVer cur).toNat then some (scVersionMismatch, ver) else none
  | _ => none

/-- WORN stops this write (R171). -/
def wornStops (d : Dev) (c : V512) : Bool :=
  let o := capOpc c
  d.trl.worn && (o == 0x01 || o == 0x05 || o == 0x07 || o == 0x08 || o == 0x0C || (o == 0x09 && !bitOf c 48))

/-! ### Ranges and pieces (R146–R149, R160) -/

/-- Sheets a byte range touches. -/
def sheetsOf (off len : Nat) : List Nat :=
  if len = 0 then [] else (List.range ((off + len - 1) / 4096 + 1 - off / 4096)).map (· + off / 4096)

/-- Sheets that lie wholly in a byte range. -/
def wholeSheets (off len : Nat) : List Nat :=
  let lo := (off + 4095) / 4096
  (List.range ((off + len) / 4096 - lo)).map (· + lo)

/-- A number put in its place in a rising list without repeats. -/
def insertNat (x : Nat) : List Nat → List Nat
  | [] => [x]
  | y :: t => if x < y then x :: y :: t else if x = y then y :: t else y :: insertNat x t

/-- Union of two rising lists of sheets. -/
def mergeSheets (a b : List Nat) : List Nat := b.foldl (fun acc x => insertNat x acc) a

/-- Pieces of a range operation (R160). -/
def pieceCount (off len : Nat) : Nat :=
  if len ≤ 2 ^ 20 then 1 else (off + len + (2 ^ 20 - 1)) / 2 ^ 20 - off / 2 ^ 20

/-- Offset and length of piece i. -/
def pieceAt (off len i : Nat) : Nat × Nat :=
  if len ≤ 2 ^ 20 then (off, len)
  else
    let lo := if i = 0 then off else (off / 2 ^ 20 + i) * 2 ^ 20
    (lo, min (off + len) ((off / 2 ^ 20 + i + 1) * 2 ^ 20) - lo)

/-- The range a write changes: offset and length. A whole-object write is one piece (R142, R160). -/
def writeRange (c : V512) (cur : Option (W32 × Obj)) : Nat × Nat :=
  match capOpc c with
  | 0x05 => (curLen cur, capLen c)
  | 0x07 => (capOff c, capLen c)
  | 0x08 => (min (capOff c) (curLen cur), min (curLen cur) (capOff c + capLen c) - min (capOff c) (curLen cur))
  | _ => (0, capLen c)

/-- The write is split by R160. -/
def ranged (opc : Nat) : Bool := opc == 0x05 || opc == 0x07 || opc == 0x08

/-- COMPRESS an object takes: 2 CAL1, 0 none (R140). -/
def compressOf (d : Dev) (c : V512) : Nat :=
  let o := fld c 50 2
  if (if o = 0 then (ksOf d (capKsid c)).compress else o) = 2 then 2 else 0

/-- A plain value of at most 3,072 bytes is stored INLINE (R223). -/
def inlineLen (n : Nat) : Bool := n ≤ 3072

/-- STORED: every sheet of an uncoded object; otherwise a multiple of 4,096 the manual leaves open (R145, log 4). -/
def withStored (o : Obj) (d : Dev) : Obj × Dev :=
  if o.compress = 0 && !inlineLen o.len then ({ o with stored := 4096 * o.sheets.length }, d)
  else
    let f := takeFree d
    ({ o with stored := 4096 * (f.1.toNat % 2 ^ 32) }, f.2)

/-- A fresh plain object holding bytes. -/
def freshObj (objId kgen compress : Nat) (bs : List Byte) : Obj :=
  { objId := objId, len := bs.length, data := memStore [] 0 bs, sheets := sheetsOf 0 bs.length, compress := compress,
    kgen := kgen }

/-- Bytes written into an object: a sheet none of whose earlier bytes below the new length is left is whole again (R215). -/
def Obj.write (o : Obj) (off : Nat) (bs : List Byte) : Obj :=
  let len := max o.len (off + bs.length)
  let whole (s : Nat) : Bool := off ≤ 4096 * s && min len (4096 * (s + 1)) ≤ off + bs.length
  { o with len := len, data := memStore o.data off bs, sheets := mergeSheets o.sheets (sheetsOf off bs.length),
           bad := o.bad.filter (fun s => !whole s) }

/-- A range punched: whole sheets are freed, the rest is zeroed (R149). -/
def Obj.punch (o : Obj) (off len : Nat) : Obj :=
  let whole := wholeSheets off len
  { o with data := memZero o.data off len, sheets := o.sheets.filter (fun s => !whole.contains s),
           bad := o.bad.filter (fun s => !whole.contains s) }

/-- Sheets a punch writes zeros to: those at the ends of its range that hold data (R149). -/
def punchEnds (o : Obj) (off len : Nat) : List Nat :=
  (sheetsOf off len).filter (fun s => !(wholeSheets off len).contains s && o.sheets.contains s)

/-- Bytes a punch writes as zeros (R149). -/
def punchBytes (o : Obj) (off len : Nat) : Nat :=
  ((punchEnds o off len).map (fun s => min (off + len) (4096 * (s + 1)) - max off (4096 * s))).foldl (· + ·) 0

/-- Footprint growth of the whole write (R168, R169). -/
def growth (c : V512) (cur : Option (W32 × Obj)) : Nat :=
  let r := writeRange c cur
  let old := match cur with | some x => x.2.footprint | none => 0
  match capOpc c with
  | 0x01 | 0x09 => if capOpc c = 0x09 && bitOf c 48 then 0 else 4096 * (sheetsOf 0 r.2).length - old
  | 0x05 | 0x07 =>
    4096 * (mergeSheets (match cur with | some x => x.2.sheets | none => []) (sheetsOf r.1 r.2)).length - old
  | _ => 0

/-! ### Committing (R136, R223, R232, R461) -/

/-- SFLAGS of an object (R222). -/
def sflagsOf (o : Obj) : Byte :=
  BitVec.ofNat 8 (b2n o.frame.isSome + 2 * b2n (o.frame.isNone && inlineLen o.len) + 4 * (if o.frame.isSome then 0 else o.compress))

/-! ### What a commit brings to media (R193, R200, R216–R218, R385) -/

/-- Bytes of [off, off + len) in [a, a + n). -/
def overlap (off len a n : Nat) : Nat := min (off + len) (a + n) - max off a

/-- Count tiles coded and tiles held uncoded (R204). -/
def countTiles (tiles raw : Nat) (d : Dev) : Dev :=
  { d with cal := { d.cal with tiles := d.cal.tiles + tiles, rawTiles := sat32 (d.cal.rawTiles + raw) } }

/-- Coding is charged to WC3 by the KiB of input, decoding to WC5 by the KiB of output (R362). -/
def chargeEncode (bytes : Nat) (d : Dev) : Dev := charge 3 (energyV2 d 50000 bytes 1024) d
def chargeDecode (bytes : Nat) (d : Dev) : Dev := charge 5 (energyV2 d 30000 bytes 1024) d

/-- Media bytes of coded data: it fills whole units of 64 bytes (R218). -/
def padUnit (bs : List Byte) : List Byte := bs ++ List.replicate (roundUp bs.length 64 - bs.length) 0

/-- What a coded form made by the drive decodes to, as it is coded and as it lies on media (log 12). -/
def bookForm (coded plain : List Byte) (d : Dev) : Dev :=
  { d with cal := { d.cal with book := (coded, plain) :: (padUnit coded, plain) :: d.cal.book } }

/-- Code a piece of a CAL1 object; its coded form is free, held uncoded when it would not be smaller (R193, R200; log 12). -/
def codePiece (plain : List Byte) (d : Dev) : List Byte × Dev :=
  let f := takeFree d
  let n := f.1.toNat % 2 ^ 17
  let raw := heldRaw 1 n plain.length
  let b := if raw then (plain, f.2) else takeFreeBytes n f.2
  (padUnit b.1, countTiles 1 (b2n raw) (chargeEncode plain.length (bookForm b.1 plain b.2)))

/-- A sheet has a place in the object's maps. -/
def Obj.mapped (o : Obj) (s : Nat) : Bool :=
  (tblGet o.map s).isSome || o.coded.any (fun c => c.no ≤ s && s < c.no + c.sheets)

/-- The uncoded sheets of a change, as runs that hold them, the last one's bytes up to the end of the object; the range counts the bytes the change brings (R22). -/
def sheetRuns (id : Nat) (off len : Nat) : List Nat → Obj → Obj × List Run
  | [], o => (o, [])
  | s :: ss, o =>
    let r := sheetRuns id off len ss { o with map := tblSet o.map s (.felt id) }
    (r.1, { no := s, bytes := memBytes o.data (4096 * s) (min 4096 (o.len - 4096 * s)), amount := overlap off len (4096 * s) 4096 } :: r.2)

/-- The coded pieces of a change of a CAL1 object, as runs (R200, R218). -/
def pieceRuns (id : Nat) (off len : Nat) : List Nat → Obj → Dev → Obj × List Run × Dev
  | [], o, d => (o, [], d)
  | u :: us, o, d =>
    let n := min 65536 (o.len - 65536 * u)
    let plain := memBytes o.data (65536 * u) n
    let b := codePiece plain d
    let c : Coded := { no := 16 * u, sheets := (n + 4095) / 4096, loc := .felt id, len := b.1.length }
    let r := pieceRuns id off len us { o with coded := o.coded.filter (fun x => x.no != 16 * u) ++ [c] } b.2
    (r.1, { no := 16 * u, coded := true, bytes := b.1, plain := plain, amount := overlap off len (65536 * u) n } :: r.2.1, r.2.2)

/-- Encrypt the runs of a committed piece: their bytes in order are the stored bytes that are cut in chunks, and so is the
uncoded form that a drain writes (R25, R385). -/
def cutRuns : List Run → List Byte → List Byte → List Run
  | [], _, _ => []
  | r :: rs, bs, ps =>
    { r with bytes := bs.take r.bytes.length, plain := ps.take r.plain.length } ::
      cutRuns rs (bs.drop r.bytes.length) (ps.drop r.plain.length)

/-- TKIND of a sheet of authentication tags: none R209 lists (log 126). -/
def tagSheetKind : Nat := 7 + Config.tagSheetKind.toNat % 249

/-- Sheets of 256 tags each (R385). -/
def tagRuns (tags : List Byte) : List Run :=
  (List.range ((tags.length + 4095) / 4096)).map (fun i =>
    { kind := tagSheetKind, no := i, bytes := slice tags (4096 * i) 4096 })

/-- Block operations of the standard program set under a keyspace's data key: when they would pass the usage limit, the FWD
is turned away and KGEN advances first (R382, R386). Charged to WC9 (R362). -/
def countOps (env : Env) (k bytes : Nat) (d : Dev) : Dev :=
  let n := encryptOps bytes
  let d1 := if usageLimit d < (ksOf d k).ops + n
    then updKs k (fun x => { x with ops := 0 }) (advanceKgen env k (setCause env 0x0D 4 d)) else d
  charge 9 (energyV2 d1 20000 bytes 1024) (updKs k (fun x => { x with ops := x.ops + n }) d1)

/-- The runs of a streamed portion in an encrypted keyspace: the version of its piece is not known, so that ciphertext and tags are
left open (R138, R385, R516; log 126). -/
def freeSeal (env : Env) (k : Nat) (rs : List Run) (d : Dev) : List Run × Dev :=
  if !(ksOf d k).encrypted || rs.isEmpty then (rs, d)
  else
    let n := (rs.map (fun x => x.bytes.length)).foldl (· + ·) 0
    let f := takeFreeBytes n (countOps env k n d)
    let g := takeFreeBytes (16 * ((n + 65535) / 65536)) f.2
    (cutRuns rs f.1 (rs.flatMap (·.plain)) ++ tagRuns g.1, g.2)

/-- The runs of a piece as they go to media: encrypted under the data key at the current KGEN, with the sheets of their tags, in an
encrypted keyspace (R385). -/
def sealRuns (k : Nat) (ver : W32) (o : Obj) (rs : List Run) (d : Dev) : List Run :=
  let x := ksOf d k
  if !x.encrypted || rs.isEmpty then rs
  else
    let key := dataKey k x.kgen x.ksr
    let e := encryptPiece key ver o.objId (rs.flatMap (·.bytes))
    cutRuns rs e.1 (encryptPiece key ver o.objId (rs.flatMap (·.plain))).1 ++ tagRuns e.2

/-- Lay out a change of a plain object: the sheets in `touch`, and those in `gone` that no longer hold data, in the range it
writes. An INLINE value lies in its object record alone (R223). -/
def layOut (id : Nat) (o : Obj) (touch gone : List Nat) (off len : Nat) (d : Dev) : Obj × List Run × Dev :=
  if inlineLen o.len then ({ o with map := [], coded := [] }, [], d)
  else
    let o1 : Obj := { o with
      map := o.map.filter (fun e => o.sheets.contains e.1),
      coded := o.coded.filter (fun c => o.sheets.any (fun s => c.no ≤ s && s < c.no + c.sheets)) }
    let need := o1.sheets.filter (fun s => touch.contains s || !o1.mapped s)
    if o.compress = 2 then
      let us := mergeSheets [] (need.map (· / 16) ++ (gone.filter (o1.mapped ·)).map (· / 16))
      pieceRuns id off len us o1 d
    else
      let r := sheetRuns id off len need o1
      (r.1, r.2, d)

/-! ### Object records (R222, R223) -/

/-- The object record of a version (R223). -/
def recordBytes (s : Slot) (ver : W32) (o : Obj) (encrypted : Bool) (value : List Byte) : List Byte :=
  let inl := o.frame.isNone && inlineLen o.len
  let head := natLe 1 (b2n o.frame.isSome) ++ [s.ksid] ++ natLe 1 s.key.length ++
    natLe 1 (b2n inl + 2 * (if o.frame.isSome then 0 else o.compress) + 8 * b2n encrypted) ++ natLe 4 ver.toNat ++ natLe 8 o.len ++
    natLe 6 o.objId ++ natLe 2 0 ++ natLe 8 o.footprint ++ natLe 8 o.stored ++ natLe 8 (if inl then 0 else o.xtab.toNat) ++
    natLe 4 (if inl then 0 else o.extents) ++ natLe 4 (if encrypted then o.kgen else 0) ++ natLe 4 0
  let v := if inl then value else []
  head ++ natLe 4 (crcStd (head ++ s.key ++ v)).toNat ++ s.key ++ v

/-- Stage the bytes of a slot's object record in protected felt: RECORD is STAGED with a DR offset in the protected write
region, which the manual leaves open (R222; log 4). Answers the RECORD. -/
def stageBytes (env : Env) (n id : Nat) (bs : List Byte) (d : Dev) : Word × Dev :=
  let f := takeFree d
  let dr := (Config.protBase + f.1.toNat % (8 * 2 ^ 30)) % 2 ^ 60
  let bs' := bs ++ List.replicate (roundUp bs.length 8 - bs.length) 0
  (BitVec.ofNat 64 (dr + 2 ^ 63),
   { f.2 with mea := { f.2.mea with dr := memStore f.2.mea.dr dr bs' },
              trl := { f.2.trl with staged := f.2.trl.staged ++ [⟨n, dr, id, bs'⟩],
                                    stagedAt := if f.2.trl.staged.isEmpty then env.tick else f.2.trl.stagedAt } })

/-- Stage the object record of a version. -/
def stageRecord (env : Env) (n id : Nat) (s : Slot) (ver : W32) (o : Obj) (d : Dev) : Word × Dev :=
  let k := s.ksid.toNat
  let x := ksOf d k
  let raw := memBytes o.data 0 o.len
  let value := if x.encrypted && inlineLen o.len && o.frame.isNone
    then (encryptPiece (dataKey k o.kgen x.ksr) ver o.objId raw).1 else raw
  stageBytes env n id (recordBytes s ver o x.encrypted value) d

/-- The object's extent table has its location, given once; where it lies the manual leaves open (R216, R223; log 4). -/
def giveXtab (o : Obj) (d : Dev) : Obj × Dev :=
  if o.xtab ≠ 0 || (o.frame.isNone && inlineLen o.len) then (o, d)
  else
    let g := takeFree d
    ({ o with xtab := g.1 &&& 0x0FFFFFFFFFFFFFFF#64 }, g.2)

/-! ### Held writes and commits (R23, R136, R232, R461) -/

/-- A manifest entry of a command's write (R461). -/
def heldOf (t : Task) (n : Nat) (s : Slot) (ver : W32) (objId bytes : Nat) (runs : List Run) (d : Dev) : Held :=
  { id := d.flt.nextHeld, opid := opId (capCid t.capsule) t.opSrc t.opFlow t.accTick, hash := s.hash, version := ver,
    ksid := s.ksid, opc := BitVec.ofNat 8 (capOpc t.capsule), objId := objId, bytes := bytes, runs := runs,
    jseq := d.trl.jNext - 1, sqid := (if t.opFlow then none else some t.opSrc.toNat), arrNo := t.arrNo, hostGen := t.hostGen,
    slot := n, prev := (s.current.map (·.2)), prevVer := (if s.live then s.version else 0), key := s.key }

/-- Enter a write in the drain manifest; answers its id. -/
def addHeld (t : Task) (n : Nat) (s : Slot) (ver : W32) (objId bytes : Nat) (runs : List Run) (d : Dev) : Nat × Dev :=
  (d.flt.nextHeld, { d with flt := { d.flt with
    held := d.flt.held ++ [heldOf t n s ver objId bytes runs d], nextHeld := d.flt.nextHeld + 1 } })

/-- Extents of an object that hold anything. -/
def mappedExtents (o : Obj) : List Nat :=
  if o.frame.isSome then List.range o.extents
  else mergeSheets [] (o.map.map (fun e => e.1 / 256) ++ o.coded.map (fun c => c.no / 256))

/-- An INLINE value: it lies in its object record (R223). -/
def Obj.inline (o : Obj) : Bool := o.frame.isNone && inlineLen o.len

/-- Bytes a piece stores: those of its runs, or an INLINE value (R385). -/
def storedNow (o : Obj) (runs : List Run) : Nat :=
  if o.inline then o.len else (runs.map (fun r => r.bytes.length)).foldl (· + ·) 0

/-- The KGEN of a version: what is written whole takes the current one, an object written in part keeps its own (R386; log 152). -/
def takeKgen (s : Slot) (o : Obj) (d : Dev) : Obj :=
  if s.objId ≠ o.objId || o.inline then { o with kgen := (ksOf d s.ksid.toNat).kgen } else o

/-- The run of an INLINE value, which waits in its record, with the sheet of its tag in an encrypted keyspace (R223, R385). -/
def inlineRuns (k : Nat) (ver : W32) (o : Obj) (bytes : Nat) (d : Dev) : List Run :=
  let x := ksOf d k
  if !o.inline || o.len = 0 then []
  else { kind := 1, amount := bytes } ::
    (if x.encrypted then tagRuns (encryptPiece (dataKey k o.kgen x.ksr) ver o.objId (memBytes o.data 0 o.len)).2 else [])

/-- Install an object version in a slot: the slot is LIVE, its record staged, the change journaled and held, and what it
brings goes to media at once as far as it can (R23, R212, R232). `runs` are those of the change; an INLINE value waits in
its record. -/
def install (env : Env) (t : Task) (n : Nat) (ver : W32) (o : Obj) (runs : List Run) (bytes : Nat) (d : Dev) : Nat × Dev :=
  match slotAt d n with
  | none => (0, d)
  | some s =>
    let k := s.ksid.toNat
    let d0 := if (ksOf d k).encrypted then countOps env k (storedNow o runs) d else d
    let pg := givePages (takeKgen s o d0) (mappedExtents o) d0
    let xt := giveXtab pg.1 pg.2
    let st := withStored xt.1 xt.2
    let r := stageRecord env n d.flt.nextHeld s ver st.1 st.2
    let d1 := updSlot n (fun s =>
      { s with live := true, version := ver, obj := some st.1, objId := o.objId, sflags := sflagsOf o, record := r.1 }) r.2
    let h := addHeld t n s ver o.objId bytes (sealRuns k ver st.1 runs d1 ++ inlineRuns k ver st.1 bytes d1) (addJournal .commit n ver.toNat (o.objId + r.1.toNat * 2 ^ 48) d1)
    (h.1, placeStaged env false (h.2.trl.staged.length + 1) (placeHeld env h.1 h.2))

/-- Remove the object of a slot at a version (R144); a slot somebody still wants stays PENDING (R224). -/
def uninstall (t : Task) (n : Nat) (ver : W32) (d : Dev) : Nat × Dev :=
  match slotAt d n with
  | none => (0, d)
  | some s =>
    let d1 := updSlot n (fun s => { s with live := false, version := 0, obj := none, objId := 0, sflags := 0, record := 0 }) d
    let h := addHeld t n s ver 0 0 [] (addJournal .remove n ver.toNat 0 d1)
    h

/-- The next object id (R216). -/
def takeObjId (d : Dev) : Nat × Dev := (d.kdr.nextObj, { d with kdr := { d.kdr with nextObj := d.kdr.nextObj + 1 } })

/-- The object after piece i of a write on plain values, with the range it changes, its sheets touched and freed, and the
bytes it brings. -/
def pieceObj (t : Task) (cur : Option (W32 × Obj)) (objId : Nat) (r : Nat × Nat) (i : Nat) (data : List Byte) (d : Dev) :
    Obj × (Nat × Nat) × List Nat × List Nat × Nat :=
  let c := t.capsule
  let empty := freshObj objId (ksOf d (capKsid c)).kgen (compressOf d c) []
  let p := if ranged (capOpc c) then pieceAt r.1 r.2 i else r
  let bs := slice data (p.1 - r.1) p.2
  let o := match cur with | some x => x.2 | none => empty
  match capOpc c with
  | 0x08 => (o.punch p.1 p.2, p, punchEnds o p.1 p.2, wholeSheets p.1 p.2, punchBytes o p.1 p.2)
  | 0x05 | 0x07 => (o.write p.1 bs, p, sheetsOf p.1 p.2, [], p.2)
  | _ => (freshObj objId (ksOf d (capKsid c)).kgen (compressOf d c) bs, p, sheetsOf 0 p.2, [], p.2)

/-- The object is removed, not replaced: DELETE and CAS with DELETE. -/
def removes (c : V512) : Bool := capOpc c == 0x03 || (capOpc c == 0x09 && bitOf c 48)

/-- The maps of a streamed write's piece name the places its portions were given (R516): runs of the portions that the
write holds, by what they hold. -/
def takePlaces (d : Dev) (ids : List Nat) (o : Obj) : Obj :=
  let runs := (d.flt.held.filter (fun h => ids.contains h.id && !h.committed)).flatMap (·.runs)
  let place (no : Nat) (coded : Bool) (l : Loc) : Loc :=
    match runs.find? (fun r => r.kind == 0 && r.no == no && r.coded == coded && !r.psas.isEmpty) with
    | some r => .psa (r.psas.headD 0)
    | none => l
  { o with map := o.map.map (fun e => (e.1, place e.1 false e.2)),
           coded := o.coded.map (fun c =>
             match runs.find? (fun r => r.kind == 0 && r.coded && r.no == c.no && !r.psas.isEmpty) with
             | some r => { c with loc := .psa (r.psas.headD 0), len := r.bytes.length }
             | none => c) }

/-- Install an object version whose data has been given its places and is on media: what it changes in the maps is journaled
at once (R232, R516). -/
def installPlaced (env : Env) (t : Task) (n : Nat) (ver : W32) (o : Obj) (d : Dev) : Nat × Dev :=
  let h := install env t n ver o [] 0 d
  let d1 := addJournal .map o.objId ver.toNat 0 h.2
  let pages := match slotAt d1 n with | some s => (match s.obj with | some o => o.pages.map (·.2) | none => []) | none => []
  (h.1, dirtyPages pages (d1.trl.jNext - 1) (updHeld h.1 (fun x => { x with jseq := d1.trl.jNext - 1 }) d1))

/-- Commit piece i of a write on plain values at a version; `data` is the whole value. A streamed piece's data is on media
already. Answers the held entry. -/
def commitPiece (env : Env) (t : Task) (n : Nat) (objId : Nat) (r : Nat × Nat) (i : Nat) (ver : W32) (data : List Byte)
    (streamed : Bool) (d : Dev) : Nat × Dev :=
  if removes t.capsule then uninstall t n ver d
  else
    let cur := match slotAt d n with | some s => s.current | none => none
    let x := pieceObj t cur objId r i data d
    let l := layOut d.flt.nextHeld x.1 x.2.2.1 x.2.2.2.1 x.2.1.1 x.2.1.2 d
    if streamed then installPlaced env t n ver (takePlaces d t.job.heldIds l.1) d
    else install env t n ver l.1 l.2.1 x.2.2.2.2 l.2.2

/-- The sheets or pieces of a streamed write whose last byte in the written range lies in (a, b] of it; with the first portion,
also what an INLINE value the object held before had nowhere else (R516). -/
def portionUnits (o : Obj) (size off len a b : Nat) : List Nat :=
  let last (u : Nat) : Nat := min (off + len) (size * (u + 1)) - off
  let inside (u : Nat) : Bool := off < size * (u + 1) && size * u < off + len
  (mergeSheets [] (o.sheets.map (fun s => s * 4096 / size))).filter (fun u =>
    if inside u then decide (a < last u && last u ≤ b) else a = 0 && !(o.mapped (size * u / 4096)))

/-- A portion of a FRAME_PUT in felt whose tiles are not all coded: it has no TKIND of its own (R185, R203). -/
abbrev rawKind : Nat := 256

/-- The last byte a write changes in a sheet lies in its portion from a to b. -/
def cutBy (t : Task) (a b s : Nat) : Bool :=
  let last := min (t.job.off + t.job.len) (4096 * (s + 1)) - t.job.off
  a < last && last ≤ b

/-- The runs a portion of a streamed write on plain values goes to media in, with no version yet: in an encrypted keyspace the
ciphertext of a piece whose version is not known the manual leaves open (R138, R385, R516; log 126). -/
def portionRuns (env : Env) (t : Task) (cur : Option (W32 × Obj)) (a b : Nat) (d : Dev) : List Run × Dev :=
  let c := t.capsule
  let old := match cur with | some x => x.2 | none => freshObj t.job.objId 0 (compressOf d c) []
  let o := if capOpc c = 0x08 then old.punch t.job.off t.job.len
    else if ranged (capOpc c) then old.write t.job.off t.job.data
    else freshObj t.job.objId 0 (compressOf d c) t.job.data
  let id := d.flt.nextHeld
  let r : List Run × Dev :=
    if inlineLen o.len then ([{ bytes := slice (memBytes o.data 0 o.len) 0 4096, amount := b - a }], d)
    else if capOpc c = 0x08 then
      (layOut id o ((punchEnds old t.job.off t.job.len).filter (cutBy t a b)) ((wholeSheets t.job.off t.job.len).filter (cutBy t a b))
        t.job.off t.job.len d).2
    else if o.compress = 2 then (pieceRuns id t.job.off t.job.len (portionUnits o 65536 t.job.off t.job.len a b) o d).2
    else ((sheetRuns id t.job.off t.job.len (portionUnits o 4096 t.job.off t.job.len a b) o).2, d)
  freeSeal env (capKsid c) r.1 r.2

/-- Admit a portion of a streamed write: a held entry that no commit covers, which goes to media at once (R516). -/
def addPortion (env : Env) (t : Task) (bytes : Nat) (runs : List Run) (d : Dev) : Nat × Dev :=
  let k := BitVec.ofNat 8 (capKsid t.capsule)
  let s : Slot := { live := false, ksid := k, key := t.key, hash := keyHash k t.key }
  let n := match t.job.lock with | .held n => n | .waiting n => n | _ => 0
  let h : Held := { heldOf t n s 0 t.job.objId bytes runs d with committed := false }
  (h.id, placeHeld env h.id { d with flt := { d.flt with held := d.flt.held ++ [h], nextHeld := d.flt.nextHeld + 1 } })

/-- Every portion of a write up to an offset of its value is on media. -/
def portionsDone (d : Dev) (ids : List Nat) : Bool :=
  d.flt.held.all (fun h => h.committed || !ids.contains h.id || h.runs.all (·.onMedia d))

/-- Portions whose write has committed all it brings are held no more. -/
def dropPortions (ids : List Nat) (d : Dev) : Dev :=
  { d with flt := { d.flt with held := d.flt.held.filter (fun h => h.committed || !ids.contains h.id) } }

end Sys2Proof.Machine
end

