-- ==== Sys2Proof/Machine/Kv.lean ====
section
/-! DEFINITION. Key-value commands on plain values as the standard program set serves them (05): how a task serves a
command, the writes with their admission and pieces, the reads, LIST and FLUSH. -/

namespace Sys2Proof.Machine

/-! ### Serving a command -/

/-- The task that serves a command of the standard program set and has not completed it. -/
def serving (d : Dev) (r : TaskRef) (opc : Nat) : Option Task :=
  match taskOf d r with
  | some t =>
    if capOpc t.capsule == opc && t.vendor && !t.completed && (t.kind == .host || t.kind == .act || t.kind == .loop)
    then some t else none
  | none => none

/-- Serve a command: unchanged when no task of that opcode stands in the context. -/
def serve (r : TaskRef) (opc : Nat) (f : Env → Task → Dev → Dev) (s : State) : Host.Outcome State Fault Refusal :=
  onDev s (fun env d => match serving d r opc with | some t => f env t d | none => d)

/-- Member i of a BATCH as the command of its own that it executes as (R165). -/
def memberTask (t : Task) (i : Nat) (m : Member) : Task :=
  { t with capsule := m.capsule, key := m.key, sgl := m.sgl, job := m.job, mem := some i, members := [] }

/-- The command in a context: the task's own, or that of one of its members. -/
def commandOf (d : Dev) (r : TaskRef) (mem : Option Nat) : Option Task :=
  match taskOf d r, mem with
  | some t, none => some t
  | some t, some i => (match t.members[i]? with
      | some m => if m.verdict.isNone then some (memberTask t i m) else none
      | none => none)
  | none, _ => none

/-- Store a command's progress: the task's, or its member's. -/
def putJob (t : Task) (d : Dev) : Dev :=
  match t.mem with
  | none => putTask t d
  | some i => updMember t.eng t.ctx i (fun m => { m with job := t.job }) d

/-- The command completes: its reservation of space, its locks and its write reservation are released, and on SC_OK
its held writes are acknowledged (R54, R155, R169). A member of a BATCH ends with its outcome, and what it wrote is
acknowledged with the BATCH (R167). -/
def endJob (env : Env) (t : Task) (status : Byte) (result : Word) (more : Bool) (d : Dev) : Dev :=
  let d1 := { d with kdr := { d.kdr with reserved := d.kdr.reserved - t.job.reserved } }
  match t.mem with
  | none => pruneHeld (finishTask env t status result more (releaseSlots t.owner d1))
  | some i =>
    releaseSlots t.owner (updTask t.eng t.ctx (fun x => { x with job := { x.job with heldIds := x.job.heldIds ++ t.job.heldIds } })
      (updMember t.eng t.ctx i (fun m => { m with job := { t.job with reserved := 0 }, verdict := some (status, result) }) d1))

/-- A command waits: its task takes the changed job and does not hold the engine. -/
def waitJob (env : Env) (t : Task) (j : Job) (d : Dev) : Dev :=
  let t' := { t with job := j }
  if t.mem.isSome then putJob t' d else park env t' (putJob t' d)

/-- The slot lock a command needs, at the moment it runs: still waited for, or held on a slot, or on no slot because the
key is absent (R155, R224). A creating command with no slot tries to insert one again. -/
inductive Lk where
  | wait
  | slot (n : Nat)
  | absent
  deriving DecidableEq, Repr

/-- Take up the lock of a serving task. -/
def lockOf (env : Env) (t : Task) (d : Dev) : Lk × Task × Dev :=
  match t.job.lock with
  | .held n => (.slot n, t, d)
  | .none =>
    if mayCreate t.capsule then
      let h := keyHash (BitVec.ofNat 8 (capKsid t.capsule)) t.key
      let r := requestLock env t h d
      let t' := { t with job := { t.job with lock := r.1 } }
      match r.1 with
      | .held n => (.slot n, t', putJob t' r.2)
      | .none => (.absent, t, d)
      | _ => (.wait, t', putJob t' r.2)
    else (.absent, t, d)
  | _ => (.wait, t, d)

/-- The object under a lock. -/
def currentOf (d : Dev) (l : Lk) : Option (W32 × Obj) :=
  match l with
  | .slot n => (match slotAt d n with | some s => s.current | none => none)
  | _ => none

/-! ### Data in and out (R122, R299, R300, R515) -/

/-- The key bytes a chain command's stream begins with. -/
def streamKey (c : V512) : Nat := if capInline c then 0 else capKlen c

/-- The inbound data of a command: a flow's stream, or a read of host memory. What a member of a chain client's BATCH brings
is its operand (log 13). -/
def fetchData (d : Dev) (t : Task) (len : Nat) (value : Rd) : Got :=
  if len = 0 then .data []
  else if t.kind == .act && t.mem.isSome then
    match value with
    | .ok bs => .data (slice bs 0 len)
    | .fail e => .fail (errCode e)
  else if t.kind == .act then
    match inboundOf d t.source.toNat t.arrNo with
    | some x => if x.bytes.length < streamKey t.capsule + len then .wait else .data (slice x.bytes (streamKey t.capsule) len)
    | none => .fail 0x10
  else match hostRead d value with
    | .data bs => .data (slice bs 0 len)
    | g => g

/-- Bytes the couch engine copied between the command's host buffer and drive memory, charged to the task's class; a chain
command's bytes come and go through XPORT (R300, R362; log 158). -/
def copied (t : Task) (n : Nat) (d : Dev) : Dev :=
  if t.kind == .act then d else chargeFor t.wclass t.group (energyV2 d 10000 n 1024) d

/-- An access to the command's host buffer failed (R122); a chain command's flow has ended and takes no answer. -/
def bufferFail (env : Env) (t : Task) (code : Byte) (d : Dev) : Dev :=
  if t.kind == .act then d else dataDmaFail env t.opSrc.toNat (capCid t.capsule) code d

/-- The bytes of a buffer from offset 0 that stretches in rising order fill; what lies between two of them is left open
(R300: consecutive DOFF values). -/
def joinOut : List (Nat × List Byte) → List Byte → Dev → List Byte × Dev
  | [], acc, d => (acc, d)
  | (off, bs) :: rest, acc, d =>
    if acc.length < off then
      let f := takeFreeBytes (off - acc.length) d
      joinOut rest (acc ++ f.1 ++ bs) f.2
    else joinOut rest (acc ++ bs) d

/-- Place stretches of outbound bytes at offsets of the command's buffer: host memory, or its response stream, whose DOFF values
are consecutive from 0, while its flow stands (R293, R300). The members of a chain client's BATCH deliver none (R300; log
13). -/
def deliverAll (env : Env) (t : Task) (outs : List (Nat × List Byte)) (d : Dev) : Dev :=
  if t.kind == .act then
    if t.mem.isSome || (inboundOf d t.source.toNat t.arrNo).isNone then d
    else
      let b := joinOut outs [] d
      sendData env t.source.toNat t.arrNo (capCid t.capsule) 0 true b.1 b.2
  else copied t (outs.map (fun x => x.2.length)).sum (outs.foldl (fun d x => hostWrite t.sgl x.1 x.2 d) d)

/-- Place the only stretch of outbound bytes. -/
def deliverOut (env : Env) (t : Task) (off : Nat) (bs : List Byte) (d : Dev) : Dev := deliverAll env t [(off, bs)] d

/-- The command's buffer is undefined after a failed read (R173): free bytes. -/
def undefineBuffer (t : Task) (d : Dev) : Dev :=
  if t.kind == .act then d
  else
    let f := takeFreeBytes (segsLen t.sgl) d
    hostWrite t.sgl 0 f.1 f.2

/-- A lane is in service (R204). -/
def laneOn (d : Dev) (lane : Nat) : Bool :=
  let en := fld d.cal.ctrl 16 16
  lane < 16 && (if en = 0 then lane == 0 else bitOf d.cal.ctrl (16 + lane))

/-- A lane in service that the manual leaves open: one of those in a list, which a free value chooses, else the first. -/
def someLane (ls : List Nat) (d : Dev) : Nat × Dev :=
  let f := takeFree d
  (ls.getD (f.1.toNat % max 1 ls.length) (ls.headD 0), f.2)

/-- Lanes in service, in order. -/
def lanesOn (d : Dev) : List Nat := (List.range 16).filter (laneOn d)

/-- A coded tile or piece that cannot be decoded writes its event and sets DECODE_ERROR; which lane found it is left
open (R198, R205). -/
def decodeFailed (env : Env) (t : Task) (index : Nat) (d : Dev) : Dev :=
  let h := keyHash (BitVec.ofNat 8 (capKsid t.capsule)) t.key
  let f := someLane (lanesOn d) d
  event env 0x0804 5 clsMedia f.1 (capKsid t.capsule) (h.toNat % 2 ^ 32) index (setCause env 8 8 f.2)

/-- The last step of a read: its bytes go out and it completes, unless the access to its buffer fails (R122, R173). -/
def moveOut (status : Byte) (env : Env) (t : Task) (f : Fetch) (outs : List (Nat × List Byte)) (result : Word) (more : Bool)
    (d : Dev) : Dev :=
  let fail (code : Byte) : Dev := endJob env t scAbortedHost 0 false (undefineBuffer t (bufferFail env t code d))
  if outs.isEmpty || t.kind == .act then endJob env t status result more (deliverAll env t outs d)
  else if !d.hqe.issues then (if d.hqe.bmeHold.isSome || d.hqe.busMaster then d else fail 0x12)
  else match f with
    | .hostFail e => fail (errCode e)
    | _ => endJob env t status result more (deliverAll env t outs d)

/-! ### Writes (R136–R150, R157, R160, R161, R516) -/

/-- A creating write found no slot: the load limit, or no EMPTY slot in reach (R170, R221). -/
def noSlot (env : Env) (t : Task) (d : Dev) : Dev :=
  let k := BitVec.ofNat 8 (capKsid t.capsule)
  endJob env t scFull 0 false
    (if dirFull d then loadLimit env k d else probeLimit env k (keyHash k t.key) d)

/-- RESULT bits 63:32 of a completed write: the new length, or the pieces (R139). -/
def writeHi (t : Task) : Nat :=
  let c := t.capsule
  if ranged (capOpc c) then t.job.total
  else if capOpc c = 0x03 || (capOpc c = 0x09 && bitOf c 48) then 0 else capLen c

/-- Every piece has committed: the reservation ends, and the command completes at once or waits for media (R23). -/
def writeDone (env : Env) (t : Task) (d : Dev) : Dev :=
  let result := resultOf (t.job.firstVer + w32 (t.job.total - 1)) (writeHi t)
  let j : Job := { t.job with phase := .media 0, result := result, lock := .dropped, reserved := 0 }
  let d1 := { d with kdr := { d.kdr with reserved := d.kdr.reserved - t.job.reserved } }
  let d2 := dropPortions j.heldIds (releaseSlots t.owner d1)
  if t.job.durable && !allSettled d2 j.heldIds then waitJob env t j d2
  else endJob env { t with job := j } scOk result false (putJob { t with job := j } d2)

/-- The write's slot lock is released between pieces and requested again behind those that wait; the key stays
reserved (R157). -/
def rotateLock (t : Task) (n : Nat) (d : Dev) : LockSt × Dev :=
  let d1 := updSlot n (fun s => { s with lock := none, reservation := some t.owner }) d
  match slotAt d1 n with
  | none => (.none, d1)
  | some s =>
    if s.waiters.isEmpty then (.held n, takeLock n t.owner d1)
    else (.waiting n, updSlot n (fun s => { s with waiters := s.waiters ++ [⟨t.owner, none, none, false⟩] }) d1)

/-- A commit that would pass the durable mark waits for a new one, 65,536 above the last value of its run (R234). -/
def ensureMark (k n : Nat) (d : Dev) : Dev :=
  if markPending d k then d
  else addJournal .seq k (runFirst (ksOf d k).seq n + w32 (n - 1) + 0x10000).toNat 0 d

/-- Footprint of the object in a slot. -/
def slotFoot (d : Dev) (n : Nat) : Nat :=
  match slotAt d n with | some s => (if s.live then (match s.obj with | some o => o.footprint | none => 0) else 0) | none => 0

/-- Commit the next piece of an accepted write (R157, R160); the first one reserves the run of versions (R138). What the
footprint grows by is reserved no more (R169). -/
def commitNext (env : Env) (t : Task) (n : Nat) (streamed : Bool) (d : Dev) : Dev :=
  let k := capKsid t.capsule
  if t.job.done = 0 && !runAllowed d k t.job.total then ensureMark k t.job.total d
  else
    let run := if t.job.done = 0 then takeRun env k t.job.total d else (t.job.firstVer, d)
    let ver := run.1 + w32 t.job.done
    let h := commitPiece env t n t.job.objId (t.job.off, t.job.len) t.job.done ver t.job.data streamed run.2
    let g := min t.job.reserved (slotFoot h.2 n - slotFoot run.2 n)
    let d1 := { h.2 with kdr := { h.2.kdr with reserved := h.2.kdr.reserved - g } }
    let j : Job := { t.job with firstVer := run.1, done := t.job.done + 1, heldIds := t.job.heldIds ++ [h.1],
                                reserved := t.job.reserved - g }
    if j.done = j.total then writeDone env { t with job := j } (putJob { t with job := j } d1)
    else
      let r := rotateLock t n d1
      putJob { t with job := { j with lock := r.1, phase := if streamed then t.job.phase else .pieces j.done } } r.2

/-- Bytes the next piece of a write brings into protected felt: what it writes, for a punch its zeros (R149). -/
def pieceNeed (t : Task) (d : Dev) : Nat :=
  let p := if ranged (capOpc t.capsule) then pieceAt t.job.off t.job.len t.job.done else (t.job.off, t.job.len)
  if capOpc t.capsule = 0x08 then
    match t.job.lock with
    | .held n => (match currentOf d (.slot n) with | some x => punchBytes x.2 p.1 p.2 | none => 0)
    | _ => 0
  else p.2

/-- Bytes of its range a write has committed. -/
def committedTo (t : Task) : Nat :=
  if t.job.done = 0 then 0 else if ranged (capOpc t.capsule) then (pieceAt t.job.off t.job.len t.job.done).1 - t.job.off else t.job.len

/-- With the protected limit at 0 no write waits on it: what is left of one accepted before passes through protected felt as a
streamed write (R458, R516). -/
def streamRest (t : Task) : Task := { t with job := { t.job with phase := .stream (committedTo t), durable := true } }

/-- Commit the next piece once protected felt has room for it; otherwise admission is held (R22). -/
def admitPiece (env : Env) (t : Task) (n : Nat) (d : Dev) : Dev :=
  if pieceNeed t d ≠ 0 && env.pw.limitMib = 0 then waitJob env t (streamRest t).job d
  else if pieceNeed t d = 0 || roomFor env d (pieceNeed t d) then commitNext env t n false d
  else waitJob env t { t.job with phase := .admission } (admissionHeld env d)

/-- Bytes of data the write brings (R139). -/
def inboundLen (c : V512) : Nat :=
  let o := capOpc c
  if o = 0x03 || o = 0x08 || (o = 0x09 && bitOf c 48) then 0 else capLen c

/-- The data of an accepted write comes into felt, and its first piece follows (R173 step 9). -/
def takeValue (env : Env) (t : Task) (n : Nat) (streamed : Bool) (value : Rd) (d : Dev) : Dev :=
  match fetchData d t (inboundLen t.capsule) value with
  | .wait => waitJob env t t.job d
  | .fail code => endJob env t scAbortedHost 0 false (bufferFail env t code d)
  | .data bs =>
    let t1 := { t with job := { t.job with data := bs, phase := if streamed then .stream 0 else .pieces 0 } }
    let d1 := copied t bs.length d
    if streamed then waitJob env t1 t1.job d1 else admitPiece env t1 n (putJob t1 d1)

/-- A write that passes its conditions under the lock is accepted: space is reserved, and how it passes through protected felt
is settled (R162, R169, R172). -/
def acceptJob (env : Env) (t : Task) (n : Nat) (d : Dev) : Task × Dev :=
  let c := t.capsule
  let cur := currentOf d (.slot n)
  let g := growth c cur
  let r := writeRange c cur
  let keep := ranged (capOpc c) && cur.isSome
  let ob := if keep then ((match cur with | some x => x.2.objId | none => 0), d) else takeObjId d
  let j : Job := { t.job with
    off := r.1, len := r.2, done := 0, objId := ob.1, reserved := g, durable := t.job.durable || durableWrite env c,
    total := (if ranged (capOpc c) then pieceCount r.1 r.2 else 1), phase := .accepted (streams env c) }
  let d1 := { ob.2 with kdr := { ob.2.kdr with reserved := ob.2.kdr.reserved + g } }
  ({ t with job := j }, putJob { t with job := j } d1)

/-- Accept a write under its lock, or refuse it for want of space, and take its data (R169, R172, R173 steps 8 and 9). -/
def acceptWrite (env : Env) (t : Task) (n : Nat) (value : Rd) (d : Dev) : Dev :=
  if !spaceFor d (growth t.capsule (currentOf d (.slot n))) then endJob env t scFull 0 false d
  else
    let a := acceptJob env t n d
    takeValue env a.1 n (streams env t.capsule) value a.2

/-- The next piece of a streamed write commits once every portion that covers it is on media (R516). -/
def streamStep (env : Env) (t : Task) (n admitted : Nat) (d : Dev) : Dev :=
  let p := if ranged (capOpc t.capsule) then pieceAt t.job.off t.job.len t.job.done else (t.job.off, t.job.len)
  if p.1 + p.2 ≤ t.job.off + admitted && portionsDone d t.job.heldIds then commitNext env t n true d else d

/-- One execution of a write on plain values. -/
def runWrite (env : Env) (t : Task) (value : Rd) (d : Dev) : Dev :=
  let c := t.capsule
  match t.job.phase with
  | .media _ => if allSettled d t.job.heldIds then endJob env t scOk t.job.result false d else d
  | .start =>
    if wornStops d c then endJob env t scMediaWorn 0 false d
    else
      let l := lockOf env t d
      match l.1 with
      | .wait => waitJob env l.2.1 l.2.1.job l.2.2
      | .absent =>
        match writeConds c none with
        | some v => endJob env l.2.1 v.1 v.2 false l.2.2
        | none => noSlot env l.2.1 l.2.2
      | .slot n =>
        match writeConds c (currentOf l.2.2 (.slot n)) with
        | some v => endJob env l.2.1 v.1 v.2 false l.2.2
        | none => acceptWrite env l.2.1 n value l.2.2
  | .accepted streamed =>
    match t.job.lock with
    | .held n => takeValue env t n streamed value d
    | _ => d
  | .pieces _ =>
    match t.job.lock with
    | .held n => admitPiece env t n d
    | _ => d
  | .stream a =>
    match t.job.lock with
    | .held n => streamStep env t n a d
    | _ => d
  | _ => d

/-- PUT (R142). -/
def execPut (t : TaskRef) (value : Rd) (s : State) : Host.Outcome State Fault Refusal :=
  serve t 0x01 (fun env t d => runWrite env t value d) s

/-- DELETE (R144). -/
def execDelete (t : TaskRef) (s : State) : Host.Outcome State Fault Refusal :=
  serve t 0x03 (fun env t d => runWrite env t (.ok []) d) s

/-- APPEND (R146). -/
def execAppend (t : TaskRef) (value : Rd) (s : State) : Host.Outcome State Fault Refusal :=
  serve t 0x05 (fun env t d => runWrite env t value d) s

/-- RANGE_WRITE (R148). -/
def execRangeWrite (t : TaskRef) (value : Rd) (s : State) : Host.Outcome State Fault Refusal :=
  serve t 0x07 (fun env t d => runWrite env t value d) s

/-- PUNCH (R149). -/
def execPunch (t : TaskRef) (s : State) : Host.Outcome State Fault Refusal :=
  serve t 0x08 (fun env t d => runWrite env t (.ok []) d) s

/-- CAS (R150). -/
def execCas (t : TaskRef) (value : Rd) (s : State) : Host.Outcome State Fault Refusal :=
  serve t 0x09 (fun env t d => runWrite env t value d) s

/-- PROTECTED_FELT_ADMIT: the amount held has fallen far enough for the write that waits, a command's, a member's or, where no
member is named, a BATCH group's; or the limit has become 0, on which no write waits (R22, R458). -/
def execProtectedFeltAdmit (t : CmdRef) (s : State) : Host.Outcome State Fault Refusal :=
  onDev s (fun env d =>
    match commandOf d t.task t.mem with
    | none => d
    | some x =>
      let need := if capOpc x.capsule = 0x0E then x.job.len else pieceNeed x d
      if x.job.phase == .admission && !x.completed && (roomFor env d need || env.pw.limitMib = 0) then
        putJob { x with job := { x.job with phase := .pieces x.job.done } } d
      else d)

/-- A portion of a streamed write: the lesser of what is left and the greater of 64 MiB and a quarter of the limit
in force (R516). -/
def portion (env : Env) (left : Nat) : Nat := min left (max (64 * 2 ^ 20) (limitBytes env / 4))

/-- Bytes of a write's range that its next portion covers. -/
def portionOf (env : Env) (t : Task) (a : Nat) : Nat := portion env (t.job.len - a)

/-- STREAMED_PORTION_ADMIT: the next portion is cut and admitted once the 8 GiB region has room, and goes to media at once; of
a FRAME_PUT it waits in felt for its tiles to be coded (R185, R516). -/
def execStreamedPortionAdmit (t : CmdRef) (s : State) : Host.Outcome State Fault Refusal :=
  onDev s (fun env d =>
    match commandOf d t.task t.mem with
    | none => d
    | some x =>
      match x.job.phase with
      | .stream a =>
        let n := portionOf env x a
        if x.completed || n = 0 || 8 * 2 ^ 30 < regionBytes d + n then d
        else
          let cur := match x.job.lock with | .held n => currentOf d (.slot n) | .waiting n => currentOf d (.slot n) | _ => none
          let r := if capOpc x.capsule = 0x0C then ([{ kind := rawKind, no := a, amount := n }], d) else portionRuns env x cur a (a + n) d
          let h := addPortion env x n r.1 r.2
          putJob { x with job := { x.job with phase := .stream (a + n), heldIds := x.job.heldIds ++ [h.1] } } h.2
      | _ => d)

/-! ### Reads (R143, R145, R147, R156) -/

/-- The bytes GET and RANGE_READ see: an object's data, or a frame object's stream (R134, R199). -/
def valueBytes (v : W32) (o : Obj) : List Byte :=
  match o.frame with
  | some f => streamBytes f v
  | none => memBytes o.data 0 o.len

/-- EXIST's information record (R145). -/
def existRecord (v : W32) (o : Obj) : List Byte :=
  natLe 8 o.len ++ natLe 4 v.toNat ++ natLe 1 (b2n o.frame.isSome) ++
  natLe 1 (if o.frame.isSome then 3 else if o.compress = 2 then 2 else 0) ++ natLe 2 0 ++ natLe 8 o.footprint ++
  natLe 8 o.stored

/-- What a read of one object answers: a failure, or where its bytes go, and RESULT. -/
inductive ReadOut where
  | stop (v : Verdict)
  | out (outs : List (Nat × List Byte)) (result : Word)
  deriving DecidableEq, Repr

/-- The bytes of the object a read returns: offset and length. -/
def readRange (c : V512) (o : Obj) : Nat × Nat :=
  match capOpc c with
  | 0x02 => (0, o.len)
  | 0x06 => (capOff c, min (capOff c + capLen c) o.len - capOff c)
  | _ => (0, 0)

/-- GET, EXIST, RANGE_READ and ROI_READ on the current object. -/
def readOut (c : V512) (cur : Option (W32 × Obj)) : ReadOut :=
  match cur with
  | none => .stop (scNotFound, 0)
  | some (v, o) =>
    match capOpc c with
    | 0x02 =>
      if capLen c < o.len then .stop (scTooLarge, resultOf v o.len)
      else .out (if o.len = 0 then [] else [(0, valueBytes v o)]) (resultOf v o.len)
    | 0x04 => .out (if capLen c = 0 then [] else [(0, existRecord v o)]) (resultOf v o.len)
    | 0x06 =>
      let r := readRange c o
      .out (if r.2 = 0 then [] else [(0, slice (valueBytes v o) r.1 r.2)]) (resultOf v r.2)
    | _ =>
      match o.frame with
      | none => .stop (scInvalidField, 0)
      | some f =>
        if !roiOk f (roiOf c) (capLen c) then .stop (scInvalidField, 0)
        else .out (roiLines f (roiOf c)) (resultOf v (roiTiles f (roiOf c)))

/-- What a read needs of an object: the PSAs its maps name, the bytes its coded units decode to, and whether some of its data
was lost before it reached media (R517). -/
structure Need where
  psas : List Nat := []
  coded : Bool := false
  decoded : Nat := 0
  bad : Bool := false

/-- The coded units among those an object has. -/
def needUnits (d : Dev) (cs : List Coded) : List Nat :=
  cs.flatMap (fun c => match c.loc with | .psa p => psaRun d p c.span | .felt _ => [])

/-- What a range of a plain object needs; an INLINE value lies in its record. -/
def plainNeed (d : Dev) (o : Obj) (off n : Nat) : Need :=
  let ss := (sheetsOf off n).filter (fun s => o.sheets.contains s)
  let cs := o.coded.filter (fun c => ss.any (fun s => c.no ≤ s && s < c.no + c.sheets))
  let raw (c : Coded) : Nat := min 65536 (o.len - 4096 * c.no)
  { psas := ss.filterMap (fun s => match tblGet o.map s with | some (.psa p) => some p | _ => none) ++ needUnits d cs,
    coded := !cs.isEmpty, decoded := (cs.map (fun c => if c.len < roundUp (raw c) 64 then raw c else 0)).foldl (· + ·) 0,
    bad := ss.any (fun s => o.bad.contains s) }

/-- Tiles of a frame object, numbered over all its frames, some of whose pixels lie in a stretch of its stream (R199). -/
def tilesIn (f : FrameObj) (off n : Nat) : List Nat :=
  let t := f.tileCount
  let sec := sectionLen f.ptype f.width f.height t
  let side := 2 ^ f.tileLog2
  let cols := tilesOf f.width side
  let size (j : Nat) : Nat := tileSpan f.width side (j % cols) * tileSpan f.height side (j / cols) * bpp f.ptype
  (List.range f.frames.length).flatMap (fun i =>
    ((tileOffsets f (64 + 16 * f.frames.length + i * sec + 64 + 16 * t) (List.range t)).filter (fun x =>
      overlap off n x.2 (size x.1) != 0)).map (fun x => i * t + x.1))

/-- Tiles a rectangle meets (R198). -/
def roiTileNos (f : FrameObj) (r : Roi) : List Nat :=
  let side := 2 ^ f.tileLog2
  let x0 := r.x0 / side
  let y0 := r.y0 / side
  (List.range r.nfr).flatMap (fun i => (List.range ((r.y0 + r.h - 1) / side - y0 + 1)).flatMap (fun y =>
    (List.range ((r.x0 + r.w - 1) / side - x0 + 1)).map (fun x =>
      (r.frame + i) * f.tileCount + (y0 + y) * tilesOf f.width side + x0 + x)))

/-- Bytes of v′ a tile decodes to; one held uncoded is not decoded. -/
def tileDecoded (f : FrameObj) (no : Nat) : Nat :=
  let t := max 1 f.tileCount
  let side := 2 ^ f.tileLog2
  let cols := tilesOf f.width side
  let j := no % t
  match f.frames[no / t]? with
  | some r => if (r.tiles.getD j ⟨0, true, true⟩).raw then 0
      else tileSpan f.width side (j % cols) * tileSpan f.height side (j / cols) * bpp f.ptype
  | none => 0

/-- What some tiles of a frame object need. -/
def tileNeed (d : Dev) (o : Obj) (f : FrameObj) (nos : List Nat) : Need :=
  { psas := needUnits d (o.coded.filter (fun c => nos.contains c.no)), coded := !nos.isEmpty,
    decoded := (nos.map (tileDecoded f)).foldl (· + ·) 0, bad := nos.any (fun n => o.bad.contains n) }

/-- What a read needs of the object it reads: ROI_READ only the tiles its rectangle meets (R27, R198), EXIST nothing (R145). -/
def needOf (d : Dev) (c : V512) (o : Obj) : Need :=
  let r := readRange c o
  match o.frame with
  | none => plainNeed d o r.1 r.2
  | some f => if capOpc c = 0x0D then tileNeed d o f (roiTileNos f (roiOf c)) else tileNeed d o f (tilesIn f r.1 r.2)

/-- The sheet an INLINE value is read from: its object record's, once that has left felt (R222, R223). -/
def inlinePsas (s : Slot) (o : Obj) (n : Nat) : List Nat :=
  if o.frame.isSome || !inlineLen o.len || n = 0 || s.record = 0 || bitOf s.record 63 then [] else [s.record.toNat % 2 ^ 40]

/-- Staging an ROI_READ needs: one decoded tile (R203); other reads need none. What it asks for, whatever its tiles are clipped
to, is a full tile (DESIGN CHOICE, log 128). -/
def roiStage (c : V512) (o : Obj) : Nat :=
  if capOpc c = 0x0D then (match o.frame with | some f => 2 ^ (2 * f.tileLog2) * bpp f.ptype | none => 0) else 0

/-- Energy of reading sheets of NAND (R362). -/
def readUnits (d : Dev) (psas : List Nat) : Nat :=
  (psas.map (fun p => energyFlat (match reamOf d p with | some (_, x) => if x.slc then 1300000 else 2400000 | none => 2400000) 1 1)).foldl
    (· + ·) 0

/-- Charges of a read: its sheets of media and what it decodes to WC5, what it decrypts to WC9. Decryption is work with SEAL, whose
block operations are not counted (R362, R382). -/
def chargeRead (t : Task) (psas : List Nat) (nd : Need) (bytes : Nat) (d : Dev) : Dev :=
  let k := capKsid t.capsule
  let x := ksOf d k
  let d1 := chargeDecode nd.decoded (charge 5 (readUnits d (psas.filter (psaOnMedia d))) d)
  if !x.encrypted || bytes = 0 then d1
  else charge 9 (energyV2 d1 20000 bytes 1024) d1

/-- Map pages of the object that a read goes through in the host map lease (R29, R219). -/
def leasedPages (d : Dev) (c : V512) (o : Obj) : List Nat :=
  let r := readRange c o
  ((o.pages.filter (fun e => if o.frame.isSome then capOpc c != 0x04 else decide (overlap r.1 r.2 (e.1 * 2 ^ 20) (2 ^ 20) ≠ 0))).map (·.2)).filter
    (leaseHolds d)

/-- Reads of leased pages are issued, one for each page; each takes a tag (R96). -/
def askPages (env : Env) (ps : List Nat) (d : Dev) : Dev :=
  let l := d.hqe.lease
  { d with hqe := { d.hqe with lease := { l with
      reads := l.reads ++ (ps.filter (fun p => !l.reads.any (fun x => x.1 == p))).map (fun p => (p, env.tick)) } } }

/-- A tag of the data a command reads does not match: event and cause (R385, R392). Which chunk it was the row does not say: P2 is a
free value (DESIGN CHOICE, log 130). -/
def tagMismatch (env : Env) (t : Task) (d : Dev) : Dev :=
  let k := capKsid t.capsule
  let f := takeFree d
  event env 0x0D02 5 clsSecurity 0 k ((keyHash (BitVec.ofNat 8 k) t.key).toNat % 2 ^ 32) (f.1.toNat % 2 ^ 32) (setCause env 0x0D 1 f.2)

/-- Read the data the command has pinned and complete it: the failures of step 9 of R173 in the order they come, else its
data and its completion. -/
def finishRead (env : Env) (t : Task) (f : Fetch) (ends : List ReadEnd) (o : Obj) (outs : List (Nat × List Byte)) (result : Word)
    (d : Dev) : Dev :=
  let nd := needOf d t.capsule o
  let bytes := (outs.map (fun x => x.2.length)).foldl (· + ·) 0
  let moves := capOpc t.capsule != 0x04 && !outs.isEmpty
  if !outs.isEmpty && t.kind != .act && !d.hqe.issues && (d.hqe.bmeHold.isSome || d.hqe.busMaster) then d
  else
    let rd := readPages env t.job.psas ends d
    let d1 := if moves then chargeRead t t.job.psas nd bytes rd.2 else rd.2
    let fail (status : Byte) (d : Dev) : Dev := endJob env t status 0 false (undefineBuffer t d)
    if moves && (nd.bad || rd.1.any (fun x => x.2.1 == .unrecoverable)) then fail scUnrecoveredRead d1
    else match f with
      | .authFail => if moves && (ksOf d (capKsid t.capsule)).encrypted then fail scAuthFail (tagMismatch env t d1)
          else moveOut scOk env t .ok outs result false d1
      | .decodeFail j => if moves && nd.coded then fail scUnrecoveredRead (decodeFailed env t j d1)
          else moveOut scOk env t .ok outs result false d1
      | g => moveOut scOk env t g outs result false d1

/-- Serve a read of the version its task has pinned: through leased map pages, with its staging (R27, R126, R203). -/
def readObj (env : Env) (t : Task) (f : Fetch) (ends : List ReadEnd) (cur : W32 × Obj) (d : Dev) : Dev :=
  match readOut t.capsule (some cur) with
  | .stop v => endJob env t v.1 v.2 false d
  | .out outs result =>
    let pages := leasedPages d t.capsule cur.2
    let r := roiStage t.capsule cur.2
    let rest := pages.drop t.job.asked
    let k := min rest.length (pcieTags - tagsInUse d)
    if 0 < k then waitJob env t { t.job with phase := .waitDrive, asked := t.job.asked + k } (askPages env (rest.take k) d)
    else if !rest.isEmpty || pages.any (fun p => d.hqe.lease.reads.any (fun x => x.1 == p)) then d
    else if r = 0 || stageNow d t true r then finishRead env t f ends cur.2 outs result d
    else waitJob env t { t.job with phase := .waitDrive } (stageWait t true r d)

/-- Pin the version under the lock: the read holds the lock no longer, and holds the PSAs it takes from the maps until it
completes (R156, R239). -/
def pinRead (t : Task) (lk : Lk) (cur : W32 × Obj) (d : Dev) : Task × Dev :=
  let inl := match lk with
    | .slot n => (match slotAt d n with | some s => inlinePsas s cur.2 (readRange t.capsule cur.2).2 | none => [])
    | _ => []
  let t' := { t with job := { t.job with pin := some cur, psas := inl ++ (needOf d t.capsule cur.2).psas, lock := .dropped } }
  (t', releaseSlots t.owner (putJob t' d))

/-- One execution of a read. -/
def runRead (env : Env) (t : Task) (f : Fetch) (ends : List ReadEnd) (d : Dev) : Dev :=
  match t.job.pin with
  | some cur => readObj env t f ends cur d
  | none =>
    let l := lockOf env t d
    match l.1 with
    | .wait => waitJob env l.2.1 l.2.1.job l.2.2
    | lk =>
      match readOut t.capsule (currentOf l.2.2 lk), currentOf l.2.2 lk with
      | .stop v, _ => endJob env l.2.1 v.1 v.2 false l.2.2
      | .out _ _, some cur =>
        let p := pinRead l.2.1 lk cur l.2.2
        readObj env p.1 f ends cur p.2
      | .out _ _, none => l.2.2

/-- Only an access to the command's own buffer can fail a read of the drive's own structures. -/
def hostOnly (f : Fetch) : Fetch := match f with | .hostFail c => .hostFail c | _ => .ok

/-- GET (R143). -/
def execGet (t : TaskRef) (f : ReadIn) (s : State) : Host.Outcome State Fault Refusal :=
  serve t 0x02 (fun env t d => runRead env t f.fetch f.ends d) s

/-- EXIST (R145): it reads none of the object's data. -/
def execExist (t : TaskRef) (f : Fetch) (s : State) : Host.Outcome State Fault Refusal :=
  serve t 0x04 (fun env t d => runRead env t (hostOnly f) [] d) s

/-- RANGE_READ (R147). -/
def execRangeRead (t : TaskRef) (f : ReadIn) (s : State) : Host.Outcome State Fault Refusal :=
  serve t 0x06 (fun env t d => runRead env t f.fetch f.ends d) s

/-- ROI_READ (R197, R198): a tile that cannot be read or decoded fails the whole command. -/
def execRoiRead (t : TaskRef) (f : ReadIn) (s : State) : Host.Outcome State Fault Refusal :=
  serve t 0x0D (fun env t d => runRead env t f.fetch f.ends d) s

/-! ### LIST (R151–R153) -/

/-- A slot put in its place in ascending order of hash. -/
def insertByHash (x : Slot) : List Slot → List Slot
  | [] => [x]
  | y :: t => if x.hash.toNat ≤ y.hash.toNat then x :: y :: t else y :: insertByHash x t

/-- LIVE slots of a keyspace from a hash on, in ascending order of hash. -/
def listSlots (d : Dev) (ksid : Nat) (cursor : Nat) : List Slot :=
  ((d.kdr.slots.map (·.2)).filter (fun s => s.live && s.ksid.toNat == ksid && cursor ≤ s.hash.toNat)).foldr insertByHash []

/-- One LIST record with its pad (R151). -/
def listRecord (s : Slot) : List Byte :=
  let o := match s.obj with | some o => o | none => { objId := 0, len := 0 }
  let r := natLe 1 s.key.length ++ natLe 1 (b2n o.frame.isSome) ++ natLe 2 0 ++ natLe 4 s.version.toNat ++
    natLe 8 o.len ++ natLe 8 s.hash.toNat ++ s.key
  r ++ List.replicate (roundUp r.length 8 - r.length) 0

/-- What a scan has gathered: records, their count, and the hash it stopped at if it did; `big` when the first group of
one hash does not fit an empty buffer. -/
structure Scan where
  bytes : List Byte
  count : Nat
  next : Option Word
  big : Bool

/-- Scan groups of one hash value while they fit and the budget of examined objects lasts (R152). -/
def scanList (pre : List Byte) (room : Nat) : Nat → Nat → List Slot → List Byte → Nat → Scan
  | 0, _, _, acc, n => ⟨acc, n, none, false⟩
  | fuel + 1, budget, ss, acc, n =>
    match ss with
    | [] => ⟨acc, n, none, false⟩
    | s :: _ =>
      let grp := ss.takeWhile (fun x => x.hash == s.hash)
      let rest := ss.dropWhile (fun x => x.hash == s.hash)
      let recs := (grp.filter (fun x => pre.isPrefixOf x.key)).map listRecord
      let bs := recs.flatten
      if budget = 0 then ⟨acc, n, some s.hash, false⟩
      else if room < acc.length + bs.length then ⟨acc, n, some s.hash, acc.isEmpty⟩
      else scanList pre room fuel (budget - grp.length) rest (acc ++ bs) (n + recs.length)

/-- LIST (R151–R153); `budget` is how many objects the 10 ms of scanning reach. -/
def execList (t : TaskRef) (f : Fetch) (budget : Nat) (s : State) : Host.Outcome State Fault Refusal :=
  serve t 0x0A (fun env t d =>
    let c := t.capsule
    let ss := listSlots d (capKsid c) (capOff c)
    let r := scanList t.key (capLen c - 16) (ss.length + 1) budget ss [] 0
    let next : Word := if r.big then BitVec.ofNat 64 (capOff c) else r.next.getD 0
    let hdr := natLe 8 next.toNat ++ natLe 4 r.count ++ natLe 4 (16 + r.bytes.length)
    if r.big then moveOut scTooLarge env t f [(0, hdr)] next false d
    else moveOut scOk env t f [(0, hdr ++ r.bytes)] next r.next.isSome d) s

/-! ### FLUSH (R163) -/

/-- FLUSH: completes when no write that completed before it was fetched is still on its way to media. -/
def execFlush (t : TaskRef) (s : State) : Host.Outcome State Fault Refusal :=
  serve t 0x0B (fun env t d =>
    if d.flt.held.any (fun h => (match h.acked with | some n => decide (n ≤ t.arrNo) | none => false) && !h.settled d)
    then waitJob env t { t.job with phase := .flush 0 } d
    else endJob env t scOk 0 false d) s

end Sys2Proof.Machine
end

