-- ==== Sys2Proof/Machine/Ports.lean ====
section
/-! DEFINITION. The chain ports (08): frames received, forwarded, delivered and sent, flow control, links, ring probes,
wake filters, and the events of the bypass switch. -/

namespace Sys2Proof.Machine

/-! ### Reading a frame (R264, R271, R272) -/

/-- What the decision of R264 reads of a frame; `body` is the offset of the first byte after the EtherType. -/
structure FrameHead where
  dst : BitVec 48
  src : BitVec 48
  tags : Nat
  tpid : Nat
  tci : Nat
  etype : Nat
  body : Nat

/-- A tag protocol identifier. -/
def isTag (t : Nat) : Bool := t == 0x8100 || t == 0x88A8

/-- Big-endian field of a frame. -/
def beAt (bs : List Byte) (off n : Nat) : Nat := beNat (slice bs off n)

/-- Addresses, at most two tags and the EtherType. -/
def frameHead (bs : List Byte) : FrameHead :=
  let t0 := beAt bs 12 2
  let t1 := beAt bs 16 2
  let dst := bytesAddr (slice bs 0 6)
  let src := bytesAddr (slice bs 6 6)
  if !isTag t0 then ⟨dst, src, 0, 0, 0, t0, 14⟩
  else if !isTag t1 then ⟨dst, src, 1, t0, beAt bs 14 2, t1, 18⟩
  else ⟨dst, src, 2, t0, beAt bs 14 2, beAt bs 20 2, 22⟩

/-- VID of the outer tag. -/
def FrameHead.vid (h : FrameHead) : Nat := h.tci % 4096

/-- Priority of a received frame: PCP of its outer tag, or UNTAGGED_PCP (R272). -/
def rxPrio (x : Port) (h : FrameHead) : Nat := if h.tags = 0 then fld x.pctrl 16 3 else h.tci / 8192

/-- R271 accepts a frame's tags. -/
def tagsOk (x : Port) (h : FrameHead) : Bool :=
  h.tags == 0 || (h.tags == 1 && h.tpid == 0x8100 &&
    (h.vid == 0 || fld x.pvid 16 12 == 0xFFF || fld x.pvid 16 12 == h.vid))

/-- R271 accepts the frame. -/
def actFrame (d : Dev) (x : Port) (h : FrameHead) : Bool := h.etype == d.cpt.actType.toNat % 65536 && tagsOk x h

/-- A station address as the number the ring compares (R251). -/
def stationNum (a : BitVec 48) : Nat := beNat (addrBytes a)

/-- 01-80-C2-00-00-00 without its last octet, as transmitted. -/
def linkLocal (a : BitVec 48) : Bool := stationNum a / 16 == 0x0180C200000

/-- The rows of R264. -/
inductive FrameRow where
  | pause | macctl | ownSa | linkLocal | station | actGroup | forward
  deriving DecidableEq, Repr

/-- The first row that matches. -/
def frameRow (d : Dev) (bs : List Byte) (h : FrameHead) : FrameRow :=
  let opc := beAt bs h.body 2
  if h.etype = 0x8808 then
    if stationNum h.dst = 0x0180C2000001 && (opc = 1 || opc = 0x0101) then .pause else .macctl
  else if h.src = d.cpt.station then .ownSa
  else if linkLocal h.dst then .linkLocal
  else if h.dst = d.cpt.station then .station
  else if h.dst = d.cpt.actGroup.setWidth 48 then .actGroup
  else .forward

/-! ### Flow control (R275–R277) -/

/-- Ticks of a pause of some quanta of 0.64 ns, a part of a tick counting whole. -/
def pauseTicks (quanta : Nat) : Nat := (16 * quanta + 999) / 1000

/-- A priority is paused at a tick. -/
def pausedNow (env : Env) (x : Port) (n : Nat) : Bool :=
  match vget x.pausedUntil n none with | some u => env.tick < u | none => false

/-- One priority of a received pause: ignored in a storm, ended by quanta 0, else set anew; an unbroken pause keeps its
start. -/
def pauseOne (env : Env) (n quanta : Nat) (x : Port) : Port :=
  let y := if quanta = 0 then x else { x with lastPause := vset x.lastPause n env.tick }
  if (vget y.storm n none).isSome then y
  else if quanta = 0 then
    { y with pausedUntil := vset y.pausedUntil n none, pausedSince := vset y.pausedSince n none }
  else
    let since := if pausedNow env y n then (vget y.pausedSince n none).getD env.tick else env.tick
    { y with pausedUntil := vset y.pausedUntil n (some (env.tick + pauseTicks quanta)),
             pausedSince := vset y.pausedSince n (some since) }

/-- One priority of a PFC frame: counted and ignored where PFC_EN is clear. -/
def pfcOne (env : Env) (bs : List Byte) (body : Nat) (x : Port) (n : Nat) : Port :=
  if !(BitVec.ofNat 16 (beAt bs (body + 2) 2)).getLsbD n then x
  else if !bitOf x.pctrl (8 + n) then { x with counts := vupd x.counts 14 (· + 1) }
  else pauseOne env n (beAt bs (body + 4 + 2 * n) 2) x

/-- A PAUSE or PFC frame received (R275). -/
def pauseIn (env : Env) (p : Nat) (bs : List Byte) (body : Nat) (d : Dev) : Dev :=
  let f (x : Port) : Port :=
    if beAt bs body 2 = 1 then (List.range 8).foldl (fun x n => pauseOne env n (beAt bs (body + 2) 2) x) x
    else (List.range 8).foldl (pfcOne env bs body) x
  updPort p f (portCount p 13 d)

/-- The egress buffer of q has room for a frame from p (R276): 8 MiB in all, XOFF and 512 KiB of headroom for each
priority with PFC, and what these leave for the others. -/
def egressRoom (d : Dev) (p n len : Nat) : Bool :=
  let x := portOf d p
  let q := portOf d (1 - p)
  let share := xoffBytes x + 524288
  let npfc := ((List.range 8).filter (fun k => bitOf x.pctrl (8 + k))).length
  heldIn q (fun _ => true) + len ≤ 8388608 &&
  (if bitOf x.pctrl (8 + n) then heldFrom d p n + len ≤ share
   else heldIn q (fun f => !bitOf x.pctrl (8 + f.prio)) + len ≤ 8388608 - npfc * share)

/-! ### Forwarding (R265–R270) -/

/-- The drive forwards between its ports: both up, inserted, no removal, no port reset, the ring not held open. -/
def forwards (d : Dev) : Bool :=
  d.cpt.bypass == 1 && d.cpt.op != .removing && !d.cpt.ringOpen &&
  (portOf d 0).link && (portOf d 1).link && !(portOf d 0).resetting && !(portOf d 1).resetting

/-- A frame for q that is down, resetting or leaving the chain is discarded at once (R259, R263). -/
def forwardFrame (env : Env) (p n : Nat) (bs : List Byte) (d : Dev) : Dev :=
  let q := 1 - p
  let f : EFrame := { bytes := bs, from? := some p, prio := n, tick := env.tick }
  if d.cpt.ringOpen then d
  else if !forwards d then partnerErr env q 17 d
  else if (vget (portOf d q).storm n none).isSome then partnerErr env q 16 d
  else if !egressRoom d p n f.len then event env 0x020B 3 clsProtocol p n 0 0 (partnerErr env p 15 d)
  else pfcCheck env p n (updPort q (fun x => { x with egress := x.egress ++ [f] }) d)

/-- A frame that turns out bad had started on q: nothing waits there, its priority may start, and it is not held for its
last fragment (R265). -/
def startedOn (env : Env) (p n : Nat) (f : FrameIn) (d : Dev) : Bool :=
  let q := portOf d (1 - p)
  forwards d && !f.preemptable && q.egress.isEmpty && !pausedNow env q n && (vget q.storm n none).isNone

/-- End a frame under way with an inverted FCS (R266). -/
def stompFrame (env : Env) (p n cause : Nat) (bs : List Byte) (d : Dev) : Dev :=
  let q := 1 - p
  let f : EFrame := { bytes := bs.take 9216, from? := some p, prio := n, tick := env.tick, stomp := true }
  let d1 := updPort q (fun x => { x with sent := x.sent ++ [f], ownLast := vset x.ownLast n false }) d
  let d2 := charge 0 (energyV2 d1 1000 f.len 1024) (portCount q 4 (portCount q 1 d1))
  event env 0x0214 2 clsProtocol q cause 0 0 d2

/-! ### Delivery to the transport engine (R269, R285–R287, R307) -/

/-- An input of R307 is answered: its count, its event and PROTOCOL_ERR. -/
def xptFault (env : Env) (i : Nat) (code : BitVec 16) (sev port p0 p1 p2 : Nat) (d : Dev) : Dev :=
  event env code sev clsProtocol port p0 p1 p2 (setCause env 3 2 (xptCount i d))

/-- Put a station in its place in the list, lowest address first. -/
def noteStation (n port tick : Nat) : List (Nat × Nat × Nat) → List (Nat × Nat × Nat)
  | [] => [(n, port, tick)]
  | x :: t => if n < x.1 then (n, port, tick) :: x :: t else if n = x.1 then (n, port, tick) :: t
      else x :: noteStation n port tick t

/-- Note a probe: its source, and whether it has a lower station address (R269). -/
def noteProbe (env : Env) (p : Nat) (payload : List Byte) (d : Dev) : Dev :=
  let a : BitVec 48 := BitVec.ofNat 48 (leAt payload 0 8)
  let n := stationNum a
  updCpt (fun c => { c with
    stations := noteStation n p env.tick c.stations,
    lowerProbe := if n < stationNum c.station then some env.tick else c.lowerProbe }) d

/-- The drive's own probe has come back on the other port (R269). -/
def noteOwnProbe (env : Env) (p : Nat) (payload : List Byte) (d : Dev) : Dev :=
  if leAt payload 0 6 = d.cpt.station.toNat && leAt payload 8 1 ≠ p then
    updCpt (fun c => { c with ownProbe := some env.tick }) d
  else d

/-- The kinds a client sends. -/
def clientKind (k : Nat) : Bool := k == kOpen || k == kClose || k == kCmd || k == kData || k == kAck || k == kReset

/-- A message delivered to XPT: the header checks of R307 on it; a probe is noted. -/
def deliverXpt (env : Env) (p : Nat) (src : BitVec 48) (group : Bool) (m : List Byte) (d : Dev) : Dev :=
  let d1 := xptCount 0 d
  let kind := beAt m 1 1
  let len := beAt m 20 2
  let ok := 32 ≤ m.length && beAt m 0 1 == 1 && 1 ≤ kind && kind ≤ 11 && beAt m 2 2 < 8 && len ≤ 8192 && 32 + len ≤ m.length
  if ok && group && kind = kProbe then noteProbe env p (m.drop 32) d1
  else if !ok || group || !clientKind kind then xptFault env 7 0x0301 2 p kind (src.toNat % 2 ^ 32) 0 d1
  else { d1 with xpt := { d1.xpt with rx := d1.xpt.rx ++ [⟨p, src, m.take (32 + len)⟩] } }

/-! ### Wake filters (R279, R280) -/

/-- A wake filter matches a frame the drive would deliver. -/
def filterMatch (w : WakeFilter) (p : Nat) (group : Bool) (h : FrameHead) (bs : List Byte) : Bool :=
  let sel := fld w.ctrl 3 2
  let ety := fld w.ctrl 16 16
  let off := fld w.offset 0 7
  let pay := bs.drop h.body
  let at_ (v : BitVec 128) (i : Nat) : Byte := BitVec.ofNat 8 (fld v (8 * i) 8)
  bitOf w.ctrl 0 && bitOf w.ctrl (1 + p) && (sel == 2 || sel == 3 || (sel == 1) == group) && (ety == 0 || ety == h.etype) &&
  (List.range 16).all (fun i => at_ w.mask i == 0 ||
    (off + i < pay.length && ((pay[off + i]?).getD 0 &&& at_ w.mask i) == (at_ w.pattern i &&& at_ w.mask i)))

/-- The first filter that matches. -/
def wakeMatch (d : Dev) (p : Nat) (group : Bool) (h : FrameHead) (bs : List Byte) : Option Nat :=
  (List.range 8).find? (fun n => filterMatch (vget d.cpt.filters n {}) p group h bs)

/-- The flow a discarded frame's message belonged to is reset at the exit from DORMANT (R305). -/
def loseFrame (f : EFrame) (d : Dev) : Dev :=
  let h := frameHead f.bytes
  let id := beAt f.bytes (h.body + 4) 2
  let d1 := updCpt (fun c => { c with wakeDiscarded := min 0xFFFF (c.wakeDiscarded + 1) }) d
  match flowOf d1 id with
  | some fl => if fl.client = h.src && !d1.xpt.lost.contains id then { d1 with xpt := { d1.xpt with lost := d1.xpt.lost ++ [id] } }
      else d1
  | none => d1

/-- Hold a frame in DORMANT: up to 256 frames or 1 MiB. -/
def holdFrame (env : Env) (p n : Nat) (bs : List Byte) (d : Dev) : Dev :=
  let f : EFrame := { bytes := bs, from? := some p, prio := n, tick := env.tick }
  let held := (d.cpt.heldFrames.map (fun x => x.2.len)).foldl (· + ·) 0
  if d.cpt.heldFrames.length < 256 && held + f.len ≤ 1048576 then
    updCpt (fun c => { c with heldFrames := c.heldFrames ++ [(p, f)] }) d
  else loseFrame f d

/-- A wake filter has matched: event, cause, WAKE_OUT, and the exit from DORMANT begins (R280, R281). -/
def wakeFrame (env : Env) (p n : Nat) (d : Dev) : Env × Dev :=
  let d1 := event env 0x0215 0 clsHardware p n 0 0 (setCause env 2 0x100 d)
  wakeDormant 2 env (if d1.cpt.wakeOutEn then updCpt (fun c => { c with wakeOutAt := some env.tick, wakeOutDone := false }) d1 else d1)

/-- Deliver a frame R271 accepts: to XPT, or held in DORMANT with its wake filters tried. -/
def deliverLocal (env : Env) (p n : Nat) (group : Bool) (h : FrameHead) (bs : List Byte) (d : Dev) : Env × Dev :=
  if env.pw.st == .dormant then
    let d1 := holdFrame env p n bs d
    match wakeMatch d1 p group h bs with
    | some k => wakeFrame env p k d1
    | none => (env, d1)
  else (env, deliverXpt env p h.src group (bs.drop h.body) d)

/-! ### FRAME_RECEIVE (R264–R266, R282) -/

/-- A frame to the station address that R271 does not accept. -/
def rejectLocal (env : Env) (p : Nat) (h : FrameHead) (d : Dev) : Dev :=
  if h.etype = d.cpt.actType.toNat % 65536 then
    event env 0x0209 2 clsProtocol p h.tpid h.vid 0 (partnerErr env p 9 d)
  else event env 0x0208 2 clsProtocol p h.etype 0 0 (partnerErr env p 8 d)

/-- A good frame, by the first row that matches. -/
def goodFrame (p : Nat) (f : FrameIn) (env : Env) (d : Dev) : Env × Dev :=
  let h := frameHead f.bytes
  let x := portOf d p
  let n := rxPrio x h
  match frameRow d f.bytes h with
  | .pause => (env, pauseIn env p f.bytes h.body d)
  | .macctl => (env, event env 0x020C 2 clsProtocol p (beAt f.bytes h.body 2) 0 0 (partnerErr env p 12 d))
  | .ownSa =>
    if h.etype = d.cpt.actType.toNat % 65536 && beAt f.bytes (h.body + 1) 1 = kProbe && h.dst = d.cpt.actGroup.setWidth 48
    then (env, noteOwnProbe env p (f.bytes.drop (h.body + 32)) d)
    else (env, event env 0x020A 3 clsProtocol p 0 0 0 (partnerErr env p 10 d))
  | .linkLocal => (env, partnerErr env p 11 d)
  | .station => if actFrame d x h then deliverLocal env p n false h f.bytes d else (env, rejectLocal env p h d)
  | .actGroup =>
    let d1 := forwardFrame env p n f.bytes d
    if actFrame d1 x h then deliverLocal env p n true h f.bytes d1 else (env, d1)
  | .forward => (env, forwardFrame env p n f.bytes d)

/-- What is wrong with a frame, as the causes of R266, with the violation's count and event. -/
def badFrame (env : Env) (p : Nat) (f : FrameIn) (d : Dev) : Option (Nat × Dev) :=
  let len := f.bytes.length + 4
  match f.mergeErr with
  | some k => some (4, event env 0x0206 2 clsProtocol p k 0 0 (partnerErr env p 7 d))
  | none =>
    if f.linkFails then some (3, d)
    else if 9216 < len then some (2, event env 0x0202 2 clsProtocol p len 0 0 (partnerErr env p 5 d))
    else if len < 64 then some (0, event env 0x0203 2 clsProtocol p len 0 0 (partnerErr env p 6 d))
    else if f.fcsOk then none
    else if f.stomped then some (1, portCount p 3 d)
    else some (1, event env 0x0201 2 clsProtocol p len 0 0 (partnerErr env p 2 d))

/-- A respond mPacket answers the verification under way (R273). -/
def verifyAnswered (p : Nat) (d : Dev) : Dev :=
  if (portOf d p).verify = 1 then updPort p (fun x => { x with verify := 2, preempt := true }) d else d

/-- A frame received on a port that is up and inserted. -/
def frameIn (p : Nat) (f : FrameIn) (env : Env) (d : Dev) : Env × Dev :=
  if 2 ≤ p || !(portOf d p).link || d.cpt.bypass ≠ 1 then (env, d)
  else if f.respond then (env, verifyAnswered p d)
  else
    let d1 := portCount p 0 d
    match badFrame env p f d1 with
    | none => goodFrame p f env d1
    | some (cause, d2) =>
      let h := frameHead f.bytes
      let n := rxPrio (portOf d2 p) h
      let row := frameRow d2 f.bytes h
      if (row == .forward || row == .actGroup) && cause ≠ 0 && 60 ≤ f.bytes.length && startedOn env p n f d2
      then (env, stompFrame env p n cause f.bytes d2) else (env, d2)

/-- FRAME_RECEIVE (R264). -/
def execFrameReceive (port : Nat) (f : FrameIn) (s : State) : Host.Outcome State Fault Refusal :=
  onEnv s (frameIn port f)

/-! ### Egress (R267, R272) -/

/-- Forwarding stands still although both links may be up: a port reset, or the ring held open (R262, R270). -/
def forwardHeld (d : Dev) : Bool := d.cpt.ringOpen || (portOf d 0).resetting || (portOf d 1).resetting

/-- The frames of a port that may start now; with forwarding held, the drive's own alone. -/
def mayStart (env : Env) (held : Bool) (x : Port) : List EFrame :=
  x.egress.filter (fun f => !pausedNow env x f.prio && (vget x.storm f.prio none).isNone && !(held && f.from?.isSome))

/-- The frame whose turn it is: express before preemptable, priority 7 first, forwarded and own frames in turn. -/
def nextFrame (env : Env) (held : Bool) (x : Port) : Option EFrame :=
  let ok := mayStart env held x
  let ex := ok.filter (fun f => bitOf x.pctrl f.prio)
  let cls := if ex.isEmpty then ok else ex
  let top := (cls.map (·.prio)).foldl max 0
  let c := cls.filter (fun f => f.prio == top)
  match c.find? (fun f => f.from?.isNone != vget x.ownLast top false) with
  | some f => some f
  | none => c.head?

/-- EGRESS_FRAME_START: the frame whose turn it is is sent (R267); forwarding is charged to WC0 (R362). -/
def execEgressFrameStart (port : Nat) (s : State) : Host.Outcome State Fault Refusal :=
  onDev s (fun env d =>
    let x := portOf d port
    if 2 ≤ port || !x.link || d.cpt.op == .removing then d
    else match nextFrame env (forwardHeld d) x with
      | none => d
      | some f =>
        let d1 := portCount port 1 (updPort port (fun x => { x with
          egress := x.egress.erase f, sent := x.sent ++ [f], ownLast := vset x.ownLast f.prio f.from?.isNone }) d)
        match f.from? with
        | none => d1
        | some p => pfcCheck env p f.prio (charge 0 (energyV2 d1 1000 f.len 1024) d1))

/-- PAUSE_EXPIRY: a pause's quanta have run out (R275). -/
def execPauseExpiry (port prio : Nat) (s : State) : Host.Outcome State Fault Refusal :=
  onDev s (fun env d =>
    match vget (portOf d port).pausedUntil prio none with
    | some u =>
      if u ≤ env.tick then
        updPort port (fun x => { x with pausedUntil := vset x.pausedUntil prio none,
                                        pausedSince := vset x.pausedSince prio none }) d
      else d
    | none => d)

/-- PFC_XOFF_REFRESH: the pause is sent again every 20 µs while the bytes held stay above XON (R276). -/
def execPfcXoffRefresh (port prio : Nat) (s : State) : Host.Outcome State Fault Refusal :=
  onDev s (fun env d =>
    let x := portOf d port
    match vget x.xoff prio none with
    | some t =>
      if t + 500 ≤ env.tick && xonBytes x < heldFrom d port prio && x.link then
        sendPfc env port prio 65535 (updPort port (fun y => { y with xoff := vset y.xoff prio (some env.tick) }) d)
      else d
    | none => d)

/-- PAUSE_MS and RECOVER_MS as they act, in ticks. -/
def stormTicks (x : Port) : Nat := Config.ms * max 10 (fld x.wdog 0 16)
def recoverTicks (x : Port) : Nat := Config.ms * max 10 (fld x.wdog 16 16)

/-- The watchdog of a priority is due at this step of the wheel: paused without a break up to its limit while frames of
the priority wait (R277, R278). -/
def stormDue (env : Env) (x : Port) (prio : Nat) : Bool :=
  match vget x.pausedSince prio none with
  | none => false
  | some t => pausedNow env x prio && x.egress.any (fun f => f.prio == prio) && wheelDue env (t + stormTicks x) &&
      (vget x.storm prio none).isNone

/-- PFC_STORM: the pause watchdog, in slot 0 of the timer wheel, finds its limit reached while frames of the priority
wait (R277, R278). -/
def execPfcStorm (port prio : Nat) (s : State) : Host.Outcome State Fault Refusal :=
  onDev s (fun env d =>
    let x := portOf d port
    if !stormDue env x prio then d
    else
      let waiting := x.egress.filter (fun f => f.prio == prio)
      let d1 := pfcCheck env (1 - port) prio (updPort port (fun x => { x with
        storm := vset x.storm prio (some env.tick), pausedUntil := vset x.pausedUntil prio none,
        pausedSince := vset x.pausedSince prio none, egress := x.egress.filter (fun f => f.prio != prio),
        counts := vupd x.counts 16 (· + waiting.length) }) d)
      event env 0x0204 4 clsProtocol port prio 0 0 (setCause env 2 0x90 d1))

/-- PFC_STORM_END: RECOVER_MS without a pause of the priority (R277). -/
def execPfcStormEnd (port prio : Nat) (s : State) : Host.Outcome State Fault Refusal :=
  onDev s (fun env d =>
    let x := portOf d port
    match vget x.storm prio none with
    | none => d
    | some t =>
      if env.tick < vget x.lastPause prio 0 + recoverTicks x then d
      else
        let d1 := updPort port (fun x => { x with storm := vset x.storm prio none }) d
        event env 0x0205 1 clsProtocol port prio ((env.tick - t) / Config.ms) 0 d1)

/-! ### Links and verification (R263, R273) -/

/-- LINK_DOWN (R263). -/
def execLinkDown (port cause : Nat) (s : State) : Host.Outcome State Fault Refusal :=
  onDev s (fun env d => if 2 ≤ port || cause = 0 || 3 < cause then d else portDown env port cause d)

/-- LINK_UP: the link carries traffic; preemption verification begins where PREEMPT_EN asks for it, and a port reset that
waited for the link completes (R257, R263, R273, R409). -/
def execLinkUp (port ms : Nat) (s : State) : Host.Outcome State Fault Refusal :=
  onDev s (fun env d =>
    let x := portOf d port
    if 2 ≤ port || x.link || d.cpt.bypass ≠ 1 || d.cpt.op == .removing then d
    else
      let d1 := updPort port (fun x => { x with
        link := true, fecLock := true, preempt := false, verify := b2n (bitOf x.pctrl 24), verifyAt := env.tick,
        resetting := false }) d
      let d2 := event env 0x020E 0 clsHardware port ms 0 0 (setCause env 2 1 (pfcCheckAll env port d1))
      match d.cpt.cmds with
      | c :: _ => if c.port = port then chainDone env 2 scOk d2 else d2
      | [] => d2)

/-- Verify mPackets a port has sent since its link-up: one at once, then one every 10 ms, three in all (R273). -/
def verifySent (env : Env) (x : Port) : Nat :=
  if x.verify = 0 then 0 else min 3 (1 + (env.tick - x.verifyAt) / (10 * Config.ms))

/-- PREEMPT_VERIFY_FAILED: three verify mPackets went unanswered, each for 10 ms (R273). -/
def execPreemptVerifyFailed (port : Nat) (s : State) : Host.Outcome State Fault Refusal :=
  onDev s (fun env d =>
    if (portOf d port).verify ≠ 1 || env.tick < (portOf d port).verifyAt + 30 * Config.ms then d
    else
      let d1 := portCount port 21 (updPort port (fun x => { x with verify := 3, preempt := false }) d)
      event env 0x0207 3 clsProtocol port 0 0 0 (setCause env 2 0x20 d1))

/-- HELD_FRAME_EXPIRY: held frames older than 1 s are discarded (R280). -/
def execHeldFrameExpiry (s : State) : Host.Outcome State Fault Refusal :=
  onDev s (fun env d =>
    let old (x : Nat × EFrame) : Bool := x.2.tick + Config.second < env.tick
    let d1 := updCpt (fun c => { c with heldFrames := c.heldFrames.filter (fun x => !old x) }) d
    (d.cpt.heldFrames.filter old).foldl (fun d x => loseFrame x.2 d) d1)

/-! ### Ring probes (R269, R270, R304) -/

/-- The probe interval in ticks; 0 stops probes and detection. -/
def probeTicks (d : Dev) : Nat := Config.ms * d.cpt.probeMs.toNat

/-- A tick lies within the last three intervals. -/
def recent (env : Env) (d : Dev) (t : Option Nat) : Bool :=
  match t with | some n => env.tick < n + 3 * probeTicks d | none => false

/-- CPT_RING.SEEN. -/
def ringSeen (env : Env) (d : Dev) : Bool := recent env d d.cpt.ownProbe

/-- Send a probe out of one port (R304). SFLOW, SEQ, ACK and WINDOW of a probe are left open (R285; log 4). -/
def sendProbe (env : Env) (p : Nat) (d : Dev) : Dev :=
  let x := portOf d p
  if !x.link then d
  else
    let pay := natLe 8 d.cpt.station.toNat ++ natLe 1 p ++ natLe 3 0 ++ natLe 4 x.probeSeq
    let f := takeFree d
    let g := takeFree f.2
    let m := actHeader kProbe 0 0xFFFF (fld f.1 0 16) (fld f.1 32 32) (fld g.1 0 32) (fld g.1 32 32) pay.length 0 0 ++ pay
    let d1 := updPort p (fun x => { x with probeSeq := (x.probeSeq + 1) % 2 ^ 32 }) (xptCount 1 g.2)
    queueFrame env p (ownFrame env d p 7 (d.cpt.actGroup.setWidth 48) m) d1

/-- RING_PROBE: the interval has expired (R269). -/
def execRingProbe (s : State) : Host.Outcome State Fault Refusal :=
  onDev s (fun env d =>
    if d.cpt.probeMs = 0 || env.tick < d.cpt.lastProbe + probeTicks d then d
    else sendProbe env 1 (sendProbe env 0 (updCpt (fun c => { c with lastProbe := env.tick }) d)))

/-- SRC of the ring events: no port and not the switch (R284; log 18). -/
def ringSrc : Nat := (Config.unstated 4).toNat % 256

/-- RING_OPENED: a drive with its own ring that has seen no lower address opens it (R269). -/
def execRingOpened (s : State) : Host.Outcome State Fault Refusal :=
  onDev s (fun env d =>
    if d.cpt.ringOpen || !ringSeen env d || recent env d d.cpt.lowerProbe then d
    else event env 0x0212 3 clsProtocol ringSrc 0 0 0 (setCause env 2 0x40 (updCpt (fun c => { c with ringOpen := true }) d)))

/-- RING_CLOSED: its probe is lost for three intervals, or a lower address has been seen (R270). -/
def execRingClosed (s : State) : Host.Outcome State Fault Refusal :=
  onDev s (fun env d =>
    let cause := if !ringSeen env d then 1 else if recent env d d.cpt.lowerProbe then 2 else 0
    if !d.cpt.ringOpen || cause = 0 then d
    else event env 0x0213 1 clsProtocol ringSrc cause 0 0 (setCause env 2 0x40 (updCpt (fun c => { c with ringOpen := false }) d)))

/-! ### Insertion, the switch and its supplies (R254–R259, R365, R409) -/

/-- INSERT_SELFTEST_DONE: the hold supply is applied, or the insertion fails without motion (R257, R258). -/
def execInsertSelftestDone (good : Bool) (lanes : W32) (s : State) : Host.Outcome State Fault Refusal :=
  onDev s (fun env d =>
    if d.cpt.op != .selftest then d
    else if good then
      updCpt (fun c => { c with selftestOk := true, hold := true, bypass := 2, op := .inserting, opTick := env.tick,
                                 lastCause := c.opCause }) d
    else
      let d1 := updCpt (fun c => { c with selftestOk := false, op := .none, optics := false }) d
      chainDone env 0 scChainDown (insertFailed env 1 lanes.toNat d1))

/-- BYPASS_CHANGED: the switch reaches its commanded position (R253, R257, R259). -/
def execBypassChanged (s : State) : Host.Outcome State Fault Refusal :=
  onDev s (fun env d =>
    match d.cpt.op with
    | .inserting =>
      let d1 := updCpt (fun c => { c with bypass := 1, sensed := true, op := .locking env.tick }) d
      event env 0x020F 1 clsHardware 0xFF 1 d1.cpt.lastCause 0 (setCause env 2 2 d1)
    | .removing => bypassed env d
    | _ => d)

/-- INSERT_DECISION: 200 ms after INSERTED the insertion succeeds when a port is up, with a port still down reported as
R263 reports one, else the switch returns (R258). The failing lanes it reports, and which of the three causes a port
that never came up gives, are left open. -/
def execInsertDecision (s : State) : Host.Outcome State Fault Refusal :=
  onDev s (fun env d =>
    match d.cpt.op with
    | .locking t =>
      if env.tick < t + 200 * Config.ms then d
      else if (portOf d 0).link || (portOf d 1).link then
        let still (p : Nat) (d : Dev) : Dev :=
          if (portOf d p).link then d
          else
            let f := takeFree d
            reportDown env p (1 + f.1.toNat % 3) f.2
        chainDone env 0 scOk (still 1 (still 0 (updCpt (fun c => { c with op := .none }) d)))
      else
        let f := takeFree d
        chainDone env 0 scChainDown (startRemoval env 4 (insertFailed env 2 (f.1.toNat % 2 ^ 32) f.2))
    | _ => d)

/-- Motion bounds of R253 with the 20 ms of R255, in ticks. -/
def motionTicks (inserting : Bool) : Nat := Config.ms * (if inserting then 30 else 35)

/-- BYPASS_FAULT: the switch has not reached its commanded position 20 ms after the motion bound (R255). -/
def execBypassFault (s : State) : Host.Outcome State Fault Refusal :=
  onDev s (fun env d =>
    let c := d.cpt
    let inserting := c.op == .inserting
    if !(inserting || c.op == .removing) || env.tick < c.opTick + motionTicks inserting || c.sensed == c.hold then d
    else
      let d1 := updCpt (fun c => { c with hold := false, bypass := 3, op := .none, optics := false,
                                          lastCause := 4, opTick := env.tick }) (portDown env 0 1 (portDown env 1 1 d))
      let d2 := event env 0x0210 6 clsHardware 0xFF (b2n c.hold) (b2n c.sensed) 0 (setCause env 2 4 d1)
      chainNext env (if inserting then chainDone env 0 scChainDown (insertFailed env 3 0 d2) else chainDone env 1 scOk d2))

/-- AUX_12V_LOSS: with main power present the removal runs at once (R254, R365). -/
def execAux12vLoss (s : State) : Host.Outcome State Fault Refusal :=
  onEnv s (fun env d =>
    if !env.pw.aux12 then (env, d)
    else
      let env' := { env with pw := { env.pw with aux12 := false } }
      (env', if env.pw.main then removeNow env' 3 (supplyLost env' d) else d))

/-- AUX_12V_PRESENT: the governor takes it up at the next window (R365). -/
def execAux12vPresent (s : State) : Host.Outcome State Fault Refusal :=
  onEnv s (fun env d => ({ env with pw := { env.pw with aux12 := true } }, d))

/-- SENSE_CHANGE: the SENSE pins of J-AUX; the governor takes them up at the next window (R365). -/
def execSenseChange (sense0 sense1 : Bool) (s : State) : Host.Outcome State Fault Refusal :=
  onEnv s (fun env d => ({ env with pw := { env.pw with sense0 := sense0, sense1 := sense1 } }, d))

/-- A CHAIN_CONTROL command takes its place behind those dispatched before it, whose tasks stand before its own; a bypass or
port reset from a chain flow sends its RESP first (R409). -/
def chainControl (action : Nat) (env : Env) (t : Task) (d : Dev) : Dev :=
  let before := (d.mea.tasks.takeWhile (fun x => x.ref != t.ref)).any (fun x => capOpc x.capsule == 0x54 && !x.completed &&
    x.job.phase == .start && x.kind != .hook)
  if cap t.capsule 6 1 ≠ action || t.job.phase != .start || before then d
  else
    let c : ChainCmd := { task := some t.ref, action := action, port := cap t.capsule 7 1, since := env.tick }
    if t.kind == .act && action ≠ 0 then
      let id := t.source.toNat
      let resp := (flowOf d id).map (fun fl => (id, fl.txNext))
      let d1 := finishTask env t scOk 0 false d
      let later := match flowOf d1 id with | some fl => fl.outs.any (fun r => r.no == some t.arrNo) | none => false
      let mine := { c with task := none, resp := resp, waits := if later then some t.arrNo else none }
      chainNext env (updCpt (fun x => { x with cmds := x.cmds ++ [mine] }) d1)
    else
      let t1 := { t with job := { t.job with phase := .waitDrive } }
      chainNext env (updCpt (fun x => { x with cmds := x.cmds ++ [c] }) (park env t1 (putTask t1 d)))

/-- CHAIN_CONTROL_INSERT (R409). -/
def execChainControlInsert (t : TaskRef) (s : State) : Host.Outcome State Fault Refusal :=
  serve t 0x54 (chainControl 0) s

/-- CHAIN_CONTROL_BYPASS (R409). -/
def execChainControlBypass (t : TaskRef) (s : State) : Host.Outcome State Fault Refusal :=
  serve t 0x54 (chainControl 1) s

/-- PORT_RESET (R262, R409). -/
def execPortReset (t : TaskRef) (s : State) : Host.Outcome State Fault Refusal :=
  serve t 0x54 (chainControl 2) s

/-- PORT_RESET_TIMEOUT: 200 ms without link (R409). -/
def execPortResetTimeout (s : State) : Host.Outcome State Fault Refusal :=
  onDev s (fun env d =>
    match d.cpt.cmds with
    | c :: _ =>
      if c.started && c.action = 2 && c.since + 200 * Config.ms ≤ env.tick && !(portOf d c.port).link
      then chainDone env 2 scChainDown d else d
    | [] => d)

/-- RESP_ACK_WAIT_EXPIRY: 10 ms after the RESP the action is performed all the same (R409). -/
def execRespAckWaitExpiry (s : State) : Host.Outcome State Fault Refusal :=
  onDev s (fun env d =>
    let free (c : ChainCmd) : ChainCmd :=
      if c.resp.isSome && c.waits.isNone && c.since + 10 * Config.ms ≤ env.tick then { c with resp := none } else c
    chainNext env (updCpt (fun x => { x with cmds := x.cmds.map free }) d))

end Sys2Proof.Machine
end

