-- ==== Sys2Proof/Machine/Frames.lean ====
section
/-! DEFINITION. FRAME_PUT (06, R178–R185, R193–R196) and BATCH (05, R164–R167). -/

namespace Sys2Proof.Machine

/-! ### Verify events (R195, R196, R205) -/

/-- P0 of the calender's events: MODE, FLOOR, PTYPE. -/
def calP0 (mode ptype : Nat) : Nat := mode % 32 + ptype * 256

/-- A failed verify attempt of a lossy tile. -/
def verifyFailed (env : Env) (lane mode ptype param pixel : Nat) (d : Dev) : Dev :=
  event env 0x0801 4 clsHardware lane (calP0 mode ptype) param pixel
    { d with cal := { d.cal with verifyFails := sat32 (d.cal.verifyFails + 1) } }

/-- The lane a tile is coded on again: another one in service, which the manual leaves open; the same one when it is alone
(R195). -/
def retryLane (lane : Nat) (d : Dev) : Nat × Dev :=
  let ls := (lanesOn d).filter (· != lane)
  if ls.isEmpty then (lane, d) else someLane ls d

/-- What the verify of a tile finds: what the lanes that decode it report, and a failure of both attempts where a pixel of v′
fails its integer test (R194). -/
def verdict (v : Verify) (unmet : Option Nat) : Verify :=
  match unmet with
  | none => v
  | some px => .failed px px

/-- Codings of a lossy tile: a second one after an attempt that failed (R195). -/
def codings : Verify → Nat
  | .pass => 1
  | _ => 2

/-- Energy of the codings of a tile (R200). -/
def chargeCodings (bytes : Nat) : Nat → Dev → Dev
  | 0, d => d
  | n + 1, d => chargeCodings bytes n (chargeEncode bytes d)

/-- The verify pass of a tile: failed attempts are counted and reported; answers whether the bound is met (R194, R195). -/
def verifyLossy (env : Env) (v : Verify) (lane mode ptype param ksid hash : Nat) (d : Dev) : Bool × Dev :=
  match v with
  | .pass => (true, d)
  | .retried px => (true, verifyFailed env lane mode ptype param px (setCause env 8 1 d))
  | .failed p1 p2 =>
    let f := retryLane lane (verifyFailed env lane mode ptype param p1 (setCause env 8 1 d))
    (false, event env 0x0802 5 clsHardware f.1 (calP0 mode ptype) ksid hash
      (verifyFailed env f.1 mode ptype param p2 f.2))

/-- A lossless tile that fails verify is held uncoded (R196). -/
def losslessFallback (env : Env) (lane mode ptype : Nat) (d : Dev) : Dev :=
  event env 0x0803 4 clsHardware lane (calP0 mode ptype) lane 0
    (setCause env 8 4 { d with cal := { d.cal with verifyFails := sat32 (d.cal.verifyFails + 1) } })

/-- CAL_CTRL.VERIFY_LOSSLESS (R204). -/
def verifyLossless (d : Dev) : Bool := bitOf d.cal.ctrl 0

/-- A lossless tile fails its verify under VERIFY_LOSSLESS. -/
def fallsBack (d : Dev) (v : Verify) : Bool :=
  verifyLossless d && (match v with | .pass => false | _ => true)

/-! ### FRAME_PUT -/

/-- The conditions of FRAME_PUT under the lock that need no header: ADD_FRAMES on a plain object, and IF_ABSENT (R182). They are
tested before the header is read (DESIGN CHOICE, log 143). -/
def frameEarly (c : V512) (cur : Option (W32 × Obj)) : Option Verdict :=
  if bitOf c 49 && cur.isSome && !curFrame cur then some (scInvalidField, 0)
  else if bitOf c 48 && cur.isSome then some (scExists, resultOf (curVer cur) 0)
  else none

/-- Kind, geometry, existence and size conditions of FRAME_PUT under the lock, in the order of R173. -/
def frameConds (c : V512) (h : FrameHdr) (cur : Option (W32 × Obj)) : Option Verdict :=
  let add := bitOf c 49
  let old := match cur with | some x => x.2.frame | none => none
  let n0 := match old with | some f => if add then f.frames.length else 0 | none => 0
  let tiles := tilesOf h.width (2 ^ h.tileLog2) * tilesOf h.height (2 ^ h.tileLog2)
  if add && cur.isSome && (match old with
      | none => true
      | some f => f.width != h.width || f.height != h.height || f.ptype != h.ptype || f.tileLog2 != h.tileLog2)
  then some (scInvalidField, 0)
  else if bitOf c 48 && cur.isSome then some (scExists, resultOf (curVer cur) 0)
  else if 1048576 < n0 + h.nframes || Config.maxValue < streamLen h.ptype h.width h.height tiles (n0 + h.nframes)
  then some (scTooLarge, 0)
  else none

/-- The frame object after the command. -/
def framesAfter (c : V512) (h : FrameHdr) (cur : Option (W32 × Obj)) (new : List FrameRec) : FrameObj :=
  let keep := match cur with
    | some x => if bitOf c 49 then (match x.2.frame with | some f => f.frames | none => []) else []
    | none => []
  { ptype := h.ptype, tileLog2 := h.tileLog2, width := h.width, height := h.height, frames := keep ++ new }

/-- Length and footprint of a frame object. -/
def FrameObj.streamLen (o : FrameObj) : Nat :=
  Sys2Proof.Machine.streamLen o.ptype o.width o.height o.tileCount o.frames.length

/-- Frames the object keeps before those the command brings. -/
def keptFrames (c : V512) (cur : Option (W32 × Obj)) : Nat :=
  match cur with
  | some x => if bitOf c 49 then (match x.2.frame with | some f => f.frames.length | none => 0) else 0
  | none => 0

/-- Growth of the footprint (R168, R169). -/
def frameGrowth (c : V512) (h : FrameHdr) (cur : Option (W32 × Obj)) : Nat :=
  let tiles := tilesOf h.width (2 ^ h.tileLog2) * tilesOf h.height (2 ^ h.tileLog2)
  roundUp (streamLen h.ptype h.width h.height tiles (keptFrames c cur + h.nframes)) 4096 -
    (match cur with | some x => x.2.footprint | none => 0)

/-- A held write's coded tiles stay in calender staging until they are on media (R203). -/
def holdStage (id r : Nat) (d : Dev) : Dev := updHeld id (fun x => { x with stage := r }) d

/-- Bytes of one full tile. -/
def fullTile (h : FrameHdr) : Nat := 2 ^ (2 * h.tileLog2) * bpp h.ptype

/-- Tiles of a frame of this header, and tile j's pixels of a plane. -/
def FrameHdr.tiles (h : FrameHdr) : Nat := tilesOf h.width (2 ^ h.tileLog2) * tilesOf h.height (2 ^ h.tileLog2)
def FrameHdr.tile (h : FrameHdr) (v : List Nat) (j : Nat) : List Nat :=
  let cols := tilesOf h.width (2 ^ h.tileLog2)
  tilePixels h.width h.height (2 ^ h.tileLog2) v (j % cols) (j / cols)

/-- End in the data of the last byte of tile j of input frame f (R178). -/
def tileEnd (h : FrameHdr) (f j : Nat) : Nat :=
  let side := 2 ^ h.tileLog2
  let cols := tilesOf h.width side
  let x := j % cols * side + tileSpan h.width side (j % cols)
  let y := j / cols * side + tileSpan h.height side (j / cols)
  h.pixelOff + f * h.framePitch + (y - 1) * h.rowPitch + x * bpp h.ptype

/-- The lane and the outcome of its verify that the drive gives a tile; a lane out of service gives way to the lowest in
service (R204). -/
def tileLane (tiles : List (Nat × Verify)) (no : Nat) (d : Dev) : Nat × Verify :=
  let x := tiles.getD no (0, .pass)
  (if laneOn d x.1 then x.1 else (lanesOn d).headD 0, x.2)

/-- SHEET_NO of the sheet of the stream in which a tile's pixels begin (R209; log 124). -/
def tileSheet (h : FrameHdr) (kept no : Nat) : Nat :=
  let f : FrameObj := { ptype := h.ptype, tileLog2 := h.tileLog2, width := h.width, height := h.height, frames := [] }
  let base := 64 + 16 * (kept + h.nframes) + (kept + no / h.tiles) * sectionLen h.ptype h.width h.height h.tiles + 64 + 16 * h.tiles
  match (tileOffsets f base (List.range h.tiles)).find? (fun x => x.1 == no % h.tiles) with
  | some x => x.2 / 4096
  | none => 0

/-- What coding some tiles makes: the facts of the tile index, the stretches that go to media, and whether every bound is met. -/
structure Coding where
  ok : Bool := true
  info : Tbl TileInfo := []
  runs : List Run := []

/-- Code and verify one tile of a FRAME_PUT, numbered over the frames it brings: v′ is held uncoded when the coded form, whose
length the manual leaves open, would not be smaller, or when a lossless tile fails its verify (R193–R196). -/
def codeTile (env : Env) (t : Task) (h : FrameHdr) (data : List Byte) (kept : Nat) (tiles : List (Nat × Verify)) (no : Nat)
    (d : Dev) : Coding × Dev :=
  let c := t.capsule
  let v := h.tile (inputPixels h data (no / h.tiles)) (no % h.tiles)
  let v' := v.map (recon h.ptype h.mode h.param h.floorT)
  let raw := pixelBytes h.ptype v'
  let l := tileLane tiles no d
  let hash := (keyHash (BitVec.ofNat 8 (capKsid c)) t.key).toNat % 2 ^ 32
  let back := !lossy h.mode && fallsBack d l.2
  let seen := verdict l.2 (firstUnmet h.ptype h.mode h.param h.floorT v v')
  let ok := if lossy h.mode then verifyLossy env seen l.1 h.mode h.ptype h.param (capKsid c) hash d
    else (true, if back then losslessFallback env l.1 h.mode h.ptype d else d)
  let d1 := chargeCodings raw.length (if lossy h.mode then codings seen else 1) ok.2
  if !ok.1 then ({ ok := false }, setCause env 8 2 d1)
  else
    let f := takeFree d1
    let n := f.1.toNat % 2 ^ 32
    let isRaw := back || heldRaw h.mode n raw.length
    let b := if isRaw then (raw, f.2) else takeFreeBytes n f.2
    let i : TileInfo := { codedLen := (padUnit b.1).length, raw := isRaw, exact := v == v' }
    ({ info := [(no, i)],
       runs := [{ no := kept * h.tiles + no, coded := true, sheetNo := some (tileSheet h kept no), stream := 1, bytes := padUnit b.1, plain := raw,
                  amount := raw.length }] },
     countTiles 1 (b2n isRaw) (bookForm b.1 raw b.2))

/-- Code tiles in order, until one meets its bound on no attempt. -/
def codeTiles (env : Env) (t : Task) (h : FrameHdr) (data : List Byte) (kept : Nat) (tiles : List (Nat × Verify)) :
    List Nat → Dev → Coding × Dev
  | [], d => ({}, d)
  | no :: nos, d =>
    let a := codeTile env t h data kept tiles no d
    if !a.1.ok then a
    else
      let r := codeTiles env t h data kept tiles nos a.2
      ({ ok := r.1.ok, info := a.1.info ++ r.1.info, runs := a.1.runs ++ r.1.runs }, r.2)

/-- Header and data of a FRAME_PUT whose value is in felt. -/
def frameValue (t : Task) : Option (FrameHdr × List Byte) :=
  (parseHeader (t.job.data.take 64) (t.job.data.drop 64).length).map (fun h => (h, t.job.data.drop 64))

/-- The coded units of some runs of a held write. -/
def unitsOf (id : Nat) (rs : List Run) : List Coded := rs.map (fun r => { no := r.no, sheets := 1, loc := .felt id, len := r.bytes.length })

/-- Commit the frames as one version, their tiles coded and verified (R154, R185). ACCEPT_TICK of a frame is the tick at
which the command's arrival was accepted (R48, R199; DESIGN CHOICE, log 129). A streamed write's tiles are on media. -/
def commitFrames (env : Env) (t : Task) (n : Nat) (h : FrameHdr) (data : List Byte) (runs : List Run) (streamed : Bool) (d : Dev) : Dev :=
  let c := t.capsule
  let k := capKsid c
  let cur := currentOf d (.slot n)
  let run := takeVer env k d
  let info (no : Nat) : TileInfo := (tblGet t.job.tiles no).getD ⟨0, false, false⟩
  let new := (List.range h.nframes).map (frameRec h data run.1 t.accTick info)
  let fo := framesAfter c h cur new
  let add := match cur with | some x => if bitOf c 49 then some x.2 else none | none => none
  let old : Obj := add.getD { objId := t.job.objId, len := 0, kgen := (ksOf d k).kgen }
  let o : Obj := { old with len := fo.streamLen, compress := 3, frame := some fo,
                            coded := old.coded ++ unitsOf run.2.flt.nextHeld runs }
  let put := if streamed then installPlaced env t n run.1 (takePlaces run.2 t.job.heldIds o) run.2
    else install env t n run.1 o runs data.length run.2
  let j : Job := { t.job with firstVer := run.1, done := 1, heldIds := t.job.heldIds ++ [put.1], reserved := 0, phase := .media 0,
                              lock := .dropped, result := resultOf run.1 fo.frames.length }
  let d1 := holdStage put.1 (fullTile h) put.2
  let d2 := dropPortions j.heldIds (releaseSlots t.owner { d1 with kdr := { d1.kdr with reserved := d1.kdr.reserved - t.job.reserved } })
  if t.job.durable && !allSettled d2 j.heldIds then waitJob env t j d2
  else endJob env { t with job := j } scOk j.result false (putTask { t with job := j } d2)

/-- A tile failed both attempts: the command fails, the object is not written, and its portions are held no more (R195). -/
def boundFailed (env : Env) (t : Task) (d : Dev) : Dev := endJob env t scBoundViolation 0 false (dropPortions t.job.heldIds d)

/-- Once the calender has staging for a tile, code all tiles and commit (R184, R203). -/
def codeAndCommit (env : Env) (t : Task) (n : Nat) (tiles : List (Nat × Verify)) (d : Dev) : Dev :=
  match frameValue t with
  | none => endJob env t scInvalidField 0 false d
  | some (h, data) =>
    if !stageNow d t false (fullTile h) then waitJob env t t.job (stageWait t false (fullTile h) d)
    else if !runAllowed d (capKsid t.capsule) 1 then ensureMark (capKsid t.capsule) 1 d
    else
      let x := codeTiles env t h data (keptFrames t.capsule (currentOf d (.slot n))) tiles (List.range (h.tiles * h.nframes))
        (stageFree t d)
      if !x.1.ok then boundFailed env t x.2
      else commitFrames env { t with job := { t.job with tiles := x.1.info } } n h data x.1.runs false x.2

/-- Tiles of a streamed FRAME_PUT whose last byte has reached felt and that are not coded (R185). -/
def dueTiles (t : Task) (h : FrameHdr) (admitted : Nat) : List Nat :=
  (List.range (h.tiles * h.nframes)).filter (fun no =>
    decide (tileEnd h (no / h.tiles) (no % h.tiles) ≤ admitted) && (tblGet t.job.tiles no).isNone)

/-- Raw portions of a write whose tiles have been coded are held no more. -/
def dropRaw (ids : List Nat) (d : Dev) : Dev :=
  { d with flt := { d.flt with held := d.flt.held.map (fun x =>
    if ids.contains x.id then { x with runs := x.runs.filter (fun r => r.kind != rawKind) } else x) } }

/-- Coded tiles take the place of the raw portions that are in felt: the newest portion holds them, and they go to media (R185,
R516). -/
def placeTiles (env : Env) (t : Task) (h : FrameHdr) (runs : List Run) (d : Dev) : Dev :=
  let id := t.job.heldIds.getLastD 0
  placeHeld env id (updHeld id (fun x => { x with runs := x.runs ++ runs, stage := fullTile h }) (dropRaw t.job.heldIds d))

/-- A streamed FRAME_PUT codes the tiles that have reached felt, then commits once all are on media (R185, R516). In an
encrypted keyspace their ciphertext is left open, as their version is not known (log 126). -/
def streamFrames (env : Env) (t : Task) (n a : Nat) (tiles : List (Nat × Verify)) (d : Dev) : Dev :=
  match frameValue t with
  | none => endJob env t scInvalidField 0 false d
  | some (h, data) =>
    let due := dueTiles t h (if t.job.len ≤ a then t.job.data.length else a - (t.job.len - data.length))
    if due.isEmpty then
      if t.job.len ≤ a && portionsDone (dropRaw t.job.heldIds d) t.job.heldIds then
        if !runAllowed d (capKsid t.capsule) 1 then ensureMark (capKsid t.capsule) 1 d
        else
          let runs := (d.flt.held.filter (fun x => t.job.heldIds.contains x.id && !x.committed)).flatMap (·.runs)
          commitFrames env t n h data runs true d
      else d
    else if !stageNow d t false (fullTile h) then waitJob env t t.job (stageWait t false (fullTile h) d)
    else
      let x := codeTiles env t h data (keptFrames t.capsule (currentOf d (.slot n))) tiles due (stageFree t d)
      if !x.1.ok then boundFailed env t x.2
      else
        let r := freeSeal env (capKsid t.capsule) x.1.runs x.2
        placeTiles env t h r.1 (putTask { t with job := { t.job with tiles := t.job.tiles ++ x.1.info } } r.2)

/-- Code and commit once protected felt has room (R22). -/
def admitFrames (env : Env) (t : Task) (n : Nat) (tiles : List (Nat × Verify)) (d : Dev) : Dev :=
  if env.pw.limitMib = 0 then waitJob env t (streamRest t).job d
  else if roomFor env d t.job.len then codeAndCommit env t n tiles d
  else waitJob env t { t.job with phase := .admission } (admissionHeld env d)

/-- The value of an accepted FRAME_PUT comes into felt, behind the header where a parser wrote it; what the parser's stage took
is not read again (R173 step 9, R180). -/
def takeFrames (env : Env) (t : Task) (n : Nat) (streamed : Bool) (value : Rd) (tiles : List (Nat × Verify)) (d : Dev) : Dev :=
  let got := t.job.data.length - 64
  match fetchData d t (if got = capLen t.capsule then 0 else capLen t.capsule) value with
  | .wait => waitJob env t t.job d
  | .fail code => endJob env t scAbortedHost 0 false (bufferFail env t code d)
  | .data bs =>
    let t1 := { t with job := { t.job with data := t.job.data ++ bs.drop got, phase := if streamed then .stream 0 else .pieces 0 } }
    let d1 := copied t (bs.length - got) d
    if streamed then waitJob env t1 t1.job d1 else admitFrames env t1 n tiles (putTask t1 d1)

/-- Accept a FRAME_PUT whose header is known, before any more of its data: R179, the conditions under the lock, and space (R169,
R172, R184). `data` is the header and the bytes in felt where a parser has run. -/
def acceptFrames (env : Env) (t : Task) (l : Lk) (hdr data : List Byte) (value : Rd) (tiles : List (Nat × Verify)) (d : Dev) : Dev :=
  let c := t.capsule
  match parseHeader hdr (capLen c - (if data.isEmpty then 64 else 0)) with
  | none => endJob env t scInvalidField 0 false d
  | some h =>
    let cur := currentOf d l
    match frameConds c h cur, l with
    | some x, _ => endJob env t x.1 x.2 false d
    | none, .slot n =>
      let g := frameGrowth c h cur
      if !spaceFor d g then endJob env t scFull 0 false d
      else
        let keep := bitOf c 49 && cur.isSome
        let ob := if keep then ((match cur with | some x => x.2.objId | none => 0), d) else takeObjId d
        let j : Job := { t.job with
          data := data, off := 0, len := capLen c, done := 0, total := 1, objId := ob.1, reserved := g,
          durable := durableWrite env c, phase := .accepted (streams env c) }
        takeFrames env { t with job := j } n (streams env c) value tiles
          (putTask { t with job := j } { ob.2 with kdr := { ob.2.kdr with reserved := ob.2.kdr.reserved + g } })
    | none, _ => noSlot env t d

/-- FRAME_PUT before its acceptance: under its lock, the conditions that need no header, then its header, from its first 64
bytes or from where the parser wrote it (R178, R180, R184). R173 does not place R179's SC_INVALID_FIELD: it stands after
SC_EXISTS and before SC_TOO_LARGE (DESIGN CHOICE, log 143). -/
def startFrames (env : Env) (t : Task) (value : Rd) (tiles : List (Nat × Verify)) (parsed : Bool) (d : Dev) : Dev :=
  let l := lockOf env t d
  match l.1 with
  | .wait => waitJob env l.2.1 l.2.1.job l.2.2
  | lk =>
    let d1 := l.2.2
    let t1 := l.2.1
    match frameEarly t1.capsule (currentOf d1 lk) with
    | some v => endJob env t1 v.1 v.2 false d1
    | none =>
      if parsed then
        let hdr := memBytes d1.mea.fe t1.job.off 64
        acceptFrames env t1 lk hdr (hdr ++ t1.job.data) value tiles d1
      else match fetchData d1 t1 64 value with
        | .wait => waitJob env t1 t1.job d1
        | .fail code => (match lk with
          | .slot _ => endJob env t1 scAbortedHost 0 false (bufferFail env t1 code d1)
          | _ => noSlot env t1 (bufferFail env t1 code d1))
        | .data bs => acceptFrames env t1 lk bs [] value tiles d1

/-- The FRAME_PARSER a command passes; a loopback command passes no hook (R61, R62, R180). -/
def parserOf (d : Dev) (t : Task) : Option (Nat × Program × Nat) :=
  if t.kind == .loop then none else hookFor d 1 (capKsid t.capsule)

/-- FRAME_PUT before a parser has run: its lock, and what can be refused without a header; then it waits for the parser, also
where the directory has no slot for it, since R173 reports SC_TOO_LARGE first. -/
def awaitParser (env : Env) (t : Task) (d : Dev) : Dev :=
  let l := lockOf env t d
  match l.1 with
  | .wait => waitJob env l.2.1 l.2.1.job l.2.2
  | lk =>
    match frameEarly l.2.1.capsule (currentOf l.2.2 lk) with
    | some v => endJob env l.2.1 v.1 v.2 false l.2.2
    | none => l.2.2

/-- FRAME_PUT (R181–R185). -/
def execFramePut (t : TaskRef) (value : Rd) (tiles : List (Nat × Verify)) (s : State) : Host.Outcome State Fault Refusal :=
  serve t 0x0C (fun env t d =>
    match t.job.phase, t.job.lock with
    | .media _, _ => if allSettled d t.job.heldIds then endJob env t scOk t.job.result false d else d
    | .start, _ =>
      if wornStops d t.capsule then endJob env t scMediaWorn 0 false d
      else match parserOf d t with
        | none => startFrames env t value tiles false d
        | some p =>
          if p.2.1.quarantined then endJob env t scProgramFault (faultResult fQuarantined (BitVec.ofNat 16 p.1)) false d
          else awaitParser env t d
    | .accepted streamed, .held n => takeFrames env t n streamed value tiles d
    | .pieces k, lk =>
      if t.job.total = 1 then (match lk with | .held n => admitFrames env t n tiles d | _ => d)
      else if k = 2 then endJob env t t.job.status t.job.result false d
      else if wornStops d t.capsule then endJob env t scMediaWorn 0 false d
      else startFrames env t value tiles true d
    | .stream a, .held n => streamFrames env t n a tiles d
    | _, _ => d) s

/-- What a command's lock request has come to: its slot, or none because the directory had none for it (R170, R221). -/
def Task.lockSeen (t : Task) : Option Lk :=
  match t.job.lock with
  | .held n => some (.slot n)
  | .none => some .absent
  | _ => none

/-- FRAME_PARSER: the hook is invoked once the first min(VALUE_LEN, 1 MiB) bytes of a FRAME_PUT are in felt, behind a
zeroed header area (R180). -/
def execFrameParser (t hook : TaskRef) (off : Nat) (value : Rd) (s : State) : Host.Outcome State Fault Refusal :=
  serve t 0x0C (fun env x d =>
    match parserOf d x, x.job.phase, x.lockSeen with
    | some p, .start, some lk =>
      if d.trl.worn || (frameEarly x.capsule (currentOf d lk)).isSome || p.2.1.quarantined || !ctxFree d hook false ||
         !vatOk d hook x.group || !fits d p.2.1.wclass 0 then d
      else
        let len := min (capLen x.capsule) 1048576
        match fetchData d x len value with
        | .wait => d
        | .fail code => endJob env x scAbortedHost 0 false (bufferFail env x code d)
        | .data bs =>
          let d1 := { d with mea := { d.mea with fe := memStore (memZero d.mea.fe off (64 + len)) (off + 64) bs } }
          let h : Task :=
            { eng := hook.eng, ctx := hook.ctx, kind := .hook, prio := x.prio, source := 1, group := x.group,
              epoch := (groupOf d x.group.toNat).epoch, wclass := p.2.1.wclass, program := BitVec.ofNat 16 p.1,
              capsule := x.capsule, key := x.key, accTick := x.accTick, arrNo := x.arrNo, pc := w32 p.2.2,
              hookOf := some x.arrNo, regions := [⟨1, off, 64 + len⟩] }
          startTask env h (2 ^ 60 + off) (64 + len) (keyHash (BitVec.ofNat 8 (capKsid x.capsule)) x.key)
            (park env x (putTask { x with job := { x.job with phase := .waitDrive, off := off, data := bs } } (copied x len d1)))
    | _, _, _ => d) s

/-! ### BATCH (R164–R167) -/

/-- The value buffer a loopback command's pointers are offsets in. -/
def parentSegs (d : Dev) (t : Task) : List (Nat × Nat) :=
  match t.parent with
  | some p => (match taskAt d p.eng p.ctx with | some x => x.sgl | none => [])
  | none => []

/-- The source a member is checked as. -/
def memberSrc (d : Dev) (t : Task) : Src :=
  { kind := t.kind, id := t.source.toNat, bufLen := segsLen (parentSegs d t),
    program := match t.parent with
      | some p => (match taskAt d p.eng p.ctx with | some x => x.program | none => 0)
      | none => 0 }

/-- Steps 1 and 2 of R173 on a member's entry alone (R164, R522). R299's fields of a chain client's capsule are checked on the
capsule that arrives, not on the members of its BATCH (DESIGN CHOICE, log 142). -/
def memberEntry (d : Dev) (t : Task) (m : V512) : Option Verdict :=
  let opc := capOpc m
  let src := memberSrc d t
  let m0 := m &&& ~~~(0x1000 : V512)
  let k := capKsid m
  if !(1 ≤ opc && opc ≤ 9) then some (scInvalidOpcode, 0)
  else if t.kind == .act && !flowAllows d src.id opc k then some (scPrivilege, 0)
  else if t.kind == .loop && (!granted d src.program k || !loopRanges src m0) then some (scPrivilege, 0)
  else if capOrdered m || capPrio m != 0 || (capGroup m && isRead opc && opc != 0x04) || !commonOk d m0 ||
          (t.kind == .loop && capSgl m) || !kvFieldsOk d m0 || !(ksOf d k).exist then some (scInvalidField, 0)
  else if kvTooLarge m0 then some (scTooLarge, 0)
  else none

/-- The failed read of a member's key or scatter list (R122). -/
def memberDma (m : V512) (mi : MemberIn) : Option Byte :=
  match (if capInline m then Rd.ok [] else mi.key), (if capSgl m then mi.sgl else Rd.ok []) with
  | .fail e, _ => some (errCode e)
  | _, .fail e => some (errCode e)
  | _, _ => none

/-- What a member completes with before its hooks: the rest of step 2 of R173, and step 3. -/
def memberEarly (d : Dev) (m : V512) (segs : Option (List (Nat × Nat))) : Option Verdict :=
  let k := capKsid m
  if segs.isNone then some (scInvalidField, 0)
  else if (ksOf d k).encrypted && (ksOf d k).locked then some (scKeyspaceLocked, 0)
  else none

/-- A member of the array that has been read, with the report of a failed read of its key or scatter list; a scatter list that
breaks R110 goes first (R173). -/
def memberOf (env : Env) (t : Task) (m : V512) (mi : MemberIn) (d : Dev) : Member × Dev :=
  let key := if capInline m then inlineKey m else (match mi.key with | .ok bs => slice bs 0 (capKlen m) | .fail _ => [])
  let sg := match mi.sgl with | .ok bs => bs | .fail _ => []
  let sgRead := !capSgl m || (match mi.sgl with | .ok _ => true | .fail _ => false)
  let segs := if t.kind == .loop then some (sliceSegs (parentSegs d t) (capPtr m) (capLen m))
    else if hasBuffer m && sgRead then bufferOf m sg else some []
  let x : Member :=
    { capsule := m &&& ~~~(0x1000 : V512), group := capGroup m, key := key, sgl := segs.getD [],
      job := { lockDue := t.job.lockDue, durable := capDurable t.capsule && isWrite (capOpc m) } }
  match memberEntry d t m with
  | some v => ({ x with verdict := some v }, d)
  | none =>
    match (if segs.isNone then none else memberDma m mi) with
    | some code => ({ x with verdict := some (scAbortedHost, 0) }, bufferFail env { t with capsule := m } code d)
    | none => ({ x with verdict := memberEarly d m segs }, d)

/-- What a member brings, by its number. -/
def inAt (ins : List MemberIn) (i : Nat) : MemberIn := ins.getD i ⟨.ok [], .ok [], .ok [], .ok, []⟩

/-- The members of a BATCH from the entries of its array. -/
def membersOf (env : Env) (t : Task) (bs : List Byte) (ins : List MemberIn) : Nat → Nat → Dev → List Member × Dev
  | 0, _, d => ([], d)
  | n + 1, i, d =>
    let a := memberOf env t (bytesV512 (slice bs (64 * i) 64)) (inAt ins i) d
    let r := membersOf env t bs ins n (i + 1) a.2
    (a.1 :: r.1, r.2)

/-- Two members name the same key. -/
def sameKey (a b : Member) : Bool := capKsid a.capsule == capKsid b.capsule && a.key == b.key

/-- Outcomes that the group as a whole gives a member: a repeated key, a long range, more than 256 MiB of values (R166). -/
def groupVerdict (ms : List Member) (i : Nat) (m : Member) : Option Verdict :=
  let before := (ms.take i).filter (·.group)
  let vals (x : Member) : Nat := inboundLen x.capsule
  let sum := (before.map vals).foldl (· + ·) 0
  if !m.group then none
  else if before.any (fun x => sameKey x m) then some (scInvalidField, 0)
  else if ranged (capOpc m.capsule) && 2 ^ 20 < capLen m.capsule && capOpc m.capsule != 0x08 then some (scTooLarge, 0)
  else if sum ≤ 268435456 && 268435456 < sum + vals m then some (scTooLarge, 0)
  else none

/-- Members with the outcomes their group gives them. -/
def judgeGroup (ms : List Member) : List Member :=
  ms.mapIdx (fun i m => if m.verdict.isNone then { m with verdict := groupVerdict ms i m } else m)

/-- A member's hooks have let it go (R519). -/
def hooksDone (d : Dev) (t : Task) (m : Member) : Bool :=
  (t.kind != .host && t.kind != .act) || hookGate d (capKsid m.capsule) m.hook == .go

/-- A member may ask for its slot lock: its hooks are done, and earlier members that name its key have asked (R165). -/
def mayAsk (d : Dev) (t : Task) (i : Nat) (m : Member) : Bool :=
  hooksDone d t m && (t.members.take i).all (fun x => x.verdict.isSome || x.asked || !sameKey x m)

/-- A member asks for its slot lock. -/
def askLock (env : Env) (t : Task) (i : Nat) (m : Member) (d : Dev) : Dev :=
  let r := requestLock env (memberTask t i m) (keyHash (BitVec.ofNat 8 (capKsid m.capsule)) m.key) d
  updMember t.eng t.ctx i (fun m => { m with asked := true, job := { m.job with lock := r.1 } }) r.2

/-- A quarantined ADMISSION program turns a member away (R63, R67). -/
def quarantineMember (d : Dev) (t : Task) (m : Member) : Option Verdict :=
  if t.kind != .host && t.kind != .act then none
  else match hookGate d (capKsid m.capsule) m.hook with
    | .reject v => some v
    | _ => none

/-- One member without GROUP goes on as a command of its own (R165). -/
def stepMember (env : Env) (r : TaskRef) (ins : List MemberIn) (i : Nat) (d : Dev) : Dev :=
  match taskOf d r with
  | none => d
  | some t =>
    match t.members[i]? with
    | none => d
    | some m =>
      if m.group || m.verdict.isSome then d
      else match quarantineMember d t m with
        | some v => endJob env (memberTask t i m) v.1 v.2 false d
        | none =>
          if !m.asked && !mayAsk d t i m then d
          else
            let d1 := if m.asked then d else askLock env t i m d
            match commandOf d1 r (some i) with
            | none => d1
            | some x =>
              let mi := inAt ins i
              if isRead (capOpc m.capsule) || capOpc m.capsule = 0x04 then
                runRead env x (if capOpc m.capsule = 0x04 then hostOnly mi.fetch else mi.fetch) mi.ends d1
              else runWrite env x mi.value d1

/-- Group members in ascending order of key hash, keyspace and key bytes (R166). -/
def groupBefore (a b : Member) : Bool :=
  let ha := (keyHash (BitVec.ofNat 8 (capKsid a.capsule)) a.key).toNat
  let hb := (keyHash (BitVec.ofNat 8 (capKsid b.capsule)) b.key).toNat
  ha < hb || (ha == hb && (capKsid a.capsule < capKsid b.capsule ||
    (capKsid a.capsule == capKsid b.capsule && beNat a.key < beNat b.key)))

/-- A numbered member put in its place in that order. -/
def insertGroup (x : Nat × Member) : List (Nat × Member) → List (Nat × Member)
  | [] => [x]
  | y :: t => if groupBefore x.2 y.2 then x :: y :: t else y :: insertGroup x t

/-- The members of the group, numbered, in the order in which they lock. -/
def groupOrder (ms : List Member) : List (Nat × Member) :=
  (((ms.zipIdx).filter (fun x => x.1.group)).map (fun x => (x.2, x.1))).foldr insertGroup []

/-- A member still waits for its lock. -/
def Member.waits (m : Member) : Bool := match m.job.lock with | .waiting _ => true | _ => false

/-- The group's next lock: the first member in its order that has not asked, once those before it hold theirs. -/
def groupNext (d : Dev) (t : Task) : List (Nat × Member) → Option (Nat × Member)
  | [] => none
  | x :: xs =>
    if x.2.verdict.isSome then groupNext d t xs
    else if !x.2.asked then (if mayAsk d t x.1 x.2 then some x else none)
    else if x.2.waits then none else groupNext d t xs

/-- Ask for the group's locks one after another, as far as they are granted at once (R166). -/
def lockGroup (env : Env) (r : TaskRef) : Nat → Dev → Dev
  | 0, d => d
  | n + 1, d =>
    match taskOf d r with
    | none => d
    | some t =>
      match groupNext d t (groupOrder t.members) with
      | none => d
      | some (i, m) => lockGroup env r n (askLock env t i m d)

/-- Every member of the group that can still take effect has its lock, or stands on an absent key. -/
def groupLocked (ms : List Member) : Bool := ms.all (fun m => !m.group || m.verdict.isSome || (m.asked && !m.waits))

/-- The slot a member stands on. -/
def Member.slot (m : Member) : Lk := match m.job.lock with | .held n => .slot n | _ => .absent

/-- The conditions of one member of the group, with the space those before it take (R166, R171, R173). -/
def groupCond (env : Env) (grown : Nat) (m : Member) (d : Dev) : Option Verdict × Dev :=
  let c := m.capsule
  let cur := currentOf d m.slot
  if capOpc c = 0x04 then (if cur.isNone then (some (scNotFound, 0), d) else (none, d))
  else if wornStops d c then (some (scMediaWorn, 0), d)
  else match writeConds c cur with
    | some v => (some v, d)
    | none =>
      if capOpc c = 0x08 && 2 ^ 20 < (writeRange c cur).2 then (some (scTooLarge, 0), d)
      else match m.job.lock with
        | .held _ => if spaceFor d (grown + growth c cur) then (none, d) else (some (scFull, 0), d)
        | _ =>
          let k := BitVec.ofNat 8 (capKsid c)
          (some (scFull, 0), if dirFull d then loadLimit env k d else probeLimit env k (keyHash k m.key) d)

/-- Judge the members of the group in array order; answers the outcomes of those that fail. -/
def judgeConds (env : Env) (t : Task) : List (Member × Nat) → Nat → Dev → List (Nat × Verdict) × Dev
  | [], _, d => ([], d)
  | (m, i) :: ms, grown, d =>
    if !m.group then judgeConds env t ms grown d
    else match m.verdict with
      | some v => let r := judgeConds env t ms grown d; ((i, v) :: r.1, r.2)
      | none =>
        let a := groupCond env grown m d
        match a.1 with
        | some v => let r := judgeConds env t ms grown a.2; ((i, v) :: r.1, r.2)
        | none => judgeConds env t ms (grown + growth m.capsule (currentOf d m.slot)) a.2

/-- The group fails: the members that failed carry their own outcomes, the others SC_ABORTED_HOST, and none takes effect
(R166). -/
def failGroup (env : Env) (r : TaskRef) (vs : List (Nat × Verdict)) (d : Dev) : Dev :=
  match taskOf d r with
  | none => d
  | some t =>
    (t.members.zipIdx).foldl (fun d x =>
      if !x.1.group || x.1.verdict.isSome then d
      else
        let v := match vs.find? (fun y => y.1 == x.2) with | some y => y.2 | none => (scAbortedHost, 0)
        let m := memberTask t x.2 x.1
        dropPortions x.1.job.heldIds (endJob env m v.1 v.2 false d)) d

/-- The data of the group's writes, or the first failed access to it; nothing yet while one waits. Of EXIST the access to its
buffer counts (R122, R166). -/
inductive GroupData where
  | data (bs : List (Nat × List Byte))
  | fail (i : Nat) (code : Byte)
  | wait
  deriving DecidableEq, Repr

/-- Fetch the data of some members. -/
def groupData (t : Task) (ins : List MemberIn) (d : Dev) : List (Member × Nat) → GroupData
  | [] => .data []
  | (m, i) :: ms =>
    if !m.group || m.verdict.isSome then groupData t ins d ms
    else
      let mi := inAt ins i
      let got : Got :=
        if capOpc m.capsule = 0x04 then
          (if capLen m.capsule = 0 || t.kind == .act then .data []
           else hostRead d (match mi.fetch with | .hostFail e => .fail e | _ => .ok []))
        else fetchData d (memberTask t i m) (inboundLen m.capsule) mi.value
      match got with
      | .wait => .wait
      | .fail code => .fail i code
      | .data bs => (match groupData t ins d ms with | .data r => .data ((i, bs) :: r) | g => g)

/-- The members of the group are accepted together: each reserves its space (R166, R169, R172). -/
def acceptGroup (env : Env) (r : TaskRef) (d : Dev) : Dev :=
  match taskOf d r with
  | none => d
  | some t =>
    (t.members.zipIdx).foldl (fun d x =>
      match x.1.job.lock with
      | .held n =>
        if !x.1.group || x.1.verdict.isSome then d
        else if capOpc x.1.capsule = 0x04 then
          updMember t.eng t.ctx x.2 (fun m => { m with job := { m.job with phase := .accepted false } }) d
        else (acceptJob env (memberTask t x.2 x.1) n d).2
      | _ => d) d

/-- Bytes a member brings into protected felt. -/
def memberNeed (d : Dev) (t : Task) (i : Nat) (m : Member) : Nat :=
  if capOpc m.capsule = 0x04 then 0 else pieceNeed (memberTask t i m) d

/-- Bytes the group brings into protected felt. -/
def groupNeed (d : Dev) (t : Task) : Nat :=
  (((t.members.zipIdx).filter (fun x => x.1.group && x.1.verdict.isNone)).map (fun x => memberNeed d t x.2 x.1)).foldl (· + ·) 0

/-- The group passes through protected felt in portions: a member is streamed, or the limit could never hold it all at once
(R22, R162, R516). -/
def groupThrough (env : Env) (d : Dev) (t : Task) : Bool :=
  t.members.any (fun m => m.group && m.job.phase == .accepted true) || admitLimit env d < groupNeed d t

/-- The group's data is in felt: its members go on, streamed or not. -/
def takeGroup (r : TaskRef) (through : Bool) (bs : List (Nat × List Byte)) (d : Dev) : Dev :=
  match taskOf d r with
  | none => d
  | some t =>
    bs.foldl (fun d x => updMember t.eng t.ctx x.1 (fun m =>
      if capOpc m.capsule = 0x04 then { m with job := { m.job with phase := .pieces 0 } }
      else { m with job := { m.job with data := x.2, durable := m.job.durable || through,
                                        phase := if through && !removes m.capsule then .stream 0 else .pieces 0 } }) d)
      (copied t (bs.map (fun x => x.2.length)).sum d)

/-- Every portion of the group's streamed writes is on media. -/
def groupStreamed (d : Dev) (t : Task) : Bool :=
  t.members.all (fun m => !m.group || m.verdict.isSome || (match m.job.phase with
    | .stream a => decide (m.job.len ≤ a) && portionsDone d m.job.heldIds
    | _ => true))

/-- A keyspace in which the group's commits would pass the durable mark, with their number (R234). -/
def groupMark (d : Dev) (t : Task) : Option (Nat × Nat) :=
  let ks := (t.members.filter (fun m => m.group && m.verdict.isNone && capOpc m.capsule != 0x04)).map (fun m => capKsid m.capsule)
  (ks.find? (fun k => !runAllowed d k (ks.filter (· == k)).length)).map (fun k => (k, (ks.filter (· == k)).length))

/-- Commit one member of the group: its write with its own version, or EXIST's record (R145, R166). `tie` is the first held
entry of the group. -/
def commitMember (env : Env) (tie i : Nat) (m : Member) (t : Task) (d : Dev) : Dev :=
  let x := memberTask t i m
  match m.job.lock with
  | .held n =>
    if capOpc m.capsule = 0x04 then
      match readOut m.capsule (currentOf d (.slot n)) with
      | .out outs result => endJob env x scOk result false (deliverAll env x outs d)
      | .stop v => endJob env x v.1 v.2 false d
    else
      let run := takeRun env (capKsid m.capsule) 1 d
      let streamed := match m.job.phase with | .stream _ => true | _ => false
      let h := commitPiece env x n m.job.objId (m.job.off, m.job.len) 0 run.1 m.job.data streamed run.2
      let j : Job := { m.job with firstVer := run.1, done := 1, total := 1, heldIds := m.job.heldIds ++ [h.1] }
      writeDone env { x with job := j } (putJob { x with job := j } (updHeld h.1 (fun y => { y with group := some tie }) h.2))
  | _ => d

/-- Every member of the group commits at one instant (R166). -/
def commitGroup (env : Env) (r : TaskRef) (d : Dev) : Dev :=
  match taskOf d r with
  | none => d
  | some t =>
    let tie := d.flt.nextHeld
    (t.members.zipIdx).foldl (fun d x =>
      if x.1.group && x.1.verdict.isNone then commitMember env tie x.2 x.1 t d else d) d

/-- The group's writes have committed. -/
def groupCommitted (ms : List Member) : Bool :=
  ms.any (fun m => m.group && (match m.job.phase with | .media _ => true | _ => false))

/-- Members of the committed group end once what they wrote is on media, where they are durable (R23). -/
def settleGroup (env : Env) (r : TaskRef) (d : Dev) : Dev :=
  match taskOf d r with
  | none => d
  | some t => (t.members.zipIdx).foldl (fun d x =>
      if x.1.group && x.1.verdict.isNone then runWrite env (memberTask t x.2 x.1) (.ok []) d else d) d

/-- With the protected limit at 0 the group waits on it no more: its members pass as streamed writes (R458, R516). -/
def streamGroup (r : TaskRef) (d : Dev) : Dev :=
  match taskOf d r with
  | none => d
  | some t => (t.members.zipIdx).foldl (fun d x =>
      if x.1.group && x.1.verdict.isNone && memberNeed d t x.2 x.1 ≠ 0 && x.1.job.phase == .pieces 0 then
        updMember t.eng t.ctx x.2 (fun m => { m with job := { m.job with phase := .stream 0, durable := true } }) d
      else d) d

/-- The accepted group: its data, its admission, and its commit. -/
def runAccepted (env : Env) (r : TaskRef) (t : Task) (ins : List MemberIn) (d : Dev) : Dev :=
  let waiting := t.members.any (fun m => m.group && m.verdict.isNone && (match m.job.phase with | .accepted _ => true | _ => false))
  if waiting then
    match groupData t ins d t.members.zipIdx with
    | .wait => d
    | .fail i code => failGroup env r [(i, (scAbortedHost, 0))] (match t.members[i]? with
        | some m => bufferFail env (memberTask t i m) code d
        | none => d)
    | .data bs => takeGroup r (groupThrough env d t) bs d
  else if !groupStreamed d t || (t.kind != .act && !d.hqe.issues && t.members.any (fun m =>
      m.group && m.verdict.isNone && capOpc m.capsule = 0x04 && capLen m.capsule != 0)) then d
  else match groupMark d t with
    | some (k, n) => ensureMark k n d
    | none =>
      let need := (((t.members.zipIdx).filter (fun x => x.1.group && x.1.verdict.isNone && (match x.1.job.phase with
        | .stream _ => false | _ => true))).map (fun x => memberNeed d t x.2 x.1)).foldl (· + ·) 0
      if need = 0 || roomFor env d need then commitGroup env r d
      else if env.pw.limitMib = 0 then streamGroup r d
      else waitJob env t { t.job with phase := .admission, len := need } (admissionHeld env d)

/-- One execution of the group: its locks, its conditions, and then its data and its commit (R166). -/
def stepGroup (env : Env) (r : TaskRef) (ins : List MemberIn) (d : Dev) : Dev :=
  let d1 := lockGroup env r 65 d
  match taskOf d1 r with
  | none => d1
  | some t =>
    let open_ := t.members.filter (fun m => m.group && m.verdict.isNone)
    if open_.isEmpty || t.job.phase == .admission then d1
    else match open_.find? (fun m => (quarantineMember d1 t m).isSome) with
      | some _ => failGroup env r (((t.members.zipIdx).filterMap (fun x => if x.1.group && x.1.verdict.isNone then
          (quarantineMember d1 t x.1).map (fun v => (x.2, v)) else none))) d1
      | none =>
        if groupCommitted t.members then settleGroup env r d1
        else if !groupLocked t.members then d1
        else if open_.any (fun m => m.job.phase == .start) then
          let j := judgeConds env t t.members.zipIdx 0 d1
          if j.1.isEmpty then
            let d2 := acceptGroup env r j.2
            (match taskOf d2 r with | some t2 => runAccepted env r t2 ins d2 | none => d2)
          else failGroup env r j.1 j.2
        else runAccepted env r t ins d1

/-- The result array (R167). -/
def resultArray (ms : List Member) : List Byte :=
  (ms.zipIdx).flatMap (fun x =>
    let v := x.1.verdict.getD (scInvalidField, 0)
    natLe 8 v.2.toNat ++ natLe 2 x.2 ++ natLe 2 (capCid x.1.capsule) ++ [v.1] ++ natLe 3 0)

/-- STATUS and RESULT of the BATCH (R167). -/
def batchVerdict (ms : List Member) : Verdict :=
  let good := (ms.filter (fun m => m.verdict.map (·.1) == some scOk)).length
  match (ms.zipIdx).find? (fun x => x.1.verdict.map (·.1) != some scOk) with
  | none => (scOk, BitVec.ofNat 64 (good + 0xFF * 2 ^ 32))
  | some x => ((x.1.verdict.getD (scInvalidField, 0)).1, BitVec.ofNat 64 (good + x.2 * 2 ^ 32))

/-- Write the result array and complete the BATCH (R167). -/
def endBatch (env : Env) (t : Task) (f : Fetch) (d : Dev) : Dev :=
  let bs := resultArray t.members
  let v := batchVerdict t.members
  let seg := if t.kind == .loop then sliceSegs (parentSegs d t) (capOff t.capsule) bs.length
    else [(capOff t.capsule, bs.length)]
  let fail (code : Byte) : Dev := endJob env t scAbortedHost 0 false (bufferFail env t code d)
  if t.kind == .act then endJob env t v.1 v.2 false (deliverOut env t 0 bs d)
  else if !d.hqe.issues then (if d.hqe.bmeHold.isSome || d.hqe.busMaster then d else fail 0x12)
  else match f with
    | .hostFail e => fail (errCode e)
    | _ => endJob env t v.1 v.2 false (copied t bs.length (hostWrite seg 0 bs d))

/-- One execution of a BATCH whose array has been read: its members go on, the group with the first of its members, and it
completes when all have ended (R165, R167). -/
def runBatch (env : Env) (r : TaskRef) (ins : List MemberIn) (f : Fetch) (d : Dev) : Dev :=
  let n := match taskOf d r with | some t => t.members.length | none => 0
  let d1 := (List.range n).foldl (fun d i => stepMember env r ins i d) d
  let d2 := stepGroup env r ins d1
  let d3 := (List.range n).foldl (fun d i => stepMember env r ins i d) d2
  match taskOf d3 r with
  | none => d3
  | some t =>
    if t.members.all (fun m => m.verdict.isSome) then endBatch env t f d3
    else waitJob env t t.job d3

/-- BATCH (R164–R167): its members' operands are given in array order; a failed read of the array ends it. -/
def execBatch (t : TaskRef) (members : Rd) (ins : List MemberIn) (f : Fetch) (s : State) :
    Host.Outcome State Fault Refusal :=
  serve t 0x0E (fun env t d =>
    if !t.members.isEmpty then runBatch env t.ref ins f d
    else match fetchData d t (64 * capOpts t.capsule) members with
      | .wait => waitJob env t t.job d
      | .fail code => endJob env t scAbortedHost 0 false (bufferFail env t code d)
      | .data bs =>
        let ms := membersOf env t bs ins (capOpts t.capsule) 0 (copied t bs.length d)
        runBatch env t.ref ins f (putTask { t with members := judgeGroup ms.1 } ms.2)) s

end Sys2Proof.Machine
end

