-- ==== Sys2Proof/Machine/Post.lean ====
section
/-! DEFINITION. POST (03, R87, R88): the units a task may post to, the capture of the descriptor and the checks each
unit makes of it at POST. -/

namespace Sys2Proof.Machine

/-- Descriptor kinds each unit assigns; units 8–15 are reserved (R87). -/
def pfKinds (unit : Nat) : Nat :=
  match unit with
  | 0 => 1
  | 1 => 4
  | 2 => 6
  | 3 => 4
  | 4 => 7
  | 5 => 2
  | 6 => 3
  | 7 => 2
  | _ => 0

/-- Kinds open to user tasks (R60). -/
def userMay (unit pf : Nat) : Bool :=
  match unit with
  | 0 | 1 | 7 => true
  | 4 | 6 => pf == 0
  | _ => false

/-- A range named by a Shuan address that a task may access; an empty range names nothing. -/
def ptrOk (d : Dev) (t : Task) (acc : Acc) (a n : Nat) : Bool :=
  n == 0 || rangeOk d t acc (a / 2 ^ 60) (a % 2 ^ 60) n

/-! ### COUCH (R315–R322) -/

/-- A signed 32-bit field. -/
def signed32 (n : Nat) : Int := if n < 2 ^ 31 then n else (n : Int) - 2 ^ 32

/-- One side of a transfer (R320). -/
structure Side where
  space : Nat
  addr : Nat
  line : Nat
  count : Nat
  stride : Int

/-- The offset an address field holds: for spaces 0–3 a plain offset or a Shuan address of the same space (R317). -/
def sideOff (space addr : Nat) : Option Nat :=
  if 4 ≤ space then some addr
  else if addr / 2 ^ 60 = 0 || addr / 2 ^ 60 = space then some (addr % 2 ^ 60) else none

/-- FILL of a descriptor. -/
def cdFill (c : V512) : Bool := bitOf c 2

/-- Source and destination sides of a descriptor (R315). -/
def srcSide (c : V512) : Side := ⟨cap c 2 1, cap c 8 8, cap c 24 4, cap c 28 4, signed32 (cap c 32 4)⟩
def dstSide (c : V512) : Side := ⟨cap c 3 1, cap c 16 8, cap c 36 4, cap c 40 4, signed32 (cap c 44 4)⟩

/-- Bytes the descriptor moves. -/
def cdTotal (c : V512) : Nat := (dstSide c).line * (dstSide c).count

/-- Address of stream position i on a side (R320). -/
def Side.at (s : Side) (i : Nat) : Int :=
  ((sideOff s.space s.addr).getD 0 : Int) + ((i / s.line : Nat) : Int) * s.stride + ((i % s.line : Nat) : Int)

/-- Lowest address of a side's span, and one past its highest (R321). -/
def Side.lo (s : Side) : Int := min (s.at 0) (s.at ((s.count - 1) * s.line))
def Side.hi (s : Side) : Int := max (s.at 0) (s.at ((s.count - 1) * s.line)) + s.line

/-- A host space: HM or HV. -/
def hostSpace (space : Nat) : Bool := space == 4 || space == 5

/-- The task has a value buffer HV names (R318). -/
def hasHv (t : Task) : Bool := t.kind == .host || t.kind == .loop

/-- A side's line length, count and total lie within R320. -/
def Side.shapeOk (s : Side) : Bool :=
  1 ≤ s.line && s.line ≤ 2 ^ 31 && 1 ≤ s.count && s.count ≤ 2 ^ 24 && s.line * s.count ≤ 2 ^ 31

/-- A side's space and whole span are the task's to read or write (R316, R321, R322). -/
def Side.ok (d : Dev) (t : Task) (dst : Bool) (s : Side) : Bool :=
  s.shapeOk && (sideOff s.space s.addr).isSome && decide (0 ≤ s.lo) &&
  (match s.space with
    | 0 | 1 | 2 => rangeOk d t (if dst then .store else .load) s.space s.lo.toNat (s.hi - s.lo).toNat
    | 3 => dst && t.vendor && decide (s.hi ≤ 0x2000000)
    | 4 => t.vendor && decide (s.hi ≤ 2 ^ 64)
    | 5 => hasHv t && decide (s.hi ≤ (segsLen t.sgl : Int))
    | _ => false) &&
  !(dst && hostSpace s.space && 1 < s.count && decide (s.stride.natAbs < s.line))

/-- A couch descriptor passes its checks (R322). -/
def couchOk (d : Dev) (t : Task) (c : V512) : Bool :=
  let s := srcSide c
  let ds := dstSide c
  let next := cap c 48 8
  let wb := cap c 56 8
  fld c 3 5 == 0 && fld c 11 5 == 0 && ds.ok d t true &&
  (if cdFill c then s.space == 0 && zero c 24 12
   else s.ok d t false && s.line * s.count == ds.line * ds.count && !(hostSpace s.space && hostSpace ds.space)) &&
  (if bitOf c 1 then wb % 16 == 0 && ptrOk d t .store wb 16 else wb == 0) &&
  (next == 0 || (next % 64 == 0 && ptrOk d t .load next 64))

/-- The rights a task holds (R42, R383). -/
def rightsOf (d : Dev) (t : Task) : Rights := ⟨regionsOf d t, d.ccl.sealed⟩

/-- A linked descriptor lies where the task might read when it posted, and passes its checks with the rights it then held (R322,
R323). -/
def linkOk (d : Dev) (t : Task) (r : Rights) (a : Word) (c : V512) : Bool :=
  let d1 := { d with ccl := { d.ccl with sealed := r.sealed } }
  let t1 := { t with regions := r.regions }
  (accessFault d1 t1 .load a 64 64).isNone && couchOk d1 t1 c

/-! ### CAL (R186, R201) -/

/-- What a coded piece decodes to has room at DST, where the model has a record of the piece (log 12). -/
def pieceFits (d : Dev) (coded : List Byte) (room : Nat) : Bool :=
  let xs := d.cal.book.filter (fun x => x.1 == coded)
  xs.isEmpty || xs.any (fun x => x.2.length ≤ room)

/-- A calender descriptor passes its checks. R201 gives a coded length no lower limit: one of 0 is a bad descriptor (DESIGN
CHOICE, log 144). -/
def calOk (d : Dev) (t : Task) (pf : Nat) (c : V512) : Bool :=
  let mode := cap c 0 1
  let ptype := cap c 1 1
  let tw := cap c 2 2
  let th := cap c 4 2
  let b := bpp ptype
  let src := cap c 8 8
  let srcLen := cap c 16 4
  let dstCap := cap c 28 4
  let dst := cap c 32 8
  let pitch := cap c 40 4
  let tile := 1 ≤ tw && tw ≤ 1024 && 1 ≤ th && th ≤ 1024 && modeOk ptype mode (cap c 20 4) (cap c 24 4)
  let raw := tw * th * b
  let inPitch := if srcLen = 0 then tw * b else srcLen
  let outPitch := if pitch = 0 then tw * b else pitch
  zero c 44 20 &&
  match pf with
  | 0 => tile && fld c 49 15 == 0 && pitch == 0 && raw ≤ dstCap &&
      ptrOk d t .load src ((th - 1) * inPitch + tw * b) && ptrOk d t .store dst dstCap
  | 1 => tile && fld c 48 16 == 0 && raw ≤ dstCap && 1 ≤ srcLen &&
      ptrOk d t .load src srcLen && ptrOk d t .store dst ((th - 1) * outPitch + tw * b)
  | 2 => zero c 0 2 && zero c 2 6 && zero c 20 8 && pitch == 0 && 1 ≤ srcLen && srcLen ≤ 65536 && srcLen ≤ dstCap &&
      ptrOk d t .load src srcLen && ptrOk d t .store dst dstCap
  | _ => zero c 0 2 && zero c 2 6 && zero c 20 8 && pitch == 0 && 1 ≤ srcLen && 1 ≤ dstCap &&
      ptrOk d t .load src srcLen && ptrOk d t .store dst dstCap && pieceFits d (readSpace d t (src / 2 ^ 60) (src % 2 ^ 60) srcLen) dstCap

/-! ### CIPHER (R376, R380–R383) -/

/-- A sealed slot a SEAL output may name: free and named by no other task's post, or SEALED and the task's own (R383). -/
def sealTarget (d : Dev) (t : Task) (n : Nat) : Bool :=
  n < 128 && (match tblGet d.ccl.sealed n with
    | none => !d.mea.tasks.any (fun x => x.owner != t.owner && x.posts.any (fun p =>
        p.unit == 2 && p.pf.toNat ≤ 1 && p.st == .captured && bitOf p.desc 16 && cap p.desc 24 8 == n))
    | some x => !x.released && x.owner == t.owner)

/-- An alarm has zeroed a sealed slot of the task's (R381). -/
def alarmedSeal (d : Dev) (t : Task) (n : Nat) : Bool := d.ccl.alarmSealed.any (fun x => x.1 == n && x.2 == t.owner)

/-- The task owns a sealed slot, or owned it until an alarm zeroed it. -/
def ownsSealed (d : Dev) (t : Task) (n : Nat) : Bool :=
  n < 128 && (match tblGet d.ccl.sealed n with | some x => x.owner == t.owner | none => alarmedSeal d t n)

/-- A cipher descriptor passes its checks. -/
def cipherOk (d : Dev) (t : Task) (pf : Nat) (c : V512) : Bool :=
  let key := cap c 0 2
  let sealing := bitOf c 16
  let xor := bitOf c 17
  let len := cap c 4 4
  let src := cap c 8 8
  let dst := cap c 24 8
  key ≤ 1023 && fld c 18 14 == 0 && (xor || zero c 16 8) &&
  match pf with
  | 0 | 1 => 16 ≤ len && len ≤ (if sealing then 65536 else 2 ^ 24) && len % 16 == 0 && ptrOk d t .load src len &&
      (!xor || ptrOk d t .load (cap c 16 8) len) && (if sealing then sealTarget d t dst else ptrOk d t .store dst len) &&
      zero c 48 16
  | 2 => len == 0 && ptrOk d t .load src 32 && cap c 32 1 ≤ 1 && zero c 33 31
  | 3 => len == 0 && ptrOk d t .load src 16 && ownsSealed d t dst
  | 4 => len == 0 && zero c 48 16
  | _ => len == 0 && zero c 48 16 && ownsSealed d t dst

/-! ### MEDIA (R207, R227, R228) -/

/-- BUF lies in FE or DR, aligned to 4,096. -/
def bufOk (d : Dev) (t : Task) (acc : Acc) (a n : Nat) : Bool :=
  (a / 2 ^ 60 == 1 || a / 2 ^ 60 == 2) && a % 4096 == 0 && ptrOk d t acc a n

/-- A media descriptor passes its checks. -/
def mediaOk (d : Dev) (t : Task) (pf : Nat) (c : V512) : Bool :=
  let n := cap c 2 2
  let psa := cap c 8 8
  let tags := cap c 24 8
  zero c 40 24 && fld c 10 6 == 0 && (if pf = 1 then cap c 0 1 ≤ 6 else zero c 0 1) &&
  (if pf = 3 then cap c 4 4 ≤ 15 else zero c 4 4) &&
  match pf with
  | 0 => 1 ≤ n && n ≤ 4096 && psaOk d psa && bufOk d t .store (cap c 16 8) (4096 * n) &&
      (tags == 0 || ptrOk d t .store tags (16 * n))
  | 1 => 1 ≤ n && n ≤ 4096 && bufOk d t .load (cap c 16 8) (4096 * n) && ptrOk d t .load tags (16 * n) &&
      ptrOk d t .store (cap c 32 8) (8 * n)
  | 2 => n == 0 && psaOk d psa
  | _ => 1 ≤ n && n ≤ 4096 && psaOk d psa && bufOk d t .store (cap c 16 8) (4096 * n)

/-! ### DIR (R225, R226) -/

/-- The task holds the lock of a slot (R224). -/
def holdsSlot (d : Dev) (t : Task) (n : Nat) : Bool :=
  match slotAt d n with | some s => s.lock == some t.owner | none => false

/-- A directory descriptor passes its checks: fields other kinds use are RES0. -/
def dirOk (d : Dev) (t : Task) (pf : Nat) (c : V512) : Bool :=
  let klen := cap c 1 1
  let given := bitOf c 16
  let count := cap c 4 4
  let keyed := pf == 0 || pf == 1 || pf == 6
  let slotted := pf == 2 || pf == 3 || pf == 4
  let out := cap c 56 8
  zero c 45 11 && fld c 17 15 == 0 &&
  (if keyed then 1 ≤ klen && ptrOk d t .load (cap c 8 8) klen else klen == 0 && zero c 8 8) &&
  (keyed || pf == 5 || zero c 0 1) &&
  (if pf == 0 || pf == 1 then given || zero c 16 8 else !given && (pf == 6 || zero c 16 8)) &&
  (if pf = 1 then true else if pf = 5 then 1 ≤ count && count ≤ 16384 else if pf = 6 then 1 ≤ count && count ≤ 4096
   else count == 0) &&
  (if slotted then holdsSlot d t (cap c 24 8) else zero c 24 8) &&
  (if pf = 2 then cap c 44 1 < 16 else zero c 32 13) &&
  (if keyed then out == 0 || ptrOk d t .store out (if pf = 6 then 32 * count else 32) else out == 0)

/-! ### EVR and XPORT (R301, R434) -/

/-- A recorder descriptor passes its checks. -/
def evrOk (pf : Nat) (c : V512) : Bool :=
  if pf = 1 then c == 0
  else fld c 20 4 ≤ 7 && fld c 16 4 ≤ 5 && fld c 24 64 == 0 && fld c 96 32 == 0 && fld c 224 32 == 0

/-- An XPORT descriptor passes its checks; a loopback capsule is checked before its dispatch (R61, R522). -/
def xportOk (d : Dev) (t : Task) (pf : Nat) (c : V512) : Bool :=
  let buf := cap c 0 8
  let len := cap c 16 4
  pf == 0 ||
  (t.kind == .act && zero c 20 44 && 1 ≤ len && len ≤ 2 ^ 24 && (buf / 2 ^ 60 == 1 || buf / 2 ^ 60 == 2) &&
   ptrOk d t (if pf = 1 then .load else .store) buf len)

/-- The unit accepts the descriptor (R88). -/
def descOk (d : Dev) (t : Task) (unit pf : Nat) (c : V512) : Bool :=
  match unit with
  | 0 => couchOk d t c
  | 1 => calOk d t pf c
  | 2 => cipherOk d t pf c
  | 3 => mediaOk d t pf c
  | 4 => dirOk d t pf c
  | 5 => evrOk pf c
  | 6 => xportOk d t pf c
  | _ => true

/-! ### POST -/

/-- The lowest free tag (R49). -/
def freeTag (t : Task) : Option Nat := (List.range 32).find? (fun k => !t.posts.any (fun p => p.tag == k))

/-- The descriptor's bytes as the task reads them. -/
def descAt (d : Dev) (t : Task) (a : Word) (n : Nat) : V512 := bytesV512 (readSpace d t (spaceOf a) (offOf a) n)

/-- A user task's LOOKUP that can be read names a keyspace not granted to its program (R60, R226). -/
def lookupDenied (d : Dev) (t : Task) (unit : BitVec 4) (a : Word) : Bool :=
  unit == 4 && !t.vendor && (accessFault d t .load a 64 64).isNone && !granted d t.program (cap (descAt d t a 64) 0 1)

/-- The outcome of a POST up to its fault, if it meets one: otherwise the captured descriptor, and the drive with what
local store reported of it (R41, R74, R87, R88). -/
def postDesc (env : Env) (d : Dev) (t : Task) (unit : BitVec 4) (pf : BitVec 6) (a : Word) (ecc : LsEcc) :
    Except (Byte × Option Word) (V512 × Dev) :=
  let n := if unit = 5 then 32 else 64
  if !t.vendor && !userMay unit.toNat pf.toNat then .error (fPriv, none)
  else if lookupDenied d t unit a then .error (fPriv, none)
  else if (freeTag t).isNone then .error (fPostfull, none)
  else if unit = 7 then .ok (0, d)
  else match accessFault d t .load a n n with
    | some code => .error (code, some a)
    | none =>
      match lsCheck env t a n ecc d with
      | none => .error (fLsecc, some a)
      | some d' =>
        let c := descAt d' t a n
        if descOk d' t unit.toNat pf.toNat c then .ok (c, d') else .error (fDesc, none)

/-- POST: captures the descriptor and allocates the lowest free tag (R49, R87, R88). -/
def execPost (e : EngLs) (pf : BitVec 6) (unit : BitVec 4) (b a d : BitVec 5) (s : State) :
    Host.Outcome State Fault Refusal :=
  onDev s (fun env dev => shuan e.eng (fun env t dv =>
    let x := t.sreg a
    if b ≠ 0 || pfKinds unit.toNat ≤ pf.toNat then .fault fIllegal none
    else match postDesc env dv t unit pf x e.ls with
      | .error f => .fault f.1 f.2
      | .ok r =>
        let tag := (freeTag t).getD 0
        let p : Post := { tag := tag, unit := unit, pf := pf, desc := r.1, addr := x, tick := env.tick }
        .ok { (t.setS d (BitVec.ofNat 64 tag)).next with posts := t.posts ++ [p] } r.2) env dev)

/-! ### Units taking up posts -/

/-- A captured post of a unit and kind, with its task. -/
def postOf (d : Dev) (p : PostRef) (unit : BitVec 4) (pf : BitVec 6) : Option (Task × Post) :=
  match taskAt d p.eng p.ctx with
  | none => none
  | some t => (t.posts.find? (fun x => x.tag == p.tag && x.unit == unit && x.pf == pf && x.st == .captured)).map
      (fun x => (t, x))

/-- Change an outstanding post. -/
def updPost (p : PostRef) (f : Post → Post) (d : Dev) : Dev :=
  updTask p.eng p.ctx (fun t => { t with posts := t.posts.map (fun x => if x.tag == p.tag then f x else x) }) d

/-- The unit has taken the post up. -/
def workPost (p : PostRef) (d : Dev) : Dev := updPost p (fun x => { x with st := .working }) d

/-- The post completes, charged to the posting task's class (R362). -/
def endPost (p : PostRef) (t : Task) (units : Nat) (status : Byte) (result : Word) (d : Dev) : Dev :=
  finishPost p status result (chargeFor t.wclass t.group units d)

/-- A unit completes a captured post. -/
def unitStep (p : PostRef) (unit : BitVec 4) (pf : BitVec 6) (f : Env → Task → Post → Dev → Dev) (s : State) :
    Host.Outcome State Fault Refusal :=
  onDev s (fun env d => match postOf d p unit pf with | some x => f env x.1 x.2 d | none => d)

/-- Store bytes where a Shuan address points, as a task addresses it. -/
def storeFor (t : Task) (a : Nat) (bs : List Byte) (d : Dev) : Dev :=
  match taskOf d t.ref with
  | none => d
  | some x =>
    let r := writeSpace d x (a / 2 ^ 60) (a % 2 ^ 60) bs
    putTask r.1 r.2

/-- Read bytes where a Shuan address points. -/
def readFor (t : Task) (d : Dev) (a n : Nat) : List Byte := readSpace d t (a / 2 ^ 60) (a % 2 ^ 60) n

end Sys2Proof.Machine
end

