-- ==== Sys2Proof/Machine/Act.lean ====
section
/-! DEFINITION. The chain transport engine (09): messages of flows, their timers, and the vendor posts SEND_DATA and
RECV_DATA. Each message row takes the oldest message delivered to XPT when it is of its kind. -/

namespace Sys2Proof.Machine

/-- A message's header and payload (R285). -/
structure Hdr where
  kind : Nat
  flags : Nat
  dflow : Nat
  sflow : Nat
  seq : W32
  ack : W32
  window : W32
  cid : Nat
  doff : Nat
  payload : List Byte

/-- Read a header. -/
def hdrOf (m : List Byte) : Hdr :=
  { kind := beAt m 1 1, flags := beAt m 2 2, dflow := beAt m 4 2, sflow := beAt m 6 2, seq := w32 (beAt m 8 4),
    ack := w32 (beAt m 12 4), window := w32 (beAt m 16 4), cid := beAt m 22 2, doff := beAt m 24 8, payload := m.drop 32 }

/-- HFLAGS. -/
def Hdr.ackValid (h : Hdr) : Bool := h.flags % 2 == 1
def Hdr.nak (h : Hdr) : Bool := h.flags / 4 % 2 == 1

/-- Take the oldest message when it is of a kind. -/
def onMsg (kind : Nat) (f : Env → ActMsg → Hdr → Dev → Dev) (s : State) : Host.Outcome State Fault Refusal :=
  onDev s (fun env d =>
    match d.xpt.rx with
    | [] => d
    | m :: rest =>
      let h := hdrOf m.bytes
      if h.kind = kind then f env m h { d with xpt := { d.xpt with rx := rest } } else d)

/-! ### OPEN (R289–R292) -/

/-- "AKV-ACT". -/
def actName : List Byte := [0x41, 0x4B, 0x56, 0x2D, 0x41, 0x43, 0x54]

/-- Rights bits of a token. -/
def tokOwner (t : List Byte) : Bool := leAt t 1 1 / 4 % 2 == 1

/-- The token generation a token is checked against (R290, R399). -/
def tokenGen (d : Dev) (t : List Byte) : W32 := if tokOwner t then d.sec.ownerGen else (ksOf d (leAt t 0 1)).tokenGen

/-- The key of a token (R290, R376). -/
def tokenKey (d : Dev) (t : List Byte) : List Byte :=
  let g := (tokenGen d t).toNat
  if tokOwner t then deriveKey drkBytes (keyLabel 6 0 g 0) else deriveKey drkBytes (keyLabel 5 (leAt t 0 1) g 0)

/-- A token's fields lie in range. -/
def tokFields (t : List Byte) : Bool :=
  leAt t 1 1 < 8 && leAt t 2 2 == 0 && leAt t 14 2 == 0 && (!tokOwner t || leAt t 0 1 == 0)

/-- A token is good: its TAG, its generation, its client. -/
def tokGood (d : Dev) (src : BitVec 48) (t : List Byte) : Bool :=
  slice t 16 16 == (kmac (tokenKey d t) (slice t 0 16) 128 actName).take 16 &&
  leAt t 4 4 == (tokenGen d t).toNat && leAt t 8 6 == src.toNat

/-- The tokens of an OPEN. -/
def openTokens (p : List Byte) : List (List Byte) := (List.range (leAt p 4 1)).map (fun i => slice p (16 + 32 * i) 32)

/-- The fields of an OPEN lie in range (R292). -/
def openFields (h : Hdr) : Bool :=
  let p := h.payload
  16 ≤ p.length && p.length == 16 + 32 * leAt p 4 1 && h.dflow == 0xFFFF && leAt p 0 2 ≤ 4095 && leAt p 2 1 ≤ 7 &&
  leAt p 3 1 ≤ 1 && leAt p 4 1 ≤ 8 && leAt p 5 11 == 0 && (openTokens p).all tokFields

/-- The first free flow id. -/
def freeFlowId (d : Dev) : Option Nat :=
  if 4096 ≤ d.xpt.flows.length then none else (List.range 4096).find? (fun i => (flowOf d i).isNone)

/-- STATUS of an OPEN (R292) and the token that failed. A flow needs a reassembly buffer for its life (R296). -/
def openStatus (d : Dev) (src : BitVec 48) (h : Hdr) : Byte × Option (List Byte) :=
  let toks := openTokens h.payload
  if !openFields h then (scInvalidField, none)
  else match toks.find? (fun t => !tokGood d src t) with
    | some t => (scAuthFail, some t)
    | none =>
      if leAt h.payload 3 1 = 1 && !toks.any tokOwner then (scPrivilege, none)
      else if (freeFlowId d).isNone || d.xpt.freeBuf = 0 then (scChainDown, none)
      else (scOk, none)

/-- Send an OPEN_ACK. -/
def sendOpenAck (env : Env) (port pcp : Nat) (client : BitVec 48) (hdr : List Byte) (status : Byte) (d : Dev) : Dev :=
  queueFrame env port (ownFrame env d port pcp client (hdr ++ natLe 8 status.toNat)) (xptCount 1 d)

/-- OPEN_ACK of an open flow, out of the port it is bound to (R288, R289). -/
def ackFlow (env : Env) (id : Nat) (d : Dev) : Dev :=
  match flowOf d id with
  | none => d
  | some fl =>
    sendOpenAck env fl.port fl.pcp fl.client
      (actHeader kOpenAck 1 fl.sflow.toNat id fl.txIsn.toNat fl.isn.toNat fl.openWin.toNat 8 0 0) scOk d

/-- Rights per keyspace the tokens give. -/
def tokenRights (toks : List (List Byte)) (bit : Nat) : BitVec 256 :=
  toks.foldl (fun r t => if !tokOwner t && leAt t 1 1 / bit % 2 = 1 then r ||| BitVec.ofNat 256 (2 ^ leAt t 0 1) else r) 0

/-- Initial credit: FLOW_CREDIT from the free buffers; one message while credit is withheld (R296, R306). -/
def openCredit (d : Dev) (group : Nat) : Nat :=
  if d.xpt.creditHeld || throttledGroup d group then 1 else min (xptCredit d) d.xpt.freeBuf

/-- Open a flow; the drive's ISN is left open. -/
def openFlow (env : Env) (m : ActMsg) (h : Hdr) (d : Dev) : Dev :=
  match freeFlowId d with
  | none => d
  | some id =>
    let f := takeFree d
    let toks := openTokens h.payload
    let isn : W32 := f.1.setWidth 32
    let group := leAt h.payload 0 2
    let n := openCredit f.2 group
    let fl : Flow :=
      { client := m.src, sflow := BitVec.ofNat 16 h.sflow, isn := h.seq, port := m.port, pcp := leAt h.payload 2 1,
        group := group, subscribe := leAt h.payload 3 1 == 1, owner := toks.any tokOwner,
        rd := tokenRights toks 1, wr := tokenRights toks 2, rxNext := h.seq, rxWin := h.seq + w32 n,
        txNext := isn, txWin := (if h.ackValid then h.window else isn), rto := xptRto f.2, txIsn := isn, openWin := h.seq + w32 n,
        lastRx := env.tick, bufs := n, first := d.mea.nextArrival }
    ackFlow env id { f.2 with xpt := { f.2.xpt with flows := tblSet f.2.xpt.flows id fl, freeBuf := f.2.xpt.freeBuf - n } }

/-- Refuse an OPEN; what its OPEN_ACK carries for a flow that does not exist is left open (R292, R307). -/
def refuseOpen (env : Env) (m : ActMsg) (h : Hdr) (status : Byte) (tok : Option (List Byte)) (d : Dev) : Dev :=
  let f := takeFree d
  let hdr := actHeader kOpenAck 1 h.sflow (fld f.1 0 16) (fld f.1 16 32) h.seq.toNat h.seq.toNat 8 0 0
  let d1 := sendOpenAck env m.port (leAt h.payload 2 1 % 8) m.src hdr status f.2
  match tok with
  | some t =>
    let p0 := if tokOwner t then 0x100 else leAt t 0 1
    event env 0x0304 4 clsSecurity m.port p0 (m.src.toNat % 2 ^ 32) (leAt t 4 4) (setCause env 3 0x0A (xptCount 9 d1))
  | none =>
    event env 0x0306 2 clsProtocol m.port status.toNat h.sflow 0
      (setCause env 3 (if status = scChainDown then 0x12 else 2) d1)

/-- OPEN (R292): an OPEN repeated is answered again; one with another ISN resets the old flow first. -/
def execActOpen (s : State) : Host.Outcome State Fault Refusal :=
  onMsg kOpen (fun env m h d =>
    match d.xpt.flows.find? (fun x => x.2.client == m.src && x.2.sflow.toNat == h.sflow) with
    | some x =>
      if x.2.isn = h.seq then ackFlow env x.1 d
      else
        let d1 := resetFlow env x.1 1 d
        let st := openStatus d1 m.src h
        if st.1 = scOk then openFlow env m h d1 else refuseOpen env m h st.1 st.2 d1
    | none =>
      let st := openStatus d m.src h
      if st.1 = scOk then openFlow env m h d else refuseOpen env m h st.1 st.2 d) s

/-! ### Acknowledgement (R294, R297, R298) -/

/-- The first SEQ of a flow not yet sent. -/
def firstUnsent (fl : Flow) : W32 := match fl.queue with | u :: _ => u.seq | [] => fl.txNext

/-- A flow's timer after its acknowledgement has advanced. -/
def Flow.progress (env : Env) (start : Nat) (ack : W32) (f : Flow) : Flow :=
  let left := f.unacked.filter (fun u => !seqBefore u.seq ack)
  { f with unacked := left, retries := 0, rto := start,
           rtoDue := if left.isEmpty then none else some (env.tick + rtoTicks start) }

/-- Entries of the deferred-error log with running numbers in a range are removed (R397). -/
def consumeErrors (first n : Nat) (d : Dev) : Dev :=
  let h := d.hqe
  let k := min h.deferred.length (first + n - h.defFirst)
  { d with hqe := { h with deferred := h.deferred.drop k, defFirst := h.defFirst + k } }

/-- CONSUME reads whose RESP is acknowledged take effect (R397). -/
def settleConsume (id : Nat) (ack : W32) (d : Dev) : Dev :=
  match flowOf d id with
  | none => d
  | some fl =>
    let done := fl.consume.filter (fun x => seqBefore x.1 ack)
    let d1 := updFlow id (fun f => { f with consume := f.consume.filter (fun x => !seqBefore x.1 ack) }) d
    done.foldl (fun d x => consumeErrors x.2.1 x.2.2 d) d1

/-- Send unacknowledged messages of a flow again. -/
def resend (env : Env) (id : Nat) : List Unacked → Dev → Dev
  | [], d => d
  | u :: us, d =>
    match flowOf d id with
    | none => d
    | some fl =>
      resend env id us (ackSent id (sendOnFlow env id fl u.kind.toNat u.seq.toNat u.cid.toNat u.doff.toNat u.last false
        u.payload (xptCount 2 d)))

/-- ACK and WINDOW of a message on an open flow. An acknowledgement that falls due with an expiry of the timer has lost
to it: it is counted and dropped (R298). -/
def takeAck (env : Env) (id : Nat) (fl : Flow) (h : Hdr) (d : Dev) : Dev :=
  let advances := fl.unacked.any (fun u => seqBefore u.seq h.ack)
  if advances && fl.rtoFired = some env.tick then xptCount 6 d
  else
    let win (f : Flow) : Flow := if seqBefore f.txWin h.window then { f with txWin := h.window } else f
    let d1 := updFlow id (fun f => win (if advances then f.progress env (xptRto d) h.ack else f)) d
    let d2 := if advances then chainAcked env (settleConsume id h.ack d1) else d1
    let d3 := match flowOf d2 id with
      | some f => if h.nak then resend env id (f.unacked.filter (fun u => !seqBefore u.seq h.ack)) d2 else d2
      | none => d2
    pump env id d3

/-- A message for a flow that is not open, or not this one's: a RESET with reason 2, unless it is itself a RESET; the PCP
of that RESET and its SEQ, ACK and WINDOW are left open (R307; log 4). -/
def noFlow (env : Env) (m : ActMsg) (h : Hdr) (d : Dev) : Dev :=
  let d1 := xptFault env 8 0x0302 2 m.port h.dflow h.sflow (m.src.toNat % 2 ^ 32) d
  if h.kind = kReset then d1
  else
    let f := takeFree d1
    let g := takeFree f.2
    let msg := actHeader kReset 0 h.sflow h.dflow (fld g.1 0 32) (fld g.1 32 32) (fld f.1 32 32) 8 0 0 ++ natLe 8 2
    queueFrame env m.port (ownFrame env g.2 m.port (f.1.toNat % 8) m.src msg) (xptCount 1 g.2)

/-- A sequenced message of the client has arrived: the flow is bound to its port before anything is sent (R287, R288). -/
def bindPort (m : ActMsg) (h : Hdr) (d : Dev) : Dev :=
  if h.kind = kClose ∨ h.kind = kCmd ∨ h.kind = kData then updFlow h.dflow (fun f => { f with port := m.port }) d else d

/-- A message of an open flow: its acknowledgement is taken, then the rest; one that acknowledges a SEQ not yet sent is
discarded whole (R307). -/
def onFlow (env : Env) (m : ActMsg) (h : Hdr) (k : Nat → Flow → Dev → Dev) (d : Dev) : Dev :=
  match flowOf d h.dflow with
  | none => noFlow env m h d
  | some fl =>
    if fl.client ≠ m.src || fl.sflow.toNat ≠ h.sflow then noFlow env m h d
    else
      let d1 := updFlow h.dflow (fun f => { f with lastRx := env.tick }) d
      if !h.ackValid then k h.dflow fl (bindPort m h d1)
      else if seqBefore (firstUnsent fl) h.ack then xptFault env 7 0x0307 2 m.port h.dflow h.ack.toNat 0 d1
      else
        let d2 := takeAck env h.dflow fl h (bindPort m h d1)
        match flowOf d2 h.dflow with
        | some fl2 => k h.dflow fl2 d2
        | none => d2

/-- A message accepted in sequence: acknowledged at the eighth at the latest (R295, R297). -/
def acceptSeq (env : Env) (id : Nat) (d : Dev) : Dev :=
  let d1 := updFlow id (fun f => { f with
    rxNext := f.rxNext + 1, nakFor := none, ackPend := f.ackPend + 1,
    ackSince := some (f.ackSince.getD env.tick) }) d
  match flowOf d1 id with
  | some f => if 8 ≤ f.ackPend then bareAck env id false d1 else d1
  | none => d1

/-- The SEQ checks of R295 and R307: only the next expected message is accepted. -/
def inSequence (env : Env) (m : ActMsg) (h : Hdr) (id : Nat) (fl : Flow) (k : Dev → Dev) (d : Dev) : Dev :=
  if !seqBefore h.seq fl.rxWin then
    setCause env 3 4 (xptFault env 5 0x0303 3 m.port id h.seq.toNat fl.rxWin.toNat d)
  else if h.seq = fl.rxNext then k d
  else if seqBefore h.seq fl.rxNext then bareAck env id false (setCause env 3 2 (xptCount 3 d))
  else
    let d1 := setCause env 3 2 (xptCount 4 d)
    if fl.nakFor = some fl.rxNext then d1
    else bareAck env id true (updFlow id (fun f => { f with nakFor := some f.rxNext }) d1)

/-- A violation of R299: the flow is reset with reason 5 (R307). -/
def streamError (env : Env) (m : ActMsg) (h : Hdr) (id : Nat) (d : Dev) : Dev :=
  resetFlow env id 5 (xptFault env 7 0x0308 3 m.port id h.cid (h.doff % 2 ^ 32) d)

/-! ### Commands and their data (R299, R300) -/

/-- Inbound data of a command behind its key bytes. -/
def streamData (c : V512) : Nat :=
  match capOpc c with
  | 0x01 | 0x05 | 0x07 | 0x0C | 0x0E | 0x45 | 0x49 => capLen c
  | 0x09 => if bitOf c 48 then 0 else capLen c
  | 0x4D => if capOpts c = 0 then capLen c else 0
  | 0x4F | 0x52 => capLen c
  | _ => 0

/-- A message's buffer is consumed at once and its credit given again. -/
def consumeOne (id group : Nat) (d : Dev) : Dev := grantCredit id (throttledGroup d group) (consume id 1 d)

/-- A command of a flow: one that passes the checks of R173 joins the arrivals, one that does not completes when its
stream is in, an invalid capsule being an input of R307 that is answered. -/
def takeCmd (env : Env) (m : ActMsg) (h : Hdr) (id : Nat) (fl : Flow) (d : Dev) : Dev :=
  let c := bytesV512 (slice h.payload 0 64)
  let body := h.payload.drop 64
  let need := streamKey c + streamData c
  if fl.stream.isSome || h.payload.length < 64 || h.doff ≠ 0 || need < body.length then streamError env m h id d
  else
    let d1 := acceptSeq env id d
    let st : Stream :=
      { cid := BitVec.ofNat 16 h.cid, need := need, have_ := body.length, since := env.tick, arr := none }
    match checkEntry d1 { kind := .act, id := id } c with
    | some v =>
      let bad := [scInvalidOpcode, scInvalidField, scTooLarge].contains v.1
      let d2 := consumeOne id fl.group (if bad then setCause env 3 2 d1 else d1)
      if body.length = need then sendResp env id none h.cid v.1 v.2 false d2
      else updFlow id (fun f => { f with stream := some { st with verdict := v } }) d2
    | none =>
      let no := d1.mea.nextArrival
      let key := if needsKey d1 c then body.take (capKlen c) else inlineKey c
      let d2 := joinArrival
        { no := 0, kind := .act, capsule := c, source := BitVec.ofNat 16 id, group := BitVec.ofNat 16 fl.group,
          prio := capPrio c, tick := env.tick, key := key, hostGen := d1.hqe.hostGen, ordered := capOrdered c,
          opSrc := BitVec.ofNat 16 id, opFlow := true } d1
      updFlow id (fun f => { f with
        inbound := f.inbound ++ [{ no := no, held := [[(0, body.length)]], bytes := body }],
        stream := if body.length = need then none else some { st with arr := some no } }) d2

/-- CMD (R299). -/
def execActCmd (s : State) : Host.Outcome State Fault Refusal :=
  onMsg kCmd (fun env m h d =>
    onFlow env m h (fun id fl d => inSequence env m h id fl (fun d =>
      if fl.closing then xptFault env 7 0x0308 3 m.port id h.cid (h.doff % 2 ^ 32) d
      else takeCmd env m h id fl d) d) d) s

/-- Further bytes of a command that is waiting or being served. -/
def appendData (id no : Nat) (bs : List Byte) (d : Dev) : Dev :=
  let add (y : Inbound) : Inbound :=
    { y with held := y.held ++ [[(y.bytes.length, y.bytes.length + bs.length)]], bytes := y.bytes ++ bs }
  let d1 := updInbound id no add d
  match inboundOf d1 id no with
  | none => d1
  | some x =>
    let key (a : Arrival) : Arrival := if needsKey d1 a.capsule then { a with key := x.bytes.take (capKlen a.capsule) } else a
    updArrival no key d1

/-- Bytes of the stream of a command: kept for it, or dropped when it has its verdict already. -/
def takeData (env : Env) (h : Hdr) (id : Nat) (fl : Flow) (st : Stream) (d : Dev) : Dev :=
  let d1 := acceptSeq env id d
  let n := st.have_ + h.payload.length
  let last := n = st.need
  let d2 := updFlow id (fun f => { f with stream := if last then none else some { st with have_ := n } }) d1
  match st.arr with
  | none =>
    let d3 := consumeOne id fl.group d2
    if last && !st.ended then sendResp env id none st.cid.toNat st.verdict.1 st.verdict.2 false d3 else d3
  | some no =>
    if (inboundOf d2 id no).isNone then consumeOne id fl.group d2
    else
      let d3 := appendData id no h.payload d2
      match d3.mea.tasks.find? (fun t => t.arrNo == no && t.kind == .act) with
      | some t =>
        releaseInbound id no (stdOpcode (capOpc t.capsule)) (throttledGroup d3 fl.group) d3
      | none => d3

/-- DATA (R299). -/
def execActData (s : State) : Host.Outcome State Fault Refusal :=
  onMsg kData (fun env m h d =>
    onFlow env m h (fun id fl d => inSequence env m h id fl (fun d =>
      match fl.stream with
      | none => streamError env m h id d
      | some st =>
        if st.cid.toNat ≠ h.cid || st.have_ ≠ h.doff || st.need < st.have_ + h.payload.length then streamError env m h id d
        else takeData env h id fl st d) d) d) s

/-- ACK, with or without NAK (R297). -/
def execActAck (s : State) : Host.Outcome State Fault Refusal :=
  onMsg kAck (fun env m h d => onFlow env m h (fun _ _ d => d) d) s

/-- CLOSE: no further CMD is accepted (R293). -/
def execActClose (s : State) : Host.Outcome State Fault Refusal :=
  onMsg kClose (fun env m h d =>
    onFlow env m h (fun id fl d => inSequence env m h id fl (fun d =>
      consumeOne id fl.group (updFlow id (fun f => { f with closing := true }) (acceptSeq env id d))) d) d) s

/-- The command whose stream is coming in has not completed. -/
def Flow.streamOpen (fl : Flow) : Bool :=
  match fl.stream with
  | none => false
  | some st => match st.arr with
    | none => !st.ended
    | some no => fl.inbound.any (fun x => x.no == no)

/-- CLOSE_ACK: every command received has completed and every message of the drive is acknowledged (R293). -/
def execCloseAck (flow : Nat) (s : State) : Host.Outcome State Fault Refusal :=
  onDev s (fun env d =>
    match flowOf d flow with
    | none => d
    | some fl =>
      if !fl.closing || !fl.unacked.isEmpty || !fl.queue.isEmpty || !fl.inbound.isEmpty || fl.streamOpen then d
      else chainAcked env (freeFlow flow (sendOnFlow env flow fl kCloseAck 0 0 0 false false [] d)))

/-- RESET from the client: the flow ends at once; it is never answered (R293). -/
def execActReset (s : State) : Host.Outcome State Fault Refusal :=
  onMsg kReset (fun env m h d => onFlow env m h (fun id _ d => chainAcked env (freeFlow id d)) d) s

/-! ### Timers and attention (R297, R298, R300, R303) -/

/-- ACK_DELAY: 20 µs since the first message not yet acknowledged (R297). -/
def execAckDelay (flow : Nat) (s : State) : Host.Outcome State Fault Refusal :=
  onDev s (fun env d =>
    match flowOf d flow with
    | none => d
    | some fl =>
      match fl.ackSince with
      | some t => if t + 500 ≤ env.tick then bareAck env flow false d else d
      | none => d)

/-- RETRANSMIT_TIMEOUT: served by the wheel once no watchdog of the port is due at the step, in the flow's slot (R278, R298):
the oldest unacknowledged message goes again and the timer doubles, up to 64 times its start; the RETRY_MAX-th expiry
without progress resets the flow (R297). -/
def execRetransmitTimeout (flow : Nat) (s : State) : Host.Outcome State Fault Refusal :=
  onDev s (fun env d =>
    match flowOf d flow with
    | none => d
    | some fl =>
      match fl.rtoDue, fl.unacked with
      | some t, u :: _ =>
        let x := portOf d fl.port
        let slot := 1 + flow % 7
        if !wheelDue env t || (List.range 8).any (stormDue env x) || !slotServed env x fl.pcp slot then d
        else
          let d0 := updPort fl.port (countServed env fl.pcp slot) d
          if xptRetryMax d ≤ fl.retries + 1 then resetFlow env flow 4 d0
          else
            let rto := min (2 * fl.rto) (64 * xptRto d)
            let d1 := updFlow flow (fun f => { f with
              retries := f.retries + 1, rto := rto, rtoDue := some (env.tick + rtoTicks rto), rtoFired := some env.tick }) d0
            resend env flow [u] d1
      | _, _ => d)

/-- IDLE_TIMEOUT: no message from the client for IDLE_S seconds (R293). -/
def execIdleTimeout (flow : Nat) (s : State) : Host.Outcome State Fault Refusal :=
  onDev s (fun env d =>
    match flowOf d flow with
    | none => d
    | some fl =>
      if xptIdleS d ≠ 0 && fl.lastRx + xptIdleS d * Config.second ≤ env.tick then resetFlow env flow 6 d else d)

/-- STREAM_TIMEOUT: a command whose stream is incomplete 10 s after its CMD completes with SC_TIMEOUT, without effect
(R300). What still comes of the stream is taken and dropped (log 132). -/
def execStreamTimeout (flow : Nat) (s : State) : Host.Outcome State Fault Refusal :=
  onDev s (fun env d =>
    match flowOf d flow with
    | none => d
    | some fl =>
      match fl.stream with
      | none => d
      | some st =>
        if env.tick < st.since + 250000000 || !fl.streamOpen then d
        else
          let d1 := updFlow flow (fun f => { f with stream := some { st with ended := true } }) d
          match st.arr with
          | none => sendResp env flow none st.cid.toNat scTimeout 0 false d1
          | some no =>
            match d1.mea.arrivals.find? (fun a => a.no == no), d1.mea.tasks.find? (fun t => t.arrNo == no && t.kind == .act) with
            | some a, _ => answerArrival env a scTimeout 0 d1
            | none, some t => if t.completed then d1 else endJob env t scTimeout 0 false d1
            | none, none => d1)

/-- ATTN: ATTN_SUMMARY has gained a bit; at most one in each window of 1 ms (R303, R350). -/
def execAttn (flow : Nat) (s : State) : Host.Outcome State Fault Refusal :=
  onDev s (fun env d =>
    match flowOf d flow with
    | none => d
    | some fl =>
      let early := match fl.lastAttn with | some t => env.tick / Config.ms ≤ t / Config.ms | none => false
      if !fl.attnDue || early then d
      else
        let pay := natLe 4 (attnSummary d.attn).toNat ++ natLe 4 0 ++ natLe 8 env.tick
        sendSeq env flow kAttn 0 0 false pay (updFlow flow (fun f => { f with attnDue := false, lastAttn := some env.tick }) d))

/-! ### XPORT posts of a chain command's task (R301) -/

/-- What is left of the task's command: nothing when its flow has ended, though another may bear its id; a timeout when its
stream has (R300, R301). -/
def xportState (d : Dev) (t : Task) : Except Byte (List Byte) :=
  match flowOf d t.source.toNat with
  | none => .error 0x15
  | some fl =>
    if t.arrNo < fl.first then .error 0x15
    else match inboundOf d t.source.toNat t.arrNo with
      | some x => .ok x.bytes
      | none => .error 0x10

/-- SEND_DATA: bytes of the response stream go out; whether their last message sets LAST is left open (R300, R301). -/
def execSendData (p : PostRef) (s : State) : Host.Outcome State Fault Refusal :=
  unitStep p 6 1 (fun env t x d =>
    match xportState d t with
    | .error st => endPost p t (postCost d) st 0 d
    | .ok _ =>
      let c := x.desc
      let bs := readFor t d (cap c 0 8) (cap c 16 4)
      let f := takeFree d
      endPost p t (postCost d) 0 0 (sendData env t.source.toNat t.arrNo (capCid t.capsule) (cap c 8 8) (bitOf f.1 0) bs f.2)) s

/-- RECV_DATA: bytes of the command's stream, once they have arrived; their buffers are free (R296, R301). -/
def execRecvData (p : PostRef) (s : State) : Host.Outcome State Fault Refusal :=
  unitStep p 6 2 (fun _ t x d =>
    match xportState d t with
    | .error st => endPost p t (postCost d) st 0 d
    | .ok bs =>
      let c := x.desc
      let n := cap c 16 4
      if bs.length < cap c 8 8 + n then d
      else
        let d1 := storeFor t (cap c 0 8) (slice bs (cap c 8 8) n) d
        endPost p t (postCost d) 0 0 (consumeBytes t.source.toNat t.arrNo (cap c 8 8) (cap c 8 8 + n) (throttledGroup d t.group.toNat) d1)) s

end Sys2Proof.Machine
end

