-- ==== Sys2Proof/Machine/Blower.lean ====
section
/-! DEFINITION. The blower drive (17): starts, the rotor's loss and return, overvoltage, and the health it reports. -/

namespace Sys2Proof.Machine

/-- Change the blower drive. -/
def updBld (f : Bld → Bld) (d : Dev) : Dev := { d with bld := f d.bld }

/-- The bus is read: while CHOPPER reads 1 the chopper switches on above 13.0 V and off below 12.8 V (R467). -/
def Bld.seeBus (busMv : Nat) (b : Bld) : Bld :=
  { b with busMv := busMv, peakMv := max b.peakMv busMv,
           chopperOn := b.chopper == 1 && (decide (13000 < busMv) || (b.chopperOn && decide (12800 ≤ busMv))) }

/-- Cause bits of block 0x10 (R480). -/
abbrev bldCause (env : Env) (bits : W32) (d : Dev) : Dev := setCause env 16 bits d

/-- An event of R481. -/
abbrev bldEvent (env : Env) (code : BitVec 16) (sev p0 p1 p2 : Nat) (d : Dev) : Dev :=
  event env code sev clsHardware 0 p0 p1 p2 d

/-! ### Limits, thresholds and the demand (R473, R480) -/

/-- MAX_RPM and MIN_RPM as they act. -/
def Bld.maxEff (b : Bld) : Nat := min 16000 (max 6000 b.maxRpm)
def Bld.minEff (b : Bld) : Nat := min (max 2000 b.minRpm) b.maxEff

/-- The ceiling in force (R471, R473). -/
def Bld.ceiling (b : Bld) : Nat := if b.chopper = 2 then min b.maxEff 11000 else b.maxEff

/-- LOSS_THRESH and LOCK_THRESH as they act. -/
def Bld.lossEff (b : Bld) : Nat := max 16 b.lossThresh
def Bld.lockEff (b : Bld) : Nat := if b.lockThresh ≤ b.lossEff then b.lossEff + 32 else b.lockThresh

/-- Back-EMF in mV at a speed: 1.00 V per 1,000 rpm (R466). -/
abbrev backEmf (rpm : Nat) : Nat := rpm

/-- The back-EMF exceeds the bus less 0.5 V. -/
def overBus (rpm busMv : Nat) : Bool := busMv < backEmf rpm + 500

/-- In RUN field-weakening current flows while the back-EMF exceeds the bus less 0.5 V; COAST keeps it, no other state has it
(R474). -/
def Bld.weaken (b : Bld) : Bld :=
  { b with weak := match b.st with | .run => overBus b.rpm b.busMv | .coast => b.weak | _ => false }

/-- The speed stays below 85 % of the demand (R478). -/
def slow (b : Bld) (rpm : Nat) : Bool := 100 * rpm < 85 * b.demand

/-- The phase current limit (R466). -/
abbrev phaseLimitMa : Nat := 6000

/-- A reading of speed, confidence and phase current: the marks from which the continuous times of R469, R475, R476 and R478 run. -/
def Bld.note (tick : Nat) (b : Bld) : Bld :=
  let mark (p : Bool) (t : Option Nat) : Option Nat := if p then some tick else t
  { b with unlockAt := mark (b.conf < b.lockEff) b.unlockAt, heldAt := mark (b.lossEff ≤ b.conf) b.heldAt,
           unfitAt := mark (b.conf < b.lockEff || slow b b.rpm) b.unfitAt,
           fastAt := mark (!slow b b.rpm || b.phaseMa < phaseLimitMa) b.fastAt }.weaken

/-- No reading since a mark was set, or since the state was entered where there is none, has broken a time of n ticks. -/
def Bld.lasted (b : Bld) (mark : Option Nat) (n tick : Nat) : Bool := max (mark.getD 0) b.since + n ≤ tick

/-- First and last sensor of a thermal group (R369). -/
def groupSensors (g : Nat) : List Nat :=
  match g with
  | 0 => List.range 16
  | 1 => (List.range 48).map (· + 16)
  | 2 => (List.range 8).map (· + 64)
  | 3 => [72, 73]
  | 4 => [74]
  | _ => [75]

/-- SOFT of a group as it acts: above its default it acts as the default (R369). -/
def softEff (d : Dev) (g : Nat) : Nat :=
  let t := vget d.bgv.tg g (tgroupDefault g)
  min t.soft t.softDef

/-- What a sensor is taken to read, in 1/16 °C: its group's SOFT when it is failed (R369); so it counts in the ceilings and in
the blower's demand, though R369 and R473 speak of the hottest valid sensor (DEDUCED, log 136). -/
def sensorTemp (d : Dev) (g s : Nat) : Int :=
  match (if d.bgv.failed.contains s then none else d.bgv.temps.getD s none) with
  | some t => t
  | none => 16 * (softEff d g : Int)

/-- The hottest reading of a group and its sensor. -/
def hottest (d : Dev) (g : Nat) : Nat × Int :=
  match groupSensors g with
  | [] => (0, 0)
  | s :: ss => ss.foldl (fun a x => if a.2 < sensorTemp d g x then (x, sensorTemp d g x) else a) (s, sensorTemp d g s)

/-- The smallest margin below SOFT over groups 0–4, in 1/16 °C (R473). -/
def thermMargin (d : Dev) : Int :=
  let m (g : Nat) : Int := 16 * (softEff d g : Int) - (hottest d g).2
  [1, 2, 3, 4].foldl (fun a g => min a (m g)) (m 0)

/-- The thermal demand of R473. -/
def thermalDemand (d : Dev) : Nat :=
  let b := d.bld
  let m := thermMargin d
  if m ≤ 0 || bitOf (vget d.attn.cause 6 0) 6 then b.maxEff
  else if 320 ≤ m then b.minEff
  else (b.minEff + (b.maxEff - b.minEff) * (320 - m.toNat) / 320) / 100 * 100

/-- The demand BGV gives (R448, R473). -/
def demandOf (env : Env) (d : Dev) : Nat :=
  let b := d.bld
  if env.pw.st == .dormant then b.minEff
  else
    let t := thermalDemand d
    min b.ceiling (max b.minEff (if b.force then max t b.forceRpm else t))

/-- The speed the drive steers for moves toward the demand by what a time allows: up by 4,000 rpm/s, down by 2,000 rpm/s, by
regenerative braking while CHOPPER reads 1 (R474). The rule bounds these rates; the model takes the bounds (DESIGN CHOICE, log
160). -/
def Bld.steer (ticks : Nat) (b : Bld) : Bld :=
  let up := 4 * ticks / Config.ms
  let down := if b.chopper = 1 then 2 * ticks / Config.ms else 0
  { b with ref := if b.ref ≤ b.demand then min b.demand (b.ref + up) else max b.demand (b.ref - down) }

/-- In RUN a demand below the speed is met by coasting unless CHOPPER reads 1 (R471, R474). -/
def coastDown (env : Env) (d : Dev) : Dev :=
  let b := d.bld
  if b.st == .run && b.chopper ≠ 1 && b.demand < b.rpm then updBld (fun b => { b with st := .coast, since := env.tick }) d
  else d

/-- BGV gives BLD a demand; outside RUN it takes effect on entry to RUN (R473). -/
def giveDemand (env : Env) (d : Dev) : Dev :=
  let x := demandOf env d
  let d1 := updBld (fun b => { b with given := some x }) d
  if d.bld.st == .run then coastDown env (updBld (fun b => { b with demand := x }) d1) else d1

/-! ### Reports (R478) -/

/-- BLD reports a blower fault; BGV acts on it at once (R31, R370). -/
def reportFaulty (env : Env) (d : Dev) : Dev :=
  applyBlowerBudget env (bldCause env 1
    (updBld (fun b => { b with healthy := false, faultAt := some (b.faultAt.getD env.tick) }) d))

/-- The demand that takes effect on entry to RUN: the one given last, within the ceiling in force; where none has been given yet,
the one BGV would give (R473, log 160). -/
def entryDemand (env : Env) (d : Dev) : Nat :=
  match d.bld.given with
  | some x => min x d.bld.ceiling
  | none => demandOf env d

/-- RUN is reached at a speed: the attempt count returns to 0 and the demand given last takes effect (R472, R473). -/
def enterRun (env : Env) (rpm conf : Nat) (d : Dev) : Dev :=
  coastDown env (updBld (fun b => Bld.note env.tick
    { b with st := .run, since := env.tick, rpm := rpm, conf := conf, reverse := false, attempts := 0,
             declared := none, restart := false, demand := entryDemand env d, ref := rpm }) d)

/-- A state of the blower is entered. -/
def enterBld (env : Env) (st : BldSt) (d : Dev) : Dev :=
  updBld (fun b => { b with st := st, since := env.tick }.weaken) d

/-! ### Starting (R469–R472) -/

/-- The blower drive works: VCORE is on and bring-up has come to step 5, and no drain or reset has stopped it. -/
def bldAlive (env : Env) (d : Dev) : Bool :=
  !d.bld.stopping &&
  ((env.pw.st == .bringup && 4 ≤ env.pw.bringStep) || env.pw.st == .active || env.pw.st == .dormant ||
   env.pw.st == .recovery)

/-- A start begins: counted, and the blower counts as faulty until RUN is reached (R478). -/
def beginStart (env : Env) (d : Dev) : Dev :=
  reportFaulty env (updBld (fun b => { b with st := .test, since := env.tick, starts := sat32 (b.starts + 1),
                                              restart := false, declared := none }) d)

/-- The chopper test's result (R471): 1 OK, 2 FAULTY, 3 STUCK_ON. -/
def chopperResult (onMa offMa busMv : Nat) : Nat :=
  if 100 ≤ offMa then 3
  else if 1900 ≤ onMa && onMa ≤ 3200 && 11000 ≤ busMv && busMv ≤ 13000 then 1 else 2

/-- The chopper test of a start ends; SENSE follows, or FAULT with the ideal diode open (R471). -/
def chopperTest (env : Env) (onMa offMa busMv : Nat) (d : Dev) : Dev :=
  let r := chopperResult onMa offMa busMv
  let d1 := updBld (fun b => { b with chopper := r, st := if r = 3 then .fault else .sense, since := env.tick }.seeBus busMv) d
  let d2 := if r = 1 then d1
    else bldEvent env 0x1001 4 onMa offMa r (bldCause env 4 d1)
  if r = 3 then reportFaulty env d2 else d2

/-- BLOWER_START: a start begins, or the one START_RETRY or a failed re-acquisition began goes on, with the chopper
test (R469, R471). -/
def execBlowerStart (onMa offMa busMv : Nat) (s : State) : Host.Outcome State Fault Refusal :=
  onDev s (fun env d =>
    if !bldAlive env d then d
    else match d.bld.st with
      | .off => chopperTest env onMa offMa busMv (beginStart env d)
      | .test => chopperTest env onMa offMa busMv d
      | _ => d)

/-- WINDMILL: the 50 ms of the back-EMF sense end and the first row of R470 that matches decides (R469). -/
def execWindmill (rpm : Nat) (reverse caught : Bool) (s : State) : Host.Outcome State Fault Refusal :=
  onDev s (fun env d =>
    if d.bld.st != .sense || !bldAlive env d || env.tick < d.bld.since + 50 * Config.ms then d
    else
      let d1 := updBld (fun b => { b with rpm := rpm, reverse := reverse && 300 ≤ rpm }) d
      if rpm < 300 then enterBld env .align d1
      else
        let catch_ := !reverse && 1500 ≤ rpm
        let d2 := bldEvent env 0x1002 1 rpm (if reverse then 2 else 1) (if catch_ then 1 else 2) d1
        if catch_ && caught then enterRun env rpm d2.bld.lockEff d2 else enterBld env .brake d2)

/-- A start attempt has failed: WAIT, and after three in a row BLOCKED with a 30 s wait (R472, R478). -/
def failStart (env : Env) (cause : Nat) (d : Dev) : Dev :=
  let n := d.bld.attempts + 1
  let d1 := updBld (fun b => { b with st := .wait, since := env.tick, startFails := sat32 (b.startFails + 1),
                                      attempts := n, retryAt := env.tick + Config.second }) d
  let d2 := bldEvent env 0x1003 4 n cause 0 (bldCause env 0x20 d1)
  let d3 := if n < 3 then d2
    else bldEvent env 0x1004 5 (d2.bld.series + 1) 0 0 (bldCause env 0x40
      (updBld (fun b => { b with attempts := 0, series := b.series + 1, retryAt := env.tick + 30 * Config.second }) d2))
  reportFaulty env d3

/-- BRAKE_DONE: below 500 rpm, or the 3 s of step 4 are over (R469, R476). -/
def execBrakeDone (timedOut : Bool) (rpm : Nat) (s : State) : Host.Outcome State Fault Refusal :=
  onDev s (fun env d =>
    if d.bld.st != .brake || !bldAlive env d then d
    else if !timedOut then
      if rpm < 500 then
        let d1 := updBld (fun b => { b with rpm := rpm }) d
        if d.bld.restart then beginStart env d1 else enterBld env .align d1
      else d
    else if !d.bld.restart && d.bld.since + 3 * Config.second ≤ env.tick then
      failStart env 3 (updBld (fun b => { b with rpm := rpm }) d)
    else d)

/-- ALIGN_DONE: 200 ms of ALIGN have elapsed and have stopped the rotor; RAMP begins from 0 (R469). -/
def execAlignDone (s : State) : Host.Outcome State Fault Refusal :=
  onDev s (fun env d =>
    if d.bld.st == .align && bldAlive env d && d.bld.since + 200 * Config.ms ≤ env.tick then
      enterBld env .ramp (updBld (fun b => { b with rpm := 0, reverse := false }) d)
    else d)

/-- Ticks of steps 6 and 7 of a start: the ramp to 1,500 rpm, and the handover after it (R469). -/
abbrev rampTicks : Nat := 500 * Config.ms
abbrev handoverTicks : Nat := 20 * Config.ms

/-- HANDOVER: at the end of RAMP, confidence at or above LOCK_THRESH for 20 ms continuously, within the 20 ms of step 7 (R469). -/
def execHandover (rpm conf : Nat) (s : State) : Host.Outcome State Fault Refusal :=
  onDev s (fun env d =>
    if d.bld.st == .ramp && bldAlive env d && d.bld.lockEff ≤ conf && d.bld.since + rampTicks ≤ env.tick &&
       env.tick ≤ d.bld.since + rampTicks + handoverTicks && d.bld.lasted d.bld.unlockAt handoverTicks env.tick
    then enterRun env rpm conf d else d)

/-- Zero crossings of the back-EMF expected in the first `ticks` of RAMP: 24 in a revolution (6 per electrical one, 4 pole pairs),
under 3,000 rpm/s from standstill; 24 of them come before 600 rpm (R466, R469, R472). -/
def crossings (ticks : Nat) : Nat := 600 * ticks * ticks / (Config.second * Config.second)

/-- START_FAILED: a locked rotor (1) in RAMP, once 12 crossings have been expected from 600 rpm on; no handover (2) when step 7 has
ended; a brake timeout (3) in BRAKE (R472). -/
def execStartFailed (cause : Nat) (s : State) : Host.Outcome State Fault Refusal :=
  onDev s (fun env d =>
    let ok := (d.bld.st == .ramp && ((cause = 1 && 36 ≤ crossings (env.tick - d.bld.since)) ||
        (cause = 2 && d.bld.since + rampTicks + handoverTicks ≤ env.tick))) ||
      (d.bld.st == .brake && cause = 3 && !d.bld.restart && d.bld.since + 3 * Config.second ≤ env.tick)
    if ok && bldAlive env d then failStart env cause d else d)

/-- START_RETRY: the 1 s or 30 s wait ends and the next attempt begins (R472). -/
def execStartRetry (s : State) : Host.Outcome State Fault Refusal :=
  onDev s (fun env d =>
    if d.bld.st == .wait && bldAlive env d && d.bld.retryAt ≤ env.tick then beginStart env d else d)

/-! ### Losing the rotor (R474–R476) -/

/-- The 2 ms of R475 run from the last reading at or above LOSS_THRESH. -/
def lossDue (env : Env) (b : Bld) : Bool := b.heldAt.getD b.since + 2 * Config.ms ≤ env.tick

/-- OBSERVER_LOST: confidence below LOSS_THRESH for 2 ms continuously in RUN or COAST; one that has crossed back cancels the count
(R354, R475). -/
def execObserverLost (rpm conf busMv : Nat) (s : State) : Host.Outcome State Fault Refusal :=
  onDev s (fun env d =>
    if !(d.bld.st == .run || d.bld.st == .coast) || !bldAlive env d then d
    else if d.bld.lossEff ≤ conf then updBld (fun b => { b with heldAt := some env.tick }) d
    else if !lossDue env d.bld then d
    else
      let asc := overBus rpm busMv
      let d1 := updBld (fun b =>
        ({ b with st := if asc then .asc else .lost, since := env.tick, rpm := rpm, conf := conf,
                  losses := sat32 (b.losses + 1), declared := some env.tick, ovAsc := false }.seeBus busMv).weaken) d
      reportFaulty env (bldEvent env 0x1005 4 rpm conf (if asc then 2 else 1) (bldCause env 8 d1)))

/-- ASC_RELEASE: the speed's back-EMF is at or below the bus less 0.5 V: all switches off. A re-acquisition reads the
back-EMF from here (R476); after a drain or at a device reset the blower is off (R479), and after an overvoltage in OFF or FAULT
it is that again (log 159). -/
def execAscRelease (rpm busMv : Nat) (s : State) : Host.Outcome State Fault Refusal :=
  onDev s (fun env d =>
    if d.bld.st != .asc || d.bld.ovAsc || overBus rpm busMv then d
    else
      let d1 := updBld (fun b => { b with rpm := rpm, ovBack := none }.seeBus busMv) d
      enterBld env (if d.bld.stopping then .off else d.bld.ovBack.getD .lost) d1)

/-- REACQUIRED: confidence at or above LOCK_THRESH for 10 ms since the switches went off, within 300 ms of the declaration (R476). -/
def execReacquired (rpm conf : Nat) (s : State) : Host.Outcome State Fault Refusal :=
  onDev s (fun env d =>
    match d.bld.declared with
    | none => d
    | some t =>
      if d.bld.st == .lost && bldAlive env d && d.bld.lockEff ≤ conf && d.bld.lasted d.bld.unlockAt (10 * Config.ms) env.tick &&
         env.tick ≤ t + 300 * Config.ms then
        bldEvent env 0x1006 1 ((env.tick - t) / Config.ms) rpm 0 (enterRun env rpm conf d)
      else d)

/-- REACQUIRE_FAILED: 300 ms have passed: the drive brakes by ASC and starts again (R476). -/
def execReacquireFailed (rpm : Nat) (s : State) : Host.Outcome State Fault Refusal :=
  onDev s (fun env d =>
    match d.bld.declared with
    | none => d
    | some t =>
      if (d.bld.st == .lost || (d.bld.st == .asc && !d.bld.ovAsc)) && bldAlive env d && t + 300 * Config.ms ≤ env.tick then
        bldEvent env 0x1007 3 rpm 0 0
          (updBld (fun b => { b with st := .brake, since := env.tick, rpm := rpm, restart := true, declared := none }) d)
      else d)

/-- COAST_RETURN: a blower coasting down reaches the demand (R474). -/
def execCoastReturn (rpm : Nat) (s : State) : Host.Outcome State Fault Refusal :=
  onDev s (fun env d =>
    if d.bld.st == .coast && d.bld.ov.isNone && bldAlive env d && rpm ≤ d.bld.demand then
      enterRun env rpm d.bld.conf d
    else d)

/-! ### Overvoltage (R477) -/

/-- An episode with one more reading of the bus. -/
def Overvolt.see (tick busMv : Nat) (o : Overvolt) : Overvolt :=
  let lvl := if 14000 < busMv then 2 else if 13200 < busMv then 1 else 0
  let o1 : Overvolt := { o with level := max o.level lvl, peak := max o.peak busMv }
  match o.since with
  | some t => if 13200 < busMv then o1 else { o1 with above := o.above + (tick - t), since := none }
  | none => if 13200 < busMv then { o1 with since := some tick } else o1

/-- OV2 takes precedence over every other action, in every state; OFF and FAULT, which a release does not leave, are gone back to
(R468, R477; log 159). -/
def ov2 (env : Env) (d : Dev) : Dev :=
  match d.bld.st with
  | .asc => updBld (fun b => { b with ovAsc := true, since := if b.ovAsc then b.since else env.tick }) d
  | st => updBld (fun b =>
      { b with st := .asc, since := env.tick, ovAsc := true, ovReported := false,
               ovBack := if st == BldSt.off || st == BldSt.fault then some st else none }.weaken) d

/-- OV1: zero torque current where torque is driven. -/
def ov1 (env : Env) (d : Dev) : Dev :=
  match d.bld.st with
  | .run | .align | .ramp => enterBld env .coast d
  | _ => d

/-- What follows an ASC of OV2: while the back-EMF exceeds the bus less 0.5 V the ASC goes on, as step 1 of R476 or as R479 has it
(a loss already declared keeps its 300 ms); then the switches are off. -/
def endOvAsc (env : Env) (d : Dev) : Dev :=
  let b := d.bld
  let d1 := if b.stopping || b.ovBack.isSome then d
    else updBld (fun b => { b with declared := some (b.declared.getD env.tick) }) d
  if overBus b.rpm b.busMv then d1
  else enterBld env (if b.stopping then .off else b.ovBack.getD .lost) (updBld (fun b => { b with ovBack := none }) d1)

/-- The episode ends below 12.6 V: its event, then re-acquisition from ASC, or RUN from COAST. -/
def ovRelease (env : Env) (o : Overvolt) (d : Dev) : Dev :=
  let d1 := bldEvent env 0x1008 4 o.level o.peak (o.above / Config.ms)
    (updBld (fun b => { b with ov := none, ovAsc := false, ovReported := false }) d)
  if d.bld.st == .asc && d.bld.ovAsc then endOvAsc env d1
  else if d.bld.st == .coast then enterRun env d.bld.rpm d.bld.conf d1
  else d1

/-- What a reading of the bus does: an episode begins, goes on or ends (R477). -/
def watchBus (env : Env) (busMv rpm : Nat) (d : Dev) : Dev :=
    let d0 := updBld (fun b => ({ b with rpm := rpm }.seeBus busMv).weaken) d
    let d1 :=
      match d0.bld.ov with
      | some o => updBld (fun b => { b with ov := some (o.see env.tick busMv) }) d0
      | none =>
        if 13200 < busMv then
          bldCause env 0x10 (updBld (fun b => { b with
            overvolts := sat32 (b.overvolts + 1),
            ov := some (Overvolt.see env.tick busMv ⟨1, busMv, 0, none⟩) }) d0)
        else d0
    match d1.bld.ov with
    | none => d1
    | some o =>
      if 14000 < busMv then ov2 env d1
      else if 13200 < busMv then ov1 env d1
      else if busMv < 12600 then ovRelease env o d1
      else d1

/-- OVERVOLTAGE: the bus crosses OV1 or OV2, or falls below 12.6 V (R477). With VCORE off the blower drive watches nothing
(R479). -/
def execOvervoltage (busMv rpm : Nat) (s : State) : Host.Outcome State Fault Refusal :=
  onDev s (fun env d => if env.pw.st == .off || env.pw.st == .retention then d else watchBus env busMv rpm d)

/-- OV2_ASC_LIMIT: an OV2 ASC has lasted 300 ms (R478). -/
def execOv2AscLimit (s : State) : Host.Outcome State Fault Refusal :=
  onDev s (fun env d =>
    if d.bld.st == .asc && d.bld.ovAsc && !d.bld.ovReported && !d.bld.stopping && d.bld.since + 300 * Config.ms ≤ env.tick
    then reportFaulty env (updBld (fun b => { b with ovReported := true }) d) else d)

/-! ### Speed and health (R478) -/

/-- SPEED_DEFICIT: at the current limit, 6.0 A, and below 85 % of the demand for 1 s in RUN (R466, R478; log 160). The 1 s begins
again after a report. -/
def execSpeedDeficit (rpm phaseMa : Nat) (s : State) : Host.Outcome State Fault Refusal :=
  onDev s (fun env d =>
    if d.bld.st == .run && bldAlive env d && slow d.bld rpm && phaseLimitMa ≤ phaseMa &&
       d.bld.lasted d.bld.fastAt Config.second env.tick then
      reportFaulty env (bldEvent env 0x100A 3 d.bld.demand rpm phaseMa (bldCause env 0x80
        (updBld (fun b => { b with rpm := rpm, phaseMa := phaseMa, fastAt := some env.tick }) d)))
    else d)

/-- BLOWER_HEALTHY: 1 s continuously in RUN at lock and at 85 % of the demand; the blower-fault budget ends (R370, R478). -/
def execBlowerHealthy (rpm conf : Nat) (s : State) : Host.Outcome State Fault Refusal :=
  onDev s (fun env d =>
    if d.bld.st == .run && bldAlive env d && !slow d.bld rpm && d.bld.lockEff ≤ conf &&
       d.bld.lasted d.bld.unfitAt Config.second env.tick then
      let d1 := updBld (fun b => { b with healthy := true, faultAt := none, rpm := rpm, conf := conf }) d
      match d.bld.faultAt with
      | none => d1
      | some t =>
        bldEvent env 0x1009 0 rpm ((env.tick - t) / Config.ms) 0 (bldCause env 2
          { d1 with bgv := { d1.bgv with blowerFault := false } })
    else d)

/-- A drain or a device reset stops the blower: ASC where the back-EMF exceeds the bus less 0.5 V or OV2 holds it, which takes
precedence, else off; no fault report (R477, R479). -/
def stopBlower (env : Env) (d : Dev) : Dev :=
  match d.bld.st with
  | .fault => d
  | .off => updBld (fun b => { b with stopping := true }) d
  | _ =>
    let ov := d.bld.st == .asc && d.bld.ovAsc
    let asc := ov || overBus d.bld.rpm d.bld.busMv
    updBld (fun b => { b with st := if asc then .asc else .off, since := env.tick, stopping := true, demand := 0,
                              declared := none, restart := false, ovAsc := ov }.weaken) d

end Sys2Proof.Machine
end

