-- ==== Sys2Proof/Machine/Couch.lean ====
section
/-! DEFINITION. The couch engine (10): pending lists, channels, beats, completion records, timeouts, late completions and
the resets of the host side. -/

namespace Sys2Proof.Machine

/-! ### Channels -/

/-- Change a channel. -/
def updChan (c : Nat) (f : Chan → Chan) (d : Dev) : Dev := { d with cch := { d.cch with chans := vupd d.cch.chans c f } }

/-- The post a channel works for. -/
def Chan.post (ch : Chan) : PostRef := ⟨ch.eng, ch.ctx, ch.tag⟩

/-- STOP_ON_ERR, WB, TIMEOUT and DID of a descriptor (R315). -/
def cdStop (c : V512) : Bool := bitOf c 0
def cdWb (c : V512) : Bool := bitOf c 1
def cdTimeout (c : V512) : Nat := cap c 4 2
def cdDid (c : V512) : Nat := cap c 6 2

/-- The source of a descriptor is host memory. -/
def cdHostSrc (c : V512) : Bool := !cdFill c && hostSpace (srcSide c).space
def cdHostDst (c : V512) : Bool := hostSpace (dstSide c).space

/-- Length of the beat that begins at stream position p (R325). -/
def beatLen (c : V512) (p : Nat) : Nat :=
  let s := srcSide c
  let ds := dstSide c
  let toSrc := if cdFill c then 64 else s.line - p % s.line
  let toDst := ds.line - p % ds.line
  let toAlign := 64 - ((ds.at p) % 64).toNat
  min (min 64 toSrc) (min toDst toAlign)

/-- PCIe completion timeout in ticks: the Device Control 2 field's longest time, 50 ms when it is 0 (R97). -/
def ctoTicks (d : Dev) : Nat :=
  match d.hqe.cto with
  | 1 => 2500
  | 2 => 250000
  | 5 => 1375000
  | 6 => 5250000
  | 9 => 22500000
  | 10 => 87500000
  | 13 => 325000000
  | 14 => 1600000000
  | _ => 1250000

/-- Host requests may go out, are held, or fail (R122). -/
inductive Bus where
  | on | held | off
  deriving DecidableEq, Repr

/-- The state of the bus for the drive's requests. -/
def busState (d : Dev) : Bus :=
  if d.hqe.issues then .on else if d.hqe.bmeHold.isSome || d.hqe.busMaster then .held else .off

/-- The descriptor will fail at a stream position; the earliest position stands, and a reset's status stays (R336, R343). -/
def failBeat (c pos : Nat) (status : Byte) (d : Dev) : Dev :=
  updChan c (fun ch => { ch with failAt := match ch.failAt with
    | none => some (pos, status)
    | some f => if pos < f.1 then some (pos, if f.2 = 7 then 7 else status) else some f }) d

/-- A host access of a channel's post failed (R122). -/
def couchHostFail (env : Env) (ch : Chan) (code : Byte) (d : Dev) : Dev :=
  match taskAt d ch.eng ch.ctx with
  | some t => dataDmaFail env t.opSrc.toNat (capCid t.capsule) code d
  | none => d

/-- Issue the next host reads of a channel, one beat each, while tags, records and staging are free (R96, R326, R341). -/
def issueReads (env : Env) (c : Nat) : Nat → Dev → Dev
  | 0, d => d
  | n + 1, d =>
    let ch := chanOf d c
    let pos := cdTotal ch.desc - ch.remain
    if ch.st != .run || !cdHostSrc ch.desc || ch.remain = 0 || ch.failAt.isSome ||
       64 ≤ ch.reads.length + ch.records.length then d
    else
      let k := beatLen ch.desc pos
      match busState d, freePcieTag d with
      | .off, _ => failBeat c pos 8 (couchHostFail env ch 0x12 d)
      | .on, some tag => issueReads env c n (updChan c (fun ch => { ch with
          remain := ch.remain - k, reads := ch.reads ++ [{ pos := pos, len := k, tick := env.tick, tag := tag }] }) d)
      | _, _ => d

/-- The bytes of a stream position's beat are at hand, as a read of drive memory or staged host data. -/
def beatData (d : Dev) (ch : Chan) : Option (List Byte) :=
  let c := ch.desc
  let p := ch.done
  let n := beatLen c p
  match taskAt d ch.eng ch.ctx with
  | none => none
  | some t =>
    let s := srcSide c
    if cdFill c then some ((List.range n).map (fun i => BitVec.ofNat 8 (cap c (8 + (p + i) % 8) 1)))
    else if hostSpace s.space then
      match (ch.reads.find? (fun r => r.pos == p)).bind (·.data) with
      | some (.ok bs) => some (slice bs 0 n)
      | _ => none
    else some (readSpace d t s.space (s.at p).toNat n)

/-! ### Overlap (R332) -/

/-- The source and the destination of a descriptor lie in one space. -/
def cdSelf (c : V512) : Bool := !cdFill c && (srcSide c).space == (dstSide c).space

/-- What a source byte held before the descriptor wrote over it. -/
def oldByte (old : List Host.Cell) (a : Nat) : Option Byte := (old.find? (fun x => x.1 == a)).map (·.2)

/-- The bytes a beat moves where its source may have been read before the descriptor wrote over it: each such byte is the
old or the new one as a free value says, since how far ahead the reads run is not fixed (R332; log 134). -/
def mixOld (w : Word) (old : List Host.Cell) (a : Nat) (bs : List Byte) : List Byte :=
  bs.mapIdx (fun i b => if bitOf w i then (oldByte old (a + i)).getD b else b)

/-- The bytes of a beat, drawn from a free value where the descriptor has written over its own source. -/
def beatBytes (ch : Chan) (bs : List Byte) (d : Dev) : List Byte × Dev :=
  if ch.old.isEmpty then (bs, d)
  else (mixOld (takeFree d).1 ch.old ((srcSide ch.desc).at ch.done).toNat bs, (takeFree d).2)

/-- Bytes a beat writes over that its descriptor had not written before, where they may still be its source. -/
def overwritten (d : Dev) (ch : Chan) (n : Nat) : List Host.Cell :=
  let ds := dstSide ch.desc
  let a := (ds.at ch.done).toNat
  match taskAt d ch.eng ch.ctx with
  | none => []
  | some t =>
    if !cdSelf ch.desc then []
    else
      let was := (readSpace d t ds.space a n).zipIdx.map (fun x => (a + x.2, x.1))
      was.filter (fun x => (oldByte ch.old x.1).isNone && decide ((srcSide ch.desc).lo ≤ x.1) &&
        decide ((x.1 : Int) < (srcSide ch.desc).hi))

/-- A channel has a beat ready (R327). -/
def beatReady (d : Dev) (ch : Chan) : Bool :=
  ch.st == .run && ch.done < cdTotal ch.desc &&
  (match ch.failAt with | some f => decide (ch.done < f.1) | none => true) &&
  !(cdHostDst ch.desc && busState d == .held) && (beatData d ch).isSome

/-! ### Ending a descriptor and a post -/

/-- The post of a channel completes; the channel is IDLE, keeping its records (R310, R334, R340). A sum of 2^40 bytes or more does
not fit its 40 bits: what they then read the manual leaves open, a free value (DESIGN CHOICE, log 156). -/
def endChain (env : Env) (c : Nat) (d : Dev) : Dev :=
  let ch := chanOf d c
  let f := if ch.sumDone < 2 ^ 40 then (BitVec.ofNat 64 ch.sumDone, d) else takeFree d
  let result : Word := BitVec.ofNat 64 (fld f.1 0 40 + min ch.descs 0xFFFF * 2 ^ 40)
  finishPost ch.post ch.firstErr result
    (updChan c (fun ch => { records := ch.records, readySince := env.tick }) f.2)

/-- A linked descriptor fails R322 or R324: counted, reported, and the chain halts (R323, R346). -/
def badLink (env : Env) (c : Nat) (d : Dev) : Dev :=
  let ch := chanOf d c
  let d1 := updChan c (fun ch => { ch with firstErr := if ch.firstErr = 0 then 2 else ch.firstErr })
    { d with cch := { d.cch with descInvalid := d.cch.descInvalid + 1 } }
  let prog := match taskAt d ch.eng ch.ctx with | some t => t.program.toNat | none => 0
  let addr := ch.descAddr.toNat % 2 ^ 32
  let vat := ch.eng / 8
  let d2 := setCause env 9 1 d1
  endChain env c (if ch.vendor then event env 0x0905 5 clsHardware vat c addr ch.descs d2
    else event env 0x0901 3 clsUser vat (c + prog * 65536) addr ch.descs d2)

/-- Write a completion record (R333). -/
def writeRecord (env : Env) (ch : Chan) (status : Byte) (d : Dev) : Dev :=
  match taskAt d ch.eng ch.ctx with
  | none => d
  | some t =>
    if cdWb ch.desc then
      storeFor t (cap ch.desc 56 8) (natLe 4 ch.done ++ natLe 2 (cdDid ch.desc) ++
        [status, BitVec.ofNat 8 (1 + 2 * b2n ch.preempted)] ++ natLe 8 env.tick) d
    else d

/-- The current descriptor ends with a status: its record, its charge, its outstanding reads kept as records, and then
NEXT or the end of the chain (R330, R333, R337, R340, R362). -/
def endDesc (env : Env) (c : Nat) (status : Byte) (d : Dev) : Dev :=
  let ch := chanOf d c
  let d1 := writeRecord env ch status d
  let d2 := match taskAt d ch.eng ch.ctx with
    | some t => chargeFor t.wclass t.group (energyV2 d 10000 ch.done 1024) d1
    | none => d1
  let d3 := if status = 7 then setCause env 9 0x10 d2
    else if status = 0x10 then
      event env 0x0903 3 clsProtocol (ch.eng / 8) c (cdDid ch.desc) ch.done
        (setCause env 9 2 { d2 with cch := { d2.cch with timeouts := d2.cch.timeouts + 1 } })
    else d2
  let late := (ch.reads.filter (fun r => r.data.isNone)).map (fun r =>
    { pos := r.pos, did := cdDid ch.desc, tick := r.tick, tag := r.tag, vat := ch.eng / 8 : LateRead })
  let d4 := updChan c (fun ch => { ch with
    descs := ch.descs + 1, sumDone := ch.sumDone + ch.done,
    firstErr := if ch.firstErr = 0 then status else ch.firstErr, reads := [], records := ch.records ++ late,
    failAt := none, preempted := false, aged := false }) d3
  let next := cap ch.desc 48 8
  if (status ≠ 0 && cdStop ch.desc) || next = 0 then endChain env c d4
  else
    let d5 := updChan c (fun ch => { ch with st := .fetch, descAddr := BitVec.ofNat 64 next, done := 0, remain := 0 }) d4
    if 65535 ≤ (chanOf d5 c).descs then badLink env c d5 else d5

/-- End the descriptor when every beat is written or the stream has reached its failing beat (R336, R338). -/
def settleChan (env : Env) (c : Nat) (d : Dev) : Dev :=
  let ch := chanOf d c
  if ch.st != .run then d
  else if cdTotal ch.desc ≤ ch.done then endDesc env c 0 d
  else match ch.failAt with
    | some f => if f.1 ≤ ch.done then endDesc env c f.2 d else d
    | none => d

/-- A channel begins a descriptor (R326, R341, R343). -/
def beginDesc (env : Env) (c : Nat) (desc : V512) (d : Dev) : Dev :=
  let d1 := updChan c (fun ch => { ch with
    st := .run, desc := desc, done := 0, remain := (if cdFill desc then 0 else cdTotal desc), reads := [],
    failAt := none, preempted := false, readySince := env.tick, old := [] }) d
  if d.hqe.resetBusy && (cdHostSrc desc || cdHostDst desc) then endDesc env c 7 d1
  else if cdHostSrc desc && 64 ≤ (chanOf d1 c).records.length then
    updChan c (fun ch => { ch with st := .waitRecords }) d1
  else settleChan env c (issueReads env c 64 d1)

/-! ### Posts (R310–R313) -/

/-- COPY: the post joins the pending list of its priority (R311, R312). -/
def execCopy (p : PostRef) (s : State) : Host.Outcome State Fault Refusal :=
  unitStep p 0 0 (fun _ t x d =>
    let prio := fld x.desc 8 3
    let e : Pend := ⟨(if t.vendor then prio else min prio t.prio), t.vendor, p, x.desc, x.addr, rightsOf d t⟩
    workPost p { d with cch := { d.cch with pend := d.cch.pend ++ [e] } }) s

/-- A channel may serve a pending post now: user posts on 0–55, vendor posts on 56–63 first (R310, R311). -/
def mayServe (d : Dev) (c : Nat) (e : Pend) : Bool :=
  if e.vendor then 56 ≤ c || (List.range 8).all (fun i => (chanOf d (56 + i)).st != .idle) else c < 56

/-- The oldest pending post of the highest priority a channel may serve. -/
def nextPend (d : Dev) (c : Nat) : Option Pend :=
  (d.cch.pend.filter (mayServe d c)).foldl (fun acc e => match acc with
    | none => some e
    | some a => some (if a.prio < e.prio then e else a)) none

/-- CHANNEL_TAKE_POST: a free channel takes a post and begins its first descriptor (R311). -/
def execChannelTakePost (channel : Nat) (s : State) : Host.Outcome State Fault Refusal :=
  onDev s (fun env d =>
    if 64 ≤ channel || (chanOf d channel).st != .idle then d
    else match nextPend d channel with
      | none => d
      | some e =>
        let d1 := { d with cch := { d.cch with pend := d.cch.pend.filter (fun x => x.post != e.post) } }
        let d2 := updChan channel (fun ch =>
          { st := .fetch, prio := e.prio, vendor := e.vendor, eng := e.post.eng, ctx := e.post.ctx, tag := e.post.tag,
            descAddr := e.addr, rights := e.rights, records := ch.records }) d1
        beginDesc env channel e.desc d2)

/-- LINKED_DESCRIPTOR_READ: the channel reads NEXT and checks it against the rights its task held at POST (R323). -/
def execLinkedDescriptorRead (channel : Nat) (s : State) : Host.Outcome State Fault Refusal :=
  onDev s (fun env d =>
    let ch := chanOf d channel
    if 64 ≤ channel || ch.st != .fetch then d
    else match taskAt d ch.eng ch.ctx with
      | none => d
      | some t =>
        let c := descAt d t ch.descAddr 64
        if linkOk d t ch.rights ch.descAddr c then beginDesc env channel c d else badLink env channel d)

/-! ### Beats (R325–R328, R336) -/

/-- Store one beat at its destination. -/
def storeBeat (ch : Chan) (bs : List Byte) (d : Dev) : Dev :=
  let ds := dstSide ch.desc
  let a := (ds.at ch.done).toNat
  match taskAt d ch.eng ch.ctx with
  | none => d
  | some t =>
    match ds.space with
    | 3 => { d with mea := { d.mea with ps := memStore d.mea.ps a bs } }
    | 4 => { d with hqe := { d.hqe with hmem := memStore d.hqe.hmem a bs } }
    | 5 => hostWrite t.sgl a bs d
    | sp =>
      let r := writeSpace d t sp a bs
      putTask r.1 r.2

/-- Channels with a beat ready. -/
def readyChans (d : Dev) : List Nat := (List.range 64).filter (fun c => beatReady d (chanOf d c))

/-- The first channel of a list after the last one granted, in round robin. -/
def roundRobin (last : Nat) (cs : List Nat) : Option Nat :=
  match cs.find? (fun c => last < c) with
  | some c => some c
  | none => cs.head?

/-- Of some channels, the one of the highest priority, in round robin among equals (R327). -/
def topChan (d : Dev) (cs : List Nat) : Option Nat :=
  let top := (cs.map (fun c => (chanOf d c).prio)).foldl max 0
  roundRobin (vget d.cch.grants top 0) (cs.filter (fun c => (chanOf d c).prio == top))

/-- The channel the next beat goes to: priority 7, then an aged channel, then the highest priority (R327). Among aged
channels the same order holds (log 134). -/
def pickChan (d : Dev) : Option Nat :=
  let cs := readyChans d
  let aged := cs.filter (fun c => (chanOf d c).aged)
  if cs.any (fun c => (chanOf d c).prio == 7) || aged.isEmpty then topChan d cs else topChan d aged

/-- The channel granted last still has a beat ready and loses the beat path (R328, R333). -/
def preempt (c : Nat) (d : Dev) : Dev :=
  let l := d.cch.lastGrant
  if l ≠ c && beatReady d (chanOf d l) && 0 < (chanOf d l).done then
    updChan l (fun ch => { ch with preempted := true }) { d with cch := { d.cch with preempts := d.cch.preempts + 1 } }
  else d

/-- A source beat in LS, FE or DR meets an uncorrectable ECC error: the operand says so, or the word is marked bad. -/
def sourceBad (d : Dev) (ch : Chan) (eccBad : Bool) : Bool :=
  let s := srcSide ch.desc
  !cdFill ch.desc && !hostSpace s.space && (eccBad || (s.space == 0 && (match taskAt d ch.eng ch.ctx with
    | some t => lsBad d t (s.at ch.done).toNat (beatLen ch.desc ch.done)
    | none => false)))

/-- Reads held back by Bus Master Enable, by records or by staging are issued when they may. -/
def refill (env : Env) (d : Dev) : Dev := (List.range 64).foldl (fun d c => settleChan env c (issueReads env c 64 d)) d

/-- BEAT_GRANT: the beat path is granted and one beat is written (R325–R328, R335). -/
def execBeatGrant (eccBad : Bool) (s : State) : Host.Outcome State Fault Refusal :=
  onDev s (fun env d0 =>
    let d := refill env d0
    match pickChan d with
    | none => d
    | some c =>
      let ch := chanOf d c
      let src := srcSide ch.desc
      if sourceBad d ch eccBad then
        let off := (src.at ch.done).toNat
        endDesc env c 0x0B (event env 0x0904 5 clsHardware (ch.eng / 8) src.space (off % 2 ^ 32) (off / 2 ^ 32)
          (setCause env 9 8 d))
      else if cdHostDst ch.desc && busState d == .off then endDesc env c 8 (couchHostFail env ch 0x12 d)
      else match beatData d ch with
        | none => d
        | some bs0 =>
          let bs := (beatBytes ch bs0 d).1
          let was := overwritten d ch bs.length
          let d1 := storeBeat ch bs (preempt c (beatBytes ch bs0 d).2)
          let d2 := { d1 with cch := { d1.cch with beats := d1.cch.beats + 1, bytes := d1.cch.bytes + bs.length,
                                                   lastGrant := c, grants := vset d1.cch.grants ch.prio c } }
          let d3 := updChan c (fun ch => { ch with
            done := ch.done + bs.length, aged := false, readySince := env.tick, old := ch.old ++ was,
            remain := if cdHostSrc ch.desc then ch.remain else ch.remain - bs.length,
            reads := ch.reads.filter (fun r => r.pos != ch.done) }) d2
          settleChan env c (issueReads env c 64 d3))

/-- AGE_TICKS as it acts (R345). -/
def ageTicks (d : Dev) : Nat := max 250 (fld d.cch.ctrl 0 16)

/-- AGE_TICKS_EXPIRY: a channel has had a beat ready for AGE_TICKS without a grant (R327). -/
def execAgeTicksExpiry (channel : Nat) (s : State) : Host.Outcome State Fault Refusal :=
  onDev s (fun env d =>
    let ch := chanOf d channel
    if channel < 64 && beatReady d ch && ch.readySince + ageTicks d ≤ env.tick
    then updChan channel (fun ch => { ch with aged := true }) d else d)

/-! ### Host reads (R97, R336–R341) -/

/-- A host read of a channel fails with a host access failure code. -/
def readFailed (env : Env) (c pos : Nat) (code : Byte) (d : Dev) : Dev :=
  let ch := chanOf d c
  let d1 := couchHostFail env ch code d
  settleChan env c (failBeat c pos 8 (updChan c (fun ch => { ch with reads := ch.reads.filter (fun r => r.pos != pos) }) d1))

/-- A host read returns to a channel; one past its completion timeout is dropped, the request failing (R97). -/
def couchReadDone (env : Env) (c pos : Nat) (data : Rd) (d : Dev) : Dev :=
  let ch := chanOf d c
  match ch.reads.find? (fun r => r.pos == pos && r.data.isNone) with
  | none => d
  | some r =>
    if r.tick + ctoTicks d ≤ env.tick then readFailed env c pos 0x11 d
    else match data with
    | .fail e => readFailed env c pos (errCode e) d
    | .ok bs =>
      updChan c (fun ch => { ch with
        readySince := if pos = ch.done then env.tick else ch.readySince,
        reads := ch.reads.map (fun r => if r.pos == pos then { r with data := some (.ok bs) } else r) }) d

/-- Records have been freed: a channel waiting for them goes on (R341). -/
def recordsFreed (env : Env) (c : Nat) (d : Dev) : Dev :=
  let ch := chanOf d c
  if ch.st == .waitRecords && ch.records.length < 64 then
    settleChan env c (issueReads env c 64 (updChan c (fun ch => { ch with st := .run }) d))
  else d

/-- The PCIe completion timeout of a channel's read: the beat fails, or the record of a late read is freed (R97, R340). -/
def couchReadTimeout (env : Env) (c pos : Nat) (d : Dev) : Dev :=
  let ch := chanOf d c
  let late (tick : Nat) : Bool := tick + ctoTicks d ≤ env.tick
  match ch.records.find? (fun r => r.pos == pos && late r.tick) with
  | some r => recordsFreed env c (updChan c (fun ch => { ch with records := ch.records.erase r }) d)
  | none =>
    match ch.reads.find? (fun r => r.pos == pos && r.data.isNone) with
    | some r => if late r.tick then readFailed env c pos 0x11 d else d
    | none => d

/-- DESC_TIMEOUT: a beat's read has taken longer than TIMEOUT, which never fires past the PCIe completion timeout (R339). -/
def execDescTimeout (channel : Nat) (s : State) : Host.Outcome State Fault Refusal :=
  onDev s (fun env d =>
    let ch := chanOf d channel
    let limit := 250 * cdTimeout ch.desc
    if 64 ≤ channel || ch.st != .run || limit = 0 || ctoTicks d < limit then d
    else match ch.reads.find? (fun r => r.data.isNone && r.tick + limit ≤ env.tick) with
      | none => d
      | some r => settleChan env channel (failBeat channel r.pos 0x10 d))

/-- Data for a record is discarded and counted, and the record is free (R340, R341, R346). -/
def lateData (env : Env) (c : Nat) (r : LateRead) (d : Dev) : Dev :=
  let d1 := { d with cch := { d.cch with late := d.cch.late + 1 } }
  recordsFreed env c (updChan c (fun ch => { ch with records := ch.records.erase r })
    (event env 0x0902 2 clsProtocol r.vat c r.did r.pos (setCause env 9 4 d1)))

/-- LATE_COMPLETION: data arrives for a record of a descriptor that has ended; it is discarded (R340). The row names the stream
position and not the tag: of several records at it, a free value says whose data has come (DESIGN CHOICE, log 155). -/
def execLateCompletion (channel : Nat) (pos : Nat) (s : State) : Host.Outcome State Fault Refusal :=
  onDev s (fun env d =>
    match (chanOf d channel).records.filter (fun r => r.pos == pos && env.tick < r.tick + ctoTicks d) with
    | [] => d
    | [r] => lateData env channel r d
    | r :: rs =>
      let f := takeFree d
      lateData env channel ((r :: rs).getD (f.1.toNat % (rs.length + 1)) r) f.2)

/-! ### Resets (R342–R344) -/

/-- A reset of the host side meets one channel: a descriptor whose source is the host ends with 0x07, whatever failed before,
unless every beat is written (R343). -/
def resetChan (env : Env) (d : Dev) (c : Nat) : Dev :=
  let ch := chanOf d c
  if ch.st == .waitRecords then endDesc env c 7 d
  else if ch.st != .run then d
  else if cdHostDst ch.desc then endDesc env c 7 d
  else if cdHostSrc ch.desc then
    let pos := cdTotal ch.desc - ch.remain
    settleChan env c (updChan c (fun ch => { ch with failAt := some (match ch.failAt with
      | some f => min f.1 pos
      | none => pos, 7) }) d)
  else d

/-- A reset of the host side meets every channel. -/
def resetCouch (env : Env) (d : Dev) : Dev := (List.range 64).foldl (resetChan env) d

/-- Device reset and power-on reset clear every channel, pending list and record (R344). -/
def clearCouch (d : Dev) : Dev :=
  { d with cch := { d.cch with chans := Vector.replicate 64 {}, pend := [], lastGrant := 0, grants := Vector.replicate 8 0 } }

end Sys2Proof.Machine
end

