-- ==== Sys2Proof/Machine/CalUnit.lean ====
section
/-! DEFINITION. The calender's posts (06, R193–R202): encoding and decoding of tiles and of 64 KiB pieces. What a coded
form looks like the manual leaves open: its length and bytes are free values, and the model keeps beside each what it
decodes to (log 12). -/

namespace Sys2Proof.Machine

/-- The coded form of raw bytes: RAW, the uncoded bytes, when it would not be smaller. Answers it with its flag. -/
def codedForm (mode : Nat) (v' : List Byte) (d : Dev) : List Byte × Bool × Dev :=
  let f := takeFree d
  let n := f.1.toNat % 2 ^ 32
  if heldRaw mode n v'.length then
    (v', true, { f.2 with cal := { f.2.cal with book := (v', v') :: f.2.cal.book } })
  else
    let b := takeFreeBytes n f.2
    (b.1, false, { b.2 with cal := { b.2.cal with book := (b.1, v') :: b.2.cal.book } })

/-- What a coded form decodes to: itself when it is as long as the decoded data, what the record says, else free bytes. -/
def decodedForm (n : Nat) (coded : List Byte) (d : Dev) : List Byte × Dev :=
  if coded.length = n then (coded, d)
  else match d.cal.book.find? (fun x => x.1 == coded && x.2.length == n) with
    | some x => (x.2, d)
    | none => takeFreeBytes n d

/-- Lines of n bytes at a pitch, from memory and back to it. -/
def readLines (t : Task) (d : Dev) (a n pitch : Nat) : Nat → List Byte
  | 0 => []
  | k + 1 => readFor t d a n ++ readLines t d (a + pitch) n pitch k
def writeLines (t : Task) (a n pitch : Nat) : Nat → List Byte → Dev → Dev
  | 0, _, d => d
  | k + 1, bs, d => writeLines t (a + pitch) n pitch k (bs.drop n) (storeFor t a (bs.take n) d)

/-- Pixels of packed bytes. -/
def pixelsOf (b : Nat) (swap : Bool) : Nat → List Byte → List Nat
  | 0, _ => []
  | k + 1, bs => pixelAt bs 0 b swap :: pixelsOf b swap k (bs.drop b)

/-- Key hash and keyspace of a task's command, for the calender's events (R205). -/
def taskHash (t : Task) : Nat := (keyHash (BitVec.ofNat 8 (capKsid t.capsule)) t.key).toNat % 2 ^ 32

/-- RESULT of an encode (R202). -/
def encodeResult (n : Nat) (raw exact : Bool) : Word := BitVec.ofNat 64 (n + b2n raw * 2 ^ 32 + b2n exact * 2 ^ 33)

/-- ENCODE_TILE: codes the tile, verifying a lossy one always and a lossless one under VERIFY_LOSSLESS (R194–R196). -/
def execEncodeTile (p : PostRef) (lane : Nat) (verify : Verify) (s : State) : Host.Outcome State Fault Refusal :=
  unitStep p 1 0 (fun env t x d =>
    let c := x.desc
    let mode := cap c 0 1
    let ptype := cap c 1 1
    let b := bpp ptype
    let w := cap c 2 2
    let h := cap c 4 2
    let param := cap c 20 4
    let floorT := cap c 24 4
    let pitch := if cap c 16 4 = 0 then w * b else cap c 16 4
    if !laneOn d lane then d
    else
      let v := pixelsOf b (bitOf c 48) (w * h) (readLines t d (cap c 8 8) (w * b) pitch h)
      let v' := v.map (recon ptype mode param floorT)
      let raw := pixelBytes ptype v'
      let seen := verdict verify (firstUnmet ptype mode param floorT v v')
      let ok := if lossy mode then verifyLossy env seen lane mode ptype param (capKsid t.capsule) (taskHash t) d
        else (true, if fallsBack d verify then losslessFallback env lane mode ptype d else d)
      let d1 := chargeCodings raw.length (if lossy mode then codings seen else 1) ok.2
      if !ok.1 then finishPost p 0x13 0 d1
      else
        let f := if !lossy mode && fallsBack d verify then (raw, true, d1) else codedForm mode raw d1
        let d2 := countTiles 1 (b2n f.2.1) (storeFor t (cap c 32 8) f.1 f.2.2)
        finishPost p 0 (encodeResult f.1.length f.2.1 (v == v')) d2) s

/-- A decode that cannot be done: its event and cause (R202, R205). A post names no tile or piece, so P2 of the event is a free
value (DESIGN CHOICE, log 130). -/
def unitDecodeError (env : Env) (p : PostRef) (t : Task) (lane : Nat) (d : Dev) : Dev :=
  let f := takeFree d
  finishPost p 0x0B 0 (event env 0x0804 5 clsMedia lane (capKsid t.capsule) (taskHash t) (f.1.toNat % 2 ^ 32)
    (setCause env 8 8 f.2))

/-- DECODE_TILE: writes v′ at DST (R201, R202); `good` tells whether the coded data can be decoded. -/
def execDecodeTile (p : PostRef) (lane : Nat) (good : Bool) (s : State) : Host.Outcome State Fault Refusal :=
  unitStep p 1 1 (fun env t x d =>
    let c := x.desc
    let b := bpp (cap c 1 1)
    let w := cap c 2 2
    let h := cap c 4 2
    let pitch := if cap c 40 4 = 0 then w * b else cap c 40 4
    if !laneOn d lane then d
    else if !good then unitDecodeError env p t lane d
    else
      let r := decodedForm (w * h * b) (readFor t d (cap c 8 8) (cap c 16 4)) d
      finishPost p 0 (BitVec.ofNat 64 (w * h * b))
        (chargeDecode (w * h * b) (writeLines t (cap c 32 8) (w * b) pitch h r.1 r.2))) s

/-- ENCODE_BYTES: codes up to 64 KiB as CAL1 (R201). -/
def execEncodeBytes (p : PostRef) (lane : Nat) (s : State) : Host.Outcome State Fault Refusal :=
  unitStep p 1 2 (fun _ t x d =>
    let c := x.desc
    let v := readFor t d (cap c 8 8) (cap c 16 4)
    if !laneOn d lane then d
    else
      let f := codedForm 1 v (chargeEncode v.length d)
      finishPost p 0 (encodeResult f.1.length f.2.1 true) (countTiles 1 (b2n f.2.1) (storeFor t (cap c 32 8) f.1 f.2.2))) s

/-- The bytes a coded piece decodes to; how many there are, up to the room at DST, the piece itself says, and where the
model has no record of it the manual leaves that open. -/
def decodedPiece (room : Nat) (coded : List Byte) (d : Dev) : List Byte × Dev :=
  match d.cal.book.find? (fun x => x.1 == coded && x.2.length ≤ room) with
  | some x => (x.2, d)
  | none =>
    let f := takeFree d
    takeFreeBytes (f.1.toNat % (min room 65536 + 1)) f.2

/-- DECODE_BYTES: writes the bytes of a CAL1 piece at DST (R201, R202). -/
def execDecodeBytes (p : PostRef) (lane : Nat) (good : Bool) (s : State) : Host.Outcome State Fault Refusal :=
  unitStep p 1 3 (fun env t x d =>
    let c := x.desc
    if !laneOn d lane then d
    else if !good then unitDecodeError env p t lane d
    else
      let r := decodedPiece (cap c 28 4) (readFor t d (cap c 8 8) (cap c 16 4)) d
      finishPost p 0 (BitVec.ofNat 64 r.1.length) (chargeDecode r.1.length (storeFor t (cap c 32 8) r.1 r.2))) s

end Sys2Proof.Machine
end

