-- ==== Sys2Proof/Machine/Media.lean ====
section
/-! DEFINITION. Media (07): the MEDIA unit's posts, deferred errors, programming and its failures, the closing of quires,
retirement, failed dies and the entry to WORN. -/

namespace Sys2Proof.Machine

/-! ### The MEDIA unit (R214, R228) -/

/-- Class a MEDIA WRITE is charged to; journal records under WORN go to WC1 (R231, R362). -/
def writeClass (d : Dev) (t : Task) (stream : Nat) : Nat :=
  if stream = 3 then t.wclass else if stream = 6 || (stream = 4 && d.trl.worn) then 1 else 4

/-- Class a MEDIA READ is charged to (R362). -/
def readClass (t : Task) : Nat :=
  if t.wclass = 6 || t.wclass = 7 || t.wclass = 8 || t.wclass = 10 then t.wclass else 5

/-- A unit's work charged to a class: the posting task's group spends it where the class is its own. -/
def chargeClass (t : Task) (cls units : Nat) (d : Dev) : Dev :=
  if cls = t.wclass then chargeFor cls t.group units d else charge cls units d

/-- A MEDIA WRITE that completes is charged for its sheets (R362). -/
def chargeWrite (t : Task) (x : Post) (slc : Bool) (d : Dev) : Dev :=
  chargeClass t (writeClass d t (cap x.desc 0 1)) (energyFlat (if slc then 8200000 else 10500000) (cap x.desc 2 2) 1) d

/-- MEDIA WRITE: places sheets in open quires; with DURABLE it completes, and is charged, when they are on media. New sheets of the
host, frame and record streams wait while free reams are below FREE_URGENT (R228, R236). -/
def execMediaWrite (p : PostRef) (s : State) : Host.Outcome State Fault Refusal :=
  unitStep p 3 1 (fun env t x d =>
    let c := x.desc
    let stream := cap c 0 1
    let n := cap c 2 2
    let slc := wantsSlc d stream (bitOf c 9)
    if stream < 3 && freeReams env d < freeUrgent d then d
    else
      let sheets := (List.range n).map (fun i =>
        (⟨readFor t d (cap c 16 8 + 4096 * i) 4096, BitVec.ofNat 128 (leNat (readFor t d (cap c 24 8 + 16 * i) 16)), false⟩ : Sheet))
      match placeSheets env stream slc sheets d with
      | none => d
      | some (psas, d1) =>
        let d2 := storeFor t (cap c 32 8) (psas.flatMap (natLe 8)) d1
        if bitOf c 8 then updPost p (fun y => { y with st := .working, psas := psas }) d2
        else finishPost p 0 0 (chargeWrite t x slc d2)) s

/-- MEDIA READ: `ends` says, page by page, where the recovery of R214 ended; sheets of quires not yet programmed come from
felt (R212, R228). -/
def execMediaRead (p : PostRef) (ends : List ReadEnd) (s : State) : Host.Outcome State Fault Refusal :=
  unitStep p 3 0 (fun env t x d =>
    let c := x.desc
    let psas := psaRun d (cap c 8 8) (cap c 2 2)
    let rd := readPages env psas ends (chargeClass t (readClass t) (readUnits d psas) d)
    if rd.1.any (fun y => y.2.1 == .unrecoverable) then finishPost p 0x0B 0 rd.2
    else
      let r := sheetsAt psas rd.2
      let d2 := storeFor t (cap c 16 8) (r.1.flatMap (fun s => slice s.data 0 4096)) r.2
      let d3 := if cap c 24 8 = 0 then d2 else storeFor t (cap c 24 8) (r.1.flatMap (fun s => natLe 16 s.tag.toNat)) d2
      let level := (rd.1.map (fun y => y.2.2)).foldl max 0
      let method := (rd.1.map (fun y => endMethod y.2.1)).foldl max 0
      finishPost p 0 (BitVec.ofNat 64 (level + 16 * method)) d3) s

/-- Reads of the pages on media that some sheets lie in count for their blocks (R242). -/
def countReads (psas : List Nat) (d : Dev) : Dev :=
  (pagesOf (psas.filter (fun p => (psaRef d p).isNone || psaOnMedia d p))).foldl (fun d p => countRead p d) d

/-- READ_RAW: what undecoded sheets read as is left open; STATUS 0x00 always (R228). -/
def execReadRaw (p : PostRef) (s : State) : Host.Outcome State Fault Refusal :=
  unitStep p 3 3 (fun _ t x d =>
    let c := x.desc
    let n := cap c 2 2
    let psas := psaRun d (cap c 8 8) n
    let f := takeFreeBytes (4096 * n) (countReads psas (chargeClass t (readClass t) (readUnits d psas) d))
    finishPost p 0 0 (storeFor t (cap c 16 8) f.1 f.2)) s

/-! ### Deferred errors (R120, R396) -/

/-- An entry of the deferred-error log, in which layout the drain manifest has its entries too (R396, R461). -/
def defBytes (e : DefErr) : List Byte :=
  natLe 8 e.opid.toNat ++ natLe 8 e.hash.toNat ++ natLe 4 e.version.toNat ++ [e.ksid, e.opc] ++ natLe 1 e.cause ++
  natLe 1 0 ++ natLe 8 e.tick

/-- A deferred error: its log entry, the cause bit, and the flag in the next completion of the pair that submitted the write,
where it still exists: not one created again under its QID, nor one of an earlier enable (R120). -/
def deferError (env : Env) (h : Held) (cause : Nat) (d : Dev) : Dev :=
  let q := d.hqe
  let e : DefErr := ⟨h.opid, h.hash, h.version, h.ksid, h.opc, cause, env.tick⟩
  let q1 := if q.deferred.length < 16384 then { q with deferred := q.deferred ++ [e] }
    else { q with defLost := q.defLost + 1 }
  let d1 := hqeCause env 0x10 { d with hqe := q1 }
  match h.sqid with
  | some n =>
    if h.hostGen = d.hqe.hostGen then updPair n (fun p => if p.born ≤ h.arrNo then { p with deferred := true } else p) d1 else d1
  | none => d1

/-- Data of a held write that will not reach media: the version stays committed, and a read that needs it fails until a later
write replaces it (R517). An INLINE value's is its only sheet. -/
def loseRun (h : Held) (r : Run) (d : Dev) : Dev :=
  let sheets (o : Obj) : List Nat := if r.kind = 1 then [0] else if !r.coded || o.frame.isSome then [r.no]
    else (match o.coded.find? (fun c => c.no == r.no) with | some c => (List.range c.sheets).map (· + c.no) | none => [])
  let hit (s : Slot) (o : Obj) : Bool :=
    if r.kind = 1 then s.version == h.version
    else r.kind == 0 && (if r.coded then o.coded.any (fun c => c.no == r.no && c.loc == .felt h.id)
      else o.map.any (fun e => e.1 == r.no && e.2 == .felt h.id))
  let d1 := updSlot h.slot (fun s =>
    if s.live && s.objId == h.objId then
      { s with obj := s.obj.map (fun o => if hit s o then { o with bad := mergeSheets o.bad (sheets o) } else o) }
    else s) d
  updHeld h.id (fun x => { x with runs := x.runs.filter (fun y => y != r) }) d1

/-! ### Programming (R211, R212, R244) -/

/-- A durable media write whose sheets are all on media. -/
def durableDone (d : Dev) (p : Post) : Bool := p.st == .working && p.unit == 3 && p.pf == 1 && p.psas.all (psaOnMedia d)

/-- Durable media writes whose sheets are all on media complete and are charged (R228, R362). -/
def finishDurable (d : Dev) : Dev :=
  let done := d.mea.tasks.flatMap (fun t => (t.posts.filter (durableDone d)).map (fun p => (t, p)))
  let slc (p : Post) : Bool := match (p.psas.head?).bind (reamOf d) with | some x => x.2.slc | none => false
  done.foldl (fun d x => chargeWrite x.1 x.2 (slc x.2) d)
    { d with mea := { d.mea with tasks := d.mea.tasks.map (fun t => { t with posts := t.posts.map (fun p =>
      if durableDone d p then { p with st := .finished, compl := {} } else p) }) } }

/-- Die keys of the members and parity of a ream. -/
def reamDies (r : Nat) (x : Ream) : List Nat :=
  x.all.map (fun pos => dieKey (groupChannel (reamGroup r) pos) (groupDie (reamGroup r)))

/-- Sheets of a quire that have been placed. -/
def quirePsas (d : Dev) (r : Nat) (x : Ream) (q : Nat) : List Nat :=
  (List.range (min x.quireSheets (x.placed - q * x.quireSheets))).map (fun i => sheetPsa d r x (q * x.quireSheets + i))

/-- A sheet has another place: whatever named the one names the other; of the map and of a record only what still names it
(R238). -/
def renamePsa (p q : Nat) (d : Dev) : Dev :=
  let loc (l : Loc) : Loc := if l = .psa p then .psa q else l
  let obj (o : Obj) : Obj := { o with map := o.map.map (fun e => (e.1, loc e.2)), coded := o.coded.map (fun c => { c with loc := loc c.loc }) }
  let old (o : Option Obj) : Option Obj := o.map obj
  let rec_ (r : Word) : Word := if !bitOf r 63 && r != 0 && r.toNat % 2 ^ 40 == p then setFld r 0 40 q else r
  { d with
    kdr := { d.kdr with slots := d.kdr.slots.map (fun x => (x.1, { x.2 with obj := x.2.obj.map obj, record := rec_ x.2.record })) },
    trl := { d.trl with jSheets := d.trl.jSheets.map (fun x => if x.1 = p then (q, x.2) else x) },
    flt := { d.flt with held := d.flt.held.map (fun h => { h with prev := old h.prev, runs := h.runs.map (fun r =>
      { r with psas := r.psas.map (fun a => if a = p then q else a) }) }) } }

/-- A sheet not yet on media is placed again by itself, with its REMAP record where a map or a RECORD may name it; posts that wait
for it, and reads that hold it, follow (R232, R244). -/
def replaceSheet (env : Env) (x : Ream) (p : Nat) (d : Dev) : Dev :=
  match tblGet d.trl.sheets p with
  | none => d
  | some sh =>
    let d0 := { d with trl := { d.trl with sheets := tblErase d.trl.sheets p } }
    if tagKind sh.tag = 5 then d0
    else match placeStretch env x.stream x.slc [sh] d0 with
      | none => d
      | some y =>
        let q := y.1.headD 0
        let go (l : List Nat) : List Nat := l.map (fun a => if a = p then q else a)
        let d1 := renamePsa p q (if tagKind sh.tag = 3 then y.2 else addJournal .remap p q 1 y.2)
        { d1 with mea := { d1.mea with tasks := d1.mea.tasks.map (fun t =>
            { t with posts := t.posts.map (fun z => { z with psas := go z.psas }), job := { t.job with psas := go t.job.psas } }) } }

/-- A run of a held write some of whose sheets are not to be programmed waits in felt again: the map names felt. -/
def unplaceRuns (lost : List Nat) (h : Held) (d : Dev) : Dev :=
  let hit (r : Run) : Bool := r.kind != 1 && r.psas.any (fun p => lost.contains p)
  let back (l : Loc) : Loc := match l with
    | .psa p => if h.runs.any (fun r => hit r && r.psas.head? == some p) then .felt h.id else l
    | _ => l
  let d1 := updSlot h.slot (fun s =>
    if s.live && s.objId == h.objId then
      { s with obj := s.obj.map (fun o => { o with map := o.map.map (fun e => (e.1, back e.2)),
                                                   coded := o.coded.map (fun c => { c with loc := back c.loc }) }) }
    else s) d
  updHeld h.id (fun x => { x with runs := x.runs.map (fun r => if hit r then { r with psas := [] } else r) }) d1

/-- Nothing can be placed for the host streams, now or after broke: no ream is free, and none is open that broke could copy to
(R396 CAUSE 3; R247). -/
def nowhere (env : Env) (d : Dev) : Bool := freeReams env d = 0 && (openReam d 3 false).isNone

/-- Runs that cannot be placed after a program failure are lost: an acknowledged write's become a deferred error with CAUSE 3
(R120, R396, R517). -/
def loseUnplaced (env : Env) (d : Dev) : Dev :=
  if !nowhere env d then d
  else d.flt.held.foldl (fun d h =>
    let rs := h.runs.filter (fun r => r.psas.isEmpty && r.kind != 1 && r.kind != rawKind)
    if rs.isEmpty then d
    else
      let d1 := rs.foldl (fun d r => loseRun h r d) d
      if h.acked.isSome then deferError env h 3 d1 else d1) d

/-- The checkpoint sheets of a quire that will not be programmed are written again; where no room is left the round starts over
(R233, R244). -/
def replaceBulk (env : Env) (x : Ream) (q : Nat) (d : Dev) : Dev :=
  let lo := q * x.quireSheets
  x.bulk.foldl (fun d b =>
    let a := max lo b.at_
    let n := min (lo + x.quireSheets) (b.at_ + b.len) - a
    let y := placeBulk env 5 (n + 1) (b.cont + (a - b.at_)) n d
    if bulkCount y.1 < n then { y.2 with trl := { y.2.trl with segs := [] } } else y.2) d

/-- The data of a quire that will not be programmed, still in protected felt, is placed again in other quires of its stream: the
stretches of held writes whole, every other sheet by itself; a relocation that copied to it copies again (R212, R244
step 1). -/
def replaceQuire (env : Env) (r : Nat) (x : Ream) (q : Nat) (d : Dev) : Dev :=
  let lost := quirePsas d r x q
  let held := d.flt.held.filter (fun h => h.runs.any (fun y => y.kind != 1 && y.psas.any (fun p => lost.contains p)))
  let runPsas := held.flatMap (fun h => (h.runs.filter (fun y => y.kind != 1)).flatMap (·.psas))
  let d1 := held.foldl (fun d h => unplaceRuns lost h d) d
  let copies := (d1.trl.moves.filter (fun m => m.moves.any (fun y => lost.contains y.2))).flatMap (fun m => m.moves.map (·.2))
  let d2 := { d1 with trl := { d1.trl with
    moves := d1.trl.moves.map (fun m => if m.st == .copying && m.moves.any (fun y => lost.contains y.2)
      then { m with st := .queued, moves := [] } else m),
    sheets := d1.trl.sheets.filter (fun e => !(lost.contains e.1 && (runPsas.contains e.1 || copies.contains e.1))) } }
  let d3 := replaceBulk env x q (lost.foldl (fun d p => replaceSheet env x p d) d2)
  held.foldl (fun d h => placeHeld env h.id d) d3

/-! ### Closing quires (R104, R163, R213) -/

/-- Held writes that a durable completion, a FLUSH or a streamed write waits for. -/
def wantedHeld (d : Dev) : List Held :=
  let waits (j : Job) : Bool := match j.phase with | .media _ => true | .stream _ => true | _ => false
  let ids := d.mea.tasks.flatMap (fun t => (if waits t.job then t.job.heldIds else []) ++
    t.members.flatMap (fun m => if waits m.job then m.job.heldIds else []))
  let flush (h : Held) : Bool := d.mea.tasks.any (fun t => (match t.job.phase with | .flush _ => true | _ => false) &&
    (match h.acked with | some n => decide (n ≤ t.arrNo) | none => false))
  d.flt.held.filter (fun h => ids.contains h.id || flush h)

/-- The drive drains for a shutdown or a change of power state. -/
def drainsAll (env : Env) (d : Dev) : Bool := d.hqe.shutdown || env.pw.trans != .none || env.pw.resetStep.isSome

/-- Something waits for journal records (R23, R163, R232, R234, R237). -/
def wantsJournal (d : Dev) : Bool :=
  (wantedHeld d).any (fun h => d.trl.jDurable < h.jseq) || d.trl.moves.any (fun m => m.st == .remapping || m.st == .erasing)

/-- Sheets that a write with DURABLE, a FLUSH, a durable media write or a relocation needs on media. -/
def wantedPsas (d : Dev) : List Nat :=
  (wantedHeld d).flatMap (fun h => h.runs.flatMap (·.psas)) ++
  d.mea.tasks.flatMap (fun t => (t.posts.filter (fun p => p.st == .working && p.unit == 3)).flatMap (·.psas)) ++
  (d.trl.moves.filter (fun m => m.st == .copying)).flatMap (fun m => m.moves.map (·.2)) ++
  (if wantsJournal d then (d.trl.jSheets.filter (fun x => !psaOnMedia d x.1)).map (·.1) else [])

/-- Something waits for media. -/
def mediaWanted (env : Env) (d : Dev) : Bool := drainsAll env d || wantsJournal d || !(wantedHeld d).isEmpty || !(wantedPsas d).isEmpty

/-- CLOSE_TICKS as it acts (R248). -/
def closeTicks (d : Dev) : Nat := min 25000 (max 250 (fld d.trl.quireReg 0 16))

/-- The open quire of a ream is to close: its time has run out, everything drains, or it holds a sheet that is needed (R213). -/
def quireDue (env : Env) (d : Dev) (x : Nat × Ream) : Bool :=
  match x.2.quireTick with
  | none => false
  | some t => decide (t + closeTicks d ≤ env.tick) || drainsAll env d || (wantedPsas d).any (fun p =>
      match psaRef d p with | some (r, _, n) => r == x.1 && n / max 1 x.2.quireSheets == x.2.placed / max 1 x.2.quireSheets | none => false)

/-- Record and journal sheets that are not full are placed: something waits for media, or the oldest record has waited for
CLOSE_TICKS. When such a sheet is written the manual does not say (DESIGN CHOICE, log 123). -/
def partDue (env : Env) (d : Dev) : Bool :=
  mediaWanted env d || (if d.trl.staged.isEmpty then !(unplaced d).isEmpty else decide (d.trl.stagedAt + closeTicks d ≤ env.tick))

/-- QUIRE_CLOSE: open quires whose time has run out, or that hold a sheet something waits for, close with pad sheets (R213). -/
def execQuireClose (s : State) : Host.Outcome State Fault Refusal :=
  onDev s (fun env d =>
    let d1 := if partDue env d then placeAll env true d else d
    (d1.trl.reams.filter (quireDue env d1)).foldl (fun d x => padQuire env x.1 d) d1)

/-! ### WORN, retirement and spares (R244–R247) -/

/-- Spares left in a plane (R245; log 5 for the number shipped). -/
def sparesLeft (d : Dev) (k : Nat) : Nat := 64 - tblGetD d.trl.sparesUsed k 0

/-- Entry to WORN: cause 1 spares, with the plane's channel, 2 physical space (R247, R249). -/
def enterWorn (env : Env) (cause channel : Nat) (d : Dev) : Dev :=
  if d.trl.worn then d
  else
    let d1 := addJournal .worn cause 0 0 { d with trl := { d.trl with worn := true } }
    event env 0x0C03 6 clsMedia channel cause (freeReams env d1) 0 (setCause env 12 1 d1)

/-- SPARE_WARN as it acts. -/
def spareWarn (d : Dev) : Nat := max 3 (fld d.trl.wearReg 16 8)

/-- The place in the ream table that a physical block fills, as ream × 16 + position: that of its own number, unless another
block stands there, or the one it has been substituted into (R210, R245). -/
def blockOwner (d : Dev) (psa : Nat) : Option Nat :=
  let own := reamKey (psaGroup psa) (psaPlane psa) (psaBlock psa) * 16 + psaPos psa
  match d.trl.remap.find? (fun e => e.2 == psaBlock psa && e.1 % 16 == psaPos psa && reamGroup (e.1 / 16) == psaGroup psa &&
      reamPlane (e.1 / 16) == psaPlane psa) with
  | some e => some e.1
  | none => if psaBlock psa < 1760 && (tblGet d.trl.remap own).isNone then some own else none

/-- The next spare of the plane a block lies in: not in use, and not retired. -/
def nextSpare (d : Dev) (psa : Nat) : Option Nat :=
  let here (e : Nat × Nat) : Bool := e.1 % 16 == psaPos psa && reamGroup (e.1 / 16) == psaGroup psa && reamPlane (e.1 / 16) == psaPlane psa
  if sparesLeft d (psaPlaneKey psa) = 0 then none
  else ((List.range 64).map (· + 1760)).find? (fun b => !d.trl.remap.any (fun e => here e && e.2 == b) &&
    !(tblGetD d.trl.blocks (psaPlaneKey psa * 1824 + b) {}).retired)

/-- A block is retired, and a spare takes its place in its ream; one that stood in no ream was a spare itself (R244, R245).
Cause: 1 erase, 2 program, 3 read. -/
def retireBlock (env : Env) (psa cause : Nat) (d : Dev) : Dev :=
  let k := psaBlockKey psa
  if (tblGetD d.trl.blocks k {}).retired then d
  else
    let pk := psaPlaneKey psa
    let d1 := updBlock k (fun b => { b with retired := true, retireQ := none }) d
    let spare := match blockOwner d psa with | some _ => nextSpare d1 psa | none => none
    let remap := match blockOwner d psa, spare with
      | some m, some b => tblSet d1.trl.remap m b
      | _, _ => d1.trl.remap
    let d2 := { d1 with trl := { d1.trl with remap := remap, sparesUsed := tblUpd d1.trl.sparesUsed pk 0 (· + 1) } }
    let left := sparesLeft d2 pk
    let d3 := event env 0x0C01 3 clsMedia (psaChannel psa) (psa / 2 ^ 14 * 2 ^ 14 % 2 ^ 32) cause left
      (setCause env 12 (if left ≤ spareWarn d2 then 0x42 else 2) (addJournal .retire psa cause (spare.getD 0) d2))
    if left < 2 && !d3.trl.failedDies.contains (psaDieKey psa) then enterWorn env 1 (psaChannel psa) d3 else d3

/-- A block with the ream's sheets that lie in it is empty. -/
def wipeBlock (psa : Nat) (d : Dev) : Dev :=
  { d with trl := { d.trl with sheets := d.trl.sheets.filter (fun e => psaBlockKey e.1 != psaBlockKey psa),
                               wseqs := d.trl.wseqs.filter (fun e => psaBlockKey (4 * e.1) != psaBlockKey psa),
                               badPsas := d.trl.badPsas.filter (fun p => psaBlockKey p != psaBlockKey psa) } }

/-- An erase adds wear, 3 for TLC and 1 for SLC, and starts the read count again; a die that erased is not failing (R241,
R246). -/
def wearBlock (psa : Nat) (slc : Bool) (d : Dev) : Dev :=
  let d1 := updBlock (psaBlockKey psa) (fun b => { b with wear := b.wear + (if slc then 1 else 3), reads := 0, level := 0 }) (wipeBlock psa d)
  { d1 with trl := { d1.trl with dieFails := tblErase d1.trl.dieFails (psaDieKey psa) } }

/-- Quires of a ream that hold sheets and are not on media. -/
def unprogrammed (x : Ream) : List Nat :=
  (List.range ((x.placed + x.quireSheets - 1) / max 1 x.quireSheets)).filter (fun q => !x.programmedQ.contains q)

/-- A ream takes no more, and nothing more of it is programmed: it closes, and what it holds in felt is placed elsewhere. -/
def abandonReam (env : Env) (r : Nat) (d : Dev) : Dev :=
  match tblGet d.trl.reams r with
  | none => d
  | some x => loseUnplaced env ((unprogrammed x).foldl (fun d q => replaceQuire env r x q d)
      (updReam r (fun x => { x with closedQ := x.programmedQ }) (closeReam r d)))

/-- The rebuild of a failed die's group has ended: cause and event (R246, R248, R249). -/
def dieRebuilt (env : Env) (k : Nat) (d : Dev) : Dev :=
  let n := tblGetD d.trl.rebuilding k 0
  event env 0x0C02 5 clsMedia (k / 24) (k / 24) (k % 24) n
    (setCause env 12 4 { d with trl := { d.trl with rebuilding := tblErase d.trl.rebuilding k } })

/-- Rebuilds that have no ream left to rebuild end. -/
def settleRebuilds (env : Env) (d : Dev) : Dev :=
  (d.trl.rebuilding.filter (fun e => !d.trl.reams.any (fun x => x.2.rebuild && reamGroup x.1 == 2 * (e.1 % 24) + e.1 / 24 / 16))).foldl
    (fun d e => dieRebuilt env e.1 d) d

/-- A die has failed: it is used no more, its group's reams wait to be rebuilt without it, and a group with fewer than 12 live
dies is retired, its data to move elsewhere (R246). -/
def failDie (env : Env) (channel die : Nat) (d : Dev) : Dev :=
  let k := dieKey channel die
  if d.trl.failedDies.contains k then d
  else
    let g := 2 * die + channel / 16
    let d1 := event env 0x0B07 6 clsHardware channel channel die (tblGetD d.trl.dieFails k 0)
      (setCause env 11 8 { d with trl := { d.trl with failedDies := insertNat k d.trl.failedDies } })
    let d2 := addJournal .retire k 0 0 { d1 with trl := { d1.trl with
      rebuilding := tblSet d1.trl.rebuilding k 0,
      reams := d1.trl.reams.map (fun x => if reamGroup x.1 = g then (x.1, { x.2 with rebuild := true }) else x) } }
    let live := (livePos d2 g).length
    let d3 := if live < 12 && !d2.trl.retiredGroups.contains g then
        noteUrgent env (freeReams env d2) (event env 0x0C09 6 clsMedia channel g live 0
          (setCause env 12 4 (addJournal .retire g 1 0 { d2 with trl := { d2.trl with retiredGroups := insertNat g d2.trl.retiredGroups } })))
      else d2
    settleRebuilds env (((d3.trl.reams.filter (fun x => reamGroup x.1 == g)).map (·.1)).foldl (fun d r => abandonReam env r d) d3)

/-- One more consecutive failure of a die; the eighth fails it (R246). -/
def dieFailure (env : Env) (psa : Nat) (d : Dev) : Dev :=
  let k := psaDieKey psa
  let d1 := { d with trl := { d.trl with dieFails := tblUpd d.trl.dieFails k 0 (· + 1) } }
  if 8 ≤ tblGetD d1.trl.dieFails k 0 then failDie env (psaChannel psa) (psaDie psa) d1 else d1

/-- DIE_FAILED: a die gives no status within 50 ms, or has failed 8 operations in a row (R246). -/
def execDieFailed (channel die : Nat) (s : State) : Host.Outcome State Fault Refusal :=
  onDev s (fun env d => if channel < 32 && die < 24 then failDie env channel die d else d)

/-- A failed erase retires its block at once (R244, R249). -/
def eraseFailed (env : Env) (psa : Nat) (status : W32) (d : Dev) : Dev :=
  dieFailure env psa (retireBlock env psa 1
    (event env 0x0B06 3 clsMedia (psaChannel psa) (psa % 2 ^ 32) (psa / 2 ^ 32) status.toNat (setCause env 11 4 d)))

/-- ERASE_FAIL (R244). -/
def execEraseFail (psa : Nat) (status : W32) (s : State) : Host.Outcome State Fault Refusal :=
  onDev s (fun env d => if psaOk d psa then eraseFailed env psa status d else d)

/-- PROGRAM_FAIL: the quire's data is placed again, the ream is closed and refreshed, and the block is retired when the
ream is freed, be it a data member's or the parity member's (R244). R249 lists no cause for this refresh: it is queued as cause 2
(DESIGN CHOICE, log 146). -/
def execProgramFail (psa : Nat) (status : W32) (s : State) : Host.Outcome State Fault Refusal :=
  onDev s (fun env d =>
    if !psaOk d psa then d
    else
      let d1 := event env 0x0B05 3 clsMedia (psaChannel psa) (psa % 2 ^ 32) (psa / 2 ^ 32) status.toNat (setCause env 11 2 d)
      let d2 := updBlock (psaBlockKey psa) (fun b => { b with retireQ := some (b.retireQ.getD 2) }) d1
      match reamOf d2 psa with
      | none => dieFailure env psa d2
      | some (r, x) =>
        let q := psaPage psa / wlPages x.slc
        if x.programmedQ.contains q then dieFailure env psa d2
        else
          let d3 := closeReam r (padQuire env r d2)
          let d4 := updReam r (fun x => { x with refreshQ := some (x.refreshQ.getD 2), closedQ := x.closedQ.filter (· != q) }) d3
          dieFailure env psa (loseUnplaced env (replaceQuire env r x q d4)))

/-- ERASE: erases one block, with its record in the journal; a failure completes with 0x0B, and so does an ERASE on a failed die,
which is used no more (R228, R232, R241, R246). A block in no open or closed ream wears as a TLC block
(DESIGN CHOICE, log 145). -/
def execMediaErase (p : PostRef) (good : Bool) (s : State) : Host.Outcome State Fault Refusal :=
  unitStep p 3 2 (fun env t x d =>
    let psa := cap x.desc 8 8
    let slc := match reamOf d psa with | some (_, r) => r.slc | none => false
    let d1 := chargeFor t.wclass t.group (energyFlat 200000000 1 1) d
    if d.trl.failedDies.contains (psaDieKey psa) then finishPost p 0x0B 0 d1
    else if good then finishPost p 0 0 (addJournal .erased psa 1 0 (wearBlock psa slc d1))
    else
      let f := takeFree d1
      finishPost p 0x0B 0 (eraseFailed env psa (f.1.setWidth 32) f.2)) s

end Sys2Proof.Machine
end

