-- ==== Sys2Proof/Machine/Broke.lean ====
section
/-! DEFINITION. What the translation layer does by itself (07): programmed quires, relocation under the broke ordering with
broke, folding, refresh, wear levelling, rebuilds and patrol; checkpoints; the drain image (16, R460, R461) and recovery
(R235, R517). -/

namespace Sys2Proof.Machine

/-! ### Holds and validity (R236, R239) -/

/-- PSAs that reads hold: those commands have taken from the maps, and those of media reads under way (R239). -/
def heldPsas (d : Dev) : List Nat :=
  d.mea.tasks.flatMap (fun t =>
    (if t.st == .draining then [] else t.job.psas ++ (t.members.filter (fun m => m.verdict.isNone)).flatMap (fun m => m.job.psas)) ++
    (t.posts.filter (fun p => p.unit == 3 && (p.pf == 0 || p.pf == 3) && (p.st == .captured || p.st == .working))).flatMap
      (fun p => psaRun d (cap p.desc 8 8) (cap p.desc 2 2)))

/-- A PSA lies in a ream. -/
def inReam (d : Dev) (r p : Nat) : Bool := match reamOf d p with | some (k, _) => k == r | none => false

/-- The PSA a slot's RECORD names (R222). -/
def recordPsa (s : Slot) : Option Nat := if s.record = 0 || bitOf s.record 63 then none else some (s.record.toNat % 2 ^ 40)

/-- Stretches of sheets that follow one another on media: those of coded units, in the maps and in protected felt. -/
def unitRuns (d : Dev) : List (List Nat) :=
  d.kdr.slots.flatMap (fun x => match x.2.obj with
    | some o => o.coded.filterMap (fun c => match c.loc with | .psa p => some (psaRun d p c.span) | .felt _ => none)
    | none => []) ++
  d.flt.held.flatMap (fun h => (h.runs.filter (fun r => 1 < r.psas.length)).map (·.psas))

/-- PSAs that a map, a RECORD, protected felt, what a held write replaced or a relocation names, and those of journal sheets still needed (R233). -/
def namedPsas (d : Dev) : List Nat :=
  d.kdr.slots.flatMap (fun x => (match x.2.obj with | some o => o.psas d | none => []) ++ (recordPsa x.2).toList) ++
  d.flt.held.flatMap (fun h => h.runs.flatMap (·.psas) ++ (match h.prev with | some o => o.psas d | none => [])) ++
  (d.trl.jSheets.filter (fun x => d.trl.ckptSeq ≤ x.2)).map (·.1) ++ d.trl.moves.flatMap (fun m => m.moves.map (·.2))

/-- A placed sheet is valid: something names it, or nothing has yet had the time to. A sheet of tags is valid while its object
exists (log 126). -/
def sheetValid (d : Dev) (named : List Nat) (p : Nat) (sh : Sheet) : Bool :=
  !sh.claimed || named.contains p ||
  (tagKind sh.tag = tagSheetKind && d.kdr.slots.any (fun x => x.2.live && x.2.objId == tagObj sh.tag))

/-- Valid sheets of a ream, in quire order (R236). -/
def validPsas (d : Dev) (r : Nat) (x : Ream) : List Nat :=
  let named := namedPsas d
  ((List.range x.placed).map (sheetPsa d r x)).filter (fun p =>
    match tblGet d.trl.sheets p with | some sh => sheetValid d named p sh | none => false)

/-- Valid sheets of a ream, counted; those of checkpoints are, from the last complete round on (R233; log 125). -/
def validCount (d : Dev) (r : Nat) (x : Ream) : Nat :=
  if x.stream = 5 then (if d.trl.round ≤ x.round + 1 then x.placed else 0) else (validPsas d r x).length

/-! ### Relocation (R237–R240) -/

/-- A ream has an owner, or takes the data of one that has (R240). -/
def owned (d : Dev) (r : Nat) : Bool := d.trl.moves.any (fun m => m.ream == r || m.dst == some r)

/-- A claimant takes a ream: its work is an internal arrival (R48, R240). A second claimant skips the ream. -/
def startMove (env : Env) (r : Nat) (owner : ReamOwner) (cls : Nat) (dst : Option Nat) (d : Dev) : Dev :=
  if owned d r then d
  else
    let m : Move := { ream := r, owner := owner, arr := d.mea.nextArrival, cls := cls, dst := dst }
    addArrival { no := 0, kind := .internal, capsule := 0, source := 0, group := 0xFFFF, prio := 7, tick := env.tick, work := cls }
      { d with trl := { d.trl with moves := d.trl.moves ++ [m] } }

/-- The internal task that moves a ream, once dispatched. -/
def moveTask (d : Dev) (m : Move) : Option Task :=
  d.mea.tasks.find? (fun t => t.arrNo == m.arr && t.kind == .internal && t.st != .draining)

/-- Change a relocation. -/
def updMove (r : Nat) (f : Move → Move) (d : Dev) : Dev :=
  { d with trl := { d.trl with moves := d.trl.moves.map (fun m => if m.ream == r then f m else m) } }

/-- What a relocation copies as one stretch each: coded units whole, every other valid sheet by itself (R218, R237). -/
def stretches (d : Dev) (r : Nat) (x : Ream) : List (List Nat) :=
  let units := unitRuns d
  (validPsas d r x).filterMap (fun p => match units.find? (fun u => u.contains p) with
    | some u => if u.head? == some p then some u else none
    | none => some [p])

/-- The copies of sheets that could not be read: every read of one runs the steps of R214 and ends at step 5, until a later write
replaces it (R215, R246). -/
def markLost (ps : List Nat) (d : Dev) : Dev := { d with trl := { d.trl with badPsas := mergeSheets d.trl.badPsas ps } }

/-- How a read of the drive's own ends: what no command says, a free value does (R214; log 4). -/
def freeEnd (d : Dev) : ReadEnd × Dev :=
  let f := takeFree d
  let n := f.1.toNat / 8
  (match f.1.toNat % 8 with
   | 0 => .soft (1 + n % 8)
   | 1 => .rebuild
   | 2 => .unrecoverable
   | 3 => .channel (n % 256)
   | _ => .hard (n % 16), f.2)

/-- Ends of n reads. -/
def freeEnds : Nat → Dev → List ReadEnd × Dev
  | 0, d => ([], d)
  | n + 1, d =>
    let a := freeEnd d
    let r := freeEnds n a.2
    (a.1 :: r.1, r.2)

/-- Copy one stretch: to the ream it is meant for where that has room, else to the broke stream; answers where to. -/
def copyStretch (env : Env) (m : Move) (u : List Nat) (d : Dev) : Option (List (Nat × Nat) × Dev) :=
  let fe := freeEnds u.length (charge m.cls (readUnits d u + energyFlat 10500000 u.length 1) d)
  let rd := readPages env u fe.1 fe.2
  let lost := u.filter (fun p => rd.1.any (fun y => y.1 / 4 == p / 4 && y.2.1 == .unrecoverable))
  let d1 := rd.2
  let shs := u.map (fun p => (tblGet d.trl.sheets p).getD ⟨[], 0, true⟩)
  let roomy : Option Nat := match m.dst with
    | some k => (match tblGet d1.trl.reams k with
        | some x => if x.st == .open && x.placed + u.length ≤ x.capacity then some k else none
        | none => none)
    | none => none
  let res := match roomy with
    | some k => placeRow env k shs d1
    | none => placeStretch env 3 false shs d1
  res.map (fun x => (u.zip x.1, markLost (((u.zip x.1).filter (fun e => lost.contains e.1)).map (·.2)) x.2))

/-- Copy stretches in order; none when media is exhausted on the way. -/
def copyAll (env : Env) (m : Move) : List (List Nat) → Dev → Option (List (Nat × Nat) × Dev)
  | [], d => some ([], d)
  | u :: us, d =>
    match copyStretch env m u d with
    | none => none
    | some (ps, d1) => (copyAll env m us d1).map (fun r => (ps ++ r.1, r.2))

/-- Copy the checkpoint sheets of a ream that is to go; answers, for each stretch, its first sheet and the last sheet of its copy.
None when media is exhausted on the way. -/
def copyBulk (env : Env) (m : Move) (x : Ream) : List Bulk → Dev → Option (List (Nat × Nat) × Dev)
  | [], d => some ([], d)
  | b :: bs, d =>
    let y := placeBulk env 5 (b.len + 1) b.cont b.len (charge m.cls (energyFlat (1300000 + 8200000) b.len 1) d)
    if bulkCount y.1 < b.len then none
    else
      let last (p : Nat × Nat × Nat) : Nat := match tblGet y.2.trl.reams p.1 with
        | some z => sheetPsa y.2 p.1 z (p.2.1 + p.2.2 - 1)
        | none => 0
      (copyBulk env m x bs y.2).map (fun r => (y.1.map (fun p => (sheetPsa d m.ream x b.at_, last p)) ++ r.1, r.2))

/-- Copy what is valid in a ream. -/
def copyReam (env : Env) (m : Move) (x : Ream) (us : List (List Nat)) (d : Dev) : Option (List (Nat × Nat) × Dev) :=
  if x.stream = 5 then copyBulk env m x (if d.trl.round ≤ x.round + 1 then x.bulk else []) d else copyAll env m us d

/-- Map pages whose entries name one of some PSAs. -/
def pagesNaming (d : Dev) (ps : List Nat) : List Nat :=
  let hit (l : Loc) : Bool := match l with | .psa p => ps.contains p | .felt _ => false
  d.kdr.slots.flatMap (fun x => match x.2.obj with
    | some o => (o.pages.filter (fun e => o.map.any (fun s => s.1 / 256 == e.1 && hit s.2) ||
        o.coded.any (fun c => (o.frame.isSome || c.no / 256 == e.1) && hit c.loc))).map (·.2)
    | none => [])

/-- REMAP records are journaled and applied, each to what still names its source alone (R238). -/
def remap (ps : List (Nat × Nat)) (d : Dev) : Dev :=
  let pages := pagesNaming d (ps.map (·.1))
  let d1 := ps.foldl (fun d e => renamePsa e.1 e.2 (addJournal .remap e.1 e.2 1 d)) d
  dirtyPages pages (d1.trl.jNext - 1) d1

/-- The blocks of a ream, each as the PSA of its first sheet. -/
def blocksOf (d : Dev) (r : Nat) (x : Ream) : List Nat := x.all.map (fun pos => memberPsa d r pos 0 0)

/-- The ream's members have been erased, those on failed dies left out: their blocks wear, queued ones are retired, and the ream is
free; under WORN it goes back to the journal reserve while that lacks one (R237, R241, R244, R246, R247). -/
def freeReam (env : Env) (r : Nat) (x : Ream) (d : Dev) : Dev :=
  let ps := (blocksOf d r x).filter (fun p => !d.trl.failedDies.contains (psaDieKey p))
  let d1 := ps.foldl (fun d p => wearBlock p x.slc d) d
  let d2 := ps.foldl (fun d p => match (tblGetD d.trl.blocks (psaBlockKey p) {}).retireQ with
    | some c => retireBlock env p c d
    | none => d) d1
  addJournal .erased r 0 0 { d2 with trl := { d2.trl with reams := tblErase d2.trl.reams r, wornUsed := d2.trl.wornUsed - 1 } }

/-- P0 of REAM_REFRESHED: die group, plane and index, whose places the manual does not give (log 18). -/
def reamCode (r : Nat) : Nat := (Config.reamParam r).toNat

/-- A relocation has ended: a refresh is reported, a rebuild counted, and its internal task ends (R242, R246, R249). -/
def endMove (env : Env) (m : Move) (t : Task) (x : Ream) (d : Dev) : Dev :=
  let d1 := { d with trl := { d.trl with moves := d.trl.moves.filter (fun y => y.ream != m.ream) } }
  let d2 := if m.owner == .refresh then event env 0x0C04 1 clsMedia 0 (reamCode m.ream) (x.refreshQ.getD 0) 0 d1 else d1
  let g := reamGroup m.ream
  let d3 := if !x.rebuild then d2 else { d2 with trl := { d2.trl with
    rebuilding := d2.trl.rebuilding.map (fun e => if 2 * (e.1 % 24) + e.1 / 24 / 16 = g then (e.1, e.2 + 1) else e) } }
  finishTask env t 0 0 false (settleRebuilds env d3)

/-- The next step of a relocation, where what it waits for has come (R237). -/
def advanceMove (env : Env) (m : Move) (d : Dev) : Dev :=
  match moveTask d m, tblGet d.trl.reams m.ream with
  | some t, some x =>
    match m.st with
    | .queued =>
      (match copyReam env m x (stretches d m.ream x) (park env t d) with
       | some c => updMove m.ream (fun m => { m with st := .copying, moves := c.1 }) c.2
       | none => d)
    | .copying =>
      if m.moves.all (fun e => psaOnMedia d e.2) then
        let d1 := remap m.moves d
        updMove m.ream (fun m => { m with st := .remapping, seq := d1.trl.jNext - 1 }) d1
      else d
    | .remapping => if m.moves.isEmpty || m.seq ≤ d.trl.jDurable then updMove m.ream (fun m => { m with st := .holding }) d else d
    | .holding =>
      if (heldPsas d).any (inReam d m.ream) then d
      else
        let d1 := (blocksOf d m.ream x).foldl (fun d p => addJournal .erasePending p 0 0 d) d
        updMove m.ream (fun m => { m with st := .erasing, seq := d1.trl.jNext - 1 }) d1
    | .erasing =>
      if m.seq ≤ d.trl.jDurable then
        endMove env m t x (freeReam env m.ream x (charge m.cls (energyFlat 200000000 x.all.length 1) d))
      else d
  | _, _ => d

/-- A relocation takes up to n steps. -/
def advanceSteps (env : Env) (r : Nat) : Nat → Dev → Dev
  | 0, d => d
  | n + 1, d =>
    match d.trl.moves.find? (fun m => m.ream == r) with
    | some m => advanceSteps env r n (advanceMove env m d)
    | none => d

/-- Internal work may run: the drive is ACTIVE and no entry, reset or activation is under way (R448, R455). -/
def internalWork (env : Env) (d : Dev) : Bool :=
  env.pw.st == .active && env.pw.trans == .none && env.pw.resetStep.isNone && d.sec.activating.isNone

/-- Every relocation goes on as far as it can. -/
def advanceMoves (env : Env) (d : Dev) : Dev :=
  if internalWork env d then (d.trl.moves.map (·.ream)).foldl (fun d r => advanceSteps env r 5 d) d else d

/-! ### Checkpoint rounds (R233) -/

/-- Segments of a round: 38 GiB of DRAM structures by 64 MiB (log 125); sheets of a segment; ROUND_S as it acts. -/
abbrev segmentCount : Nat := 608
abbrev segmentSheets : Nat := 16384
def roundS (d : Dev) : Nat := min 3600 (max 60 (fld d.trl.ckptReg 0 16))

/-- Write n more segments of the round, each with the journal sequence current when it is copied, under WC4; none that does
not find room (R231, R233). -/
def writeSegments (env : Env) : Nat → Dev → Dev
  | 0, d => d
  | n + 1, d =>
    let x := placeBulk env 5 (segmentSheets + 1) d.trl.ckptSheets segmentSheets d
    if bulkCount x.1 < segmentSheets then d
    else writeSegments env n (charge 4 (energyFlat 8200000 segmentSheets 1)
      { x.2 with trl := { x.2.trl with segs := d.trl.jNext :: x.2.trl.segs, ckptSheets := x.2.trl.ckptSheets + segmentSheets } })

/-- The round is complete: its root takes the place of the older one, the journal that lies entirely before it is freed, and the
next one begins (R233, R235). -/
def endRound (env : Env) (d : Dev) : Dev :=
  let s := min d.trl.roundSeq (d.trl.jDurable + 1)
  { d with trl := { d.trl with
      ckptSeq := s, journal := d.trl.journal.filter (fun r => s ≤ r.seq), jSheets := d.trl.jSheets.filter (fun x => s ≤ x.2),
      round := d.trl.round + 1, roundSeq := d.trl.jNext, roundFrom := env.tick, segs := [],
      roots := (d.trl.round, s) :: d.trl.roots.take 1 } }

/-- A round whose segments are all on media is complete. -/
def finishRound (env : Env) (d : Dev) : Dev :=
  if segmentCount ≤ d.trl.segs.length && (d.trl.reams.filter (fun x => x.2.stream == 5)).all (fun x => (unprogrammed x.2).isEmpty)
  then endRound env d else d

/-- CHECKPOINT_ROUND: the segments due at this point of the round are written, so that all are within ROUND_S seconds (R233). -/
def execCheckpointRound (s : State) : Host.Outcome State Fault Refusal :=
  onDev s (fun env d =>
    let due := min segmentCount (segmentCount * (env.tick - d.trl.roundFrom) / (roundS d * Config.second))
    if internalWork env d then finishRound env (writeSegments env (due - d.trl.segs.length) d) else d)

/-- JOURNAL_MAX_GIB as it acts, in bytes, and the journal since the oldest sheet still needed. -/
def journalMax (d : Dev) : Nat := 2 ^ 30 * min 16 (max 4 (fld d.trl.ckptReg 16 8))
def journalBytes (d : Dev) : Nat := 4096 * d.trl.jSheets.length + 64 * (unplaced d).length

/-- JOURNAL_MAX: the journal has reached its size, and what the round lacks is written at once (R233). -/
def execJournalMax (s : State) : Host.Outcome State Fault Refusal :=
  onDev s (fun env d =>
    if internalWork env d && decide (journalMax d ≤ journalBytes d) then
      finishRound env (writeSegments env (segmentCount - d.trl.segs.length) d)
    else d)

/-! ### Programmed quires (R211, R212) -/

/-- Bytes of the pages of one quire, parity included (R248). -/
def quireBytes (x : Ream) : Nat := 16384 * wlPages x.slc * (x.members.length + 1)

/-- What follows when sheets have reached media: held writes no longer count them, journal records are durable, posts and
rounds complete, relocations go on. -/
def onMediaNow (env : Env) (d : Dev) : Dev :=
  let d1 := settleRuns d
  advanceMoves env (finishRound env (finishDurable (journalDurable (journalTop d1) d1)))

/-- QUIRE_PROGRAMMED: every page of a closed quire has reported success (R211, R212). -/
def execQuireProgrammed (ream quire : Nat) (s : State) : Host.Outcome State Fault Refusal :=
  onDev s (fun env d =>
    match tblGet d.trl.reams ream with
    | none => d
    | some x =>
      if !x.closedQ.contains quire || x.programmedQ.contains quire then d
      else
        let dies := reamDies ream x
        onMediaNow env (updReam ream (fun x => { x with programmedQ := x.programmedQ ++ [quire] })
          { d with trl := { d.trl with
            mediaWritten := d.trl.mediaWritten + quireBytes x,
            dieFails := d.trl.dieFails.filter (fun e => !dies.contains e.1) } }))

/-- Every quire of a stream's reams is programmed, the open ones closed with pad sheets first. -/
def programStream (env : Env) (stream : Nat) (d : Dev) : Dev :=
  let rs (d : Dev) : List (Nat × Ream) := d.trl.reams.filter (fun x => x.2.stream == stream)
  let d1 := (rs d).foldl (fun d x => padQuire env x.1 d) d
  (rs d1).foldl (fun d x =>
    let qs := unprogrammed x.2
    updReam x.1 (fun x => { x with programmedQ := x.programmedQ ++ qs })
      { d with trl := { d.trl with mediaWritten := d.trl.mediaWritten + qs.length * quireBytes x.2 } }) d1

/-- A shutdown, a power state's entry or a device reset has its checkpoint: the journal is on media up to its newest record, and
so is every segment of the round (R104, R448, R449, R455). -/
def checkpoint (env : Env) (d : Dev) : Dev :=
  let d1 := programStream env 4 (placeJournal env true (d.trl.journal.length + 1) d)
  let d2 := settleRuns (journalDurable (d1.trl.jNext - 1) d1)
  endRound env (programStream env 5 (writeSegments env (segmentCount - d2.trl.segs.length) d2))

/-! ### Broke, folding, refresh, wear levelling (R230, R236, R240–R242, R246, R247) -/

/-- Reams that broke may take: closed, with no owner, and neither queued for another owner nor holding a checkpoint that is
still needed. -/
def claimable (d : Dev) (x : Nat × Ream) : Bool :=
  x.2.st == .closed && !owned d x.1 && x.2.refreshQ.isNone && (x.2.stream != 5 || validCount d x.1 x.2 == 0)

/-- The closed ream with the fewest valid sheets, among equals the one closed first (R236). -/
def brokeVictim (d : Dev) : Option (Nat × Ream) :=
  (d.trl.reams.filter (claimable d)).foldl (fun acc x => match acc with
    | none => some x
    | some a =>
      let na := validCount d a.1 a.2
      let nx := validCount d x.1 x.2
      some (if nx < na || (nx == na && x.2.closeStamp < a.2.closeStamp) then x else a)) none

/-- Physical space is exhausted: free reams below 16 and nothing to reclaim (R247). -/
def spaceWorn (env : Env) (d : Dev) : Bool :=
  decide (freeReams env d < 16) &&
  !d.trl.reams.any (fun x => x.2.st == .closed && x.2.stream < 3 && validCount d x.1 x.2 < x.2.placed)

/-- The next ream of a failed die's group to be rebuilt (R246). -/
def rebuildNext (d : Dev) : Option (Nat × Ream) :=
  if d.trl.moves.any (fun m => m.owner == .retirement) then none
  else d.trl.reams.find? (fun x => x.2.rebuild && x.2.st == .closed && !owned d x.1)

/-- BROKE: a deleted keyspace's slots and footprint are reclaimed (R403); reams of a failed die's group are rebuilt, and while free reams are below FREE_LOW the ream with the fewest valid
sheets is taken, one at a time, before WORN and under it (R236, R246, R247). -/
def execBroke (s : State) : Host.Outcome State Fault Refusal :=
  onDev s (fun env d =>
    if !internalWork env d then d
    else
      let d1 := advanceMoves env d
      match reclaimNext d1, rebuildNext d1 with
      | some k, _ => reclaimKs k d1
      | none, some x => startMove env x.1 .retirement 6 none d1
      | none, none =>
        if freeLow d1 ≤ freeReams env d1 then d1
        else
          let d2 := if spaceWorn env d1 then enterWorn env 2 0 d1 else d1
          if d2.trl.moves.any (fun m => m.owner == .broke) then d2
          else match brokeVictim d2 with
            | some x => startMove env x.1 .broke 6 none d2
            | none => d2)

/-- A ream is claimed, an open one once it is closed. -/
def claim (env : Env) (x : Nat × Ream) (owner : ReamOwner) (cls : Nat) (d : Dev) : Dev :=
  startMove env x.1 owner cls none (if x.2.st == .open then closeReam x.1 (padQuire env x.1 d) else d)

/-- FOLD: an SLC ream of the burst region is folded when the region is idle for 100 ms, or above its target (R230). -/
def execFold (s : State) : Host.Outcome State Fault Refusal :=
  onDev s (fun env d =>
    if !internalWork env d then d
    else
      let d1 := advanceMoves env d
      let idle := decide (d1.trl.lastHostWrite + 2500000 ≤ env.tick)
      let slc := d1.trl.reams.filter (fun x => x.2.slc && x.2.stream < 3 && !owned d1 x.1 && x.2.refreshQ.isNone)
      if burstHeld d1 = 0 || !(idle || burstOver d1) then d1
      else match slc.find? (fun x => x.2.st == .closed), slc with
        | some x, _ => claim env x .fold 6 d1
        | none, x :: _ => claim env x .fold 6 d1
        | none, [] => d1)

/-- REFRESH: the next ream queued is moved under WC7 (R242). -/
def execRefresh (s : State) : Host.Outcome State Fault Refusal :=
  onDev s (fun env d =>
    if !internalWork env d then d
    else
      let d1 := advanceMoves env d
      match d1.trl.reams.find? (fun x => x.2.refreshQ.isSome && !owned d1 x.1) with
      | some x => claim env x .refresh 7 d1
      | none => d1)

/-- PERIOD_DAYS as it acts, in ticks. -/
def patrolPeriod (d : Dev) : Nat := min 30 (max 1 (fld d.trl.patrolReg 0 8)) * 86400 * Config.second

/-- A pass whose days are over gives way to the next. -/
def patrolPass (env : Env) (d : Dev) : Dev :=
  if d.trl.patrolFrom + patrolPeriod d ≤ env.tick then { d with trl := { d.trl with patrolFrom := env.tick, patrolled := [] } } else d

/-- PATROL: a programmed page is read, once in a pass: its decode is checked, and its corrected bits compared with PATROL_BITS
(R242, R243). -/
def execPatrol (psa : Nat) (e : PatrolEnd) (s : State) : Host.Outcome State Fault Refusal :=
  onDev s (fun env d0 =>
    let d := patrolPass env d0
    match reamOf d psa with
    | some (_, x) =>
      if !internalWork env d || !psaOk d psa || !x.programmedQ.contains (psaPage psa / wlPages x.slc) ||
         d.trl.patrolled.contains (psa / 4) then d
      else
        let d1 := pageRead env psa e.how (charge 7 (energyFlat (if x.slc then 1300000 else 2400000) 4 1)
          { d with trl := { d.trl with patrolled := psa / 4 :: d.trl.patrolled } })
        if fld d.trl.patrolReg 8 10 < e.bits then queueRefresh psa 3 d1 else d1
    | none => d)

/-- WL_DELTA as it acts. -/
def wlDelta (d : Dev) : Nat := max 150 (fld d.trl.wearReg 0 16)

/-- PSA of the first sheet of a block, by the block's key. -/
def blockPsa (k : Nat) : Nat := k / 175104 * 2 ^ 32 + k / 7296 % 24 * 2 ^ 27 + k / 1824 % 4 * 2 ^ 25 + k % 1824 * 2 ^ 14

/-- Wear of a ream: that of the most-worn block at some of its positions. -/
def reamWear (d : Dev) (r : Nat) (all : List Nat) : Nat :=
  (all.map (fun pos => (tblGetD d.trl.blocks (psaBlockKey (memberPsa d r pos 0 0)) {}).wear)).foldl max 0

/-- Blocks of a group with a history that are neither retired nor in an open ream. -/
def idleBlocks (d : Dev) (g : Nat) : List (Nat × Block) :=
  let openKeys := (d.trl.reams.filter (fun x => x.2.st == .open && reamGroup x.1 == g)).flatMap (fun x => (blocksOf d x.1 x.2).map psaBlockKey)
  d.trl.blocks.filter (fun b => psaGroup (blockPsa b.1) == g && !b.2.retired && !openKeys.contains b.1)

/-- Blocks of a group that stand in its reams on live dies. -/
def standing (d : Dev) (g : Nat) (bs : List (Nat × Block)) : List (Nat × Block) :=
  bs.filter (fun b => psaGroup (blockPsa b.1) == g && (blockOwner d (blockPsa b.1)).isSome && (livePos d g).contains (psaPos (blockPsa b.1)))

/-- Blocks of a group on live dies that stand in open reams. -/
def openPlaces (d : Dev) (g : Nat) : Nat :=
  ((d.trl.reams.filter (fun x => x.2.st == .open && reamGroup x.1 == g)).flatMap (fun x => x.2.all.filter ((livePos d g).contains ·))).length

/-- The wear of the free and closed blocks of a group differs by more than WL_DELTA; a block without a history has wear 0
(R241). -/
def wearSpread (d : Dev) (g : Nat) : Bool :=
  let ws := (standing d g (idleBlocks d g)).map (fun b => b.2.wear)
  let out := openPlaces d g + (standing d g (d.trl.blocks.filter (fun b => b.2.retired))).length
  let hi := ws.foldl max 0
  wlDelta d < hi - (if ws.length + out < (livePos d g).length * 4 * 1760 then 0 else ws.foldl min hi)

/-- The least-worn closed ream of a group that has no owner. -/
def leastWorn (d : Dev) (g : Nat) : Option (Nat × Ream) :=
  (d.trl.reams.filter (fun x => reamGroup x.1 == g && claimable d x)).foldl (fun acc x => match acc with
    | none => some x
    | some a => some (if reamWear d x.1 x.2.all < reamWear d a.1 a.2.all then x else a)) none

/-- The most-worn free ream of a group. -/
def mostWornFree (d : Dev) (g : Nat) : Option Nat :=
  let free := ((idleBlocks d g).filterMap (fun b => blockOwner d (blockPsa b.1))).map (· / 16)
  (free.filter (fun r => (tblGet d.trl.reams r).isNone)).foldl (fun acc r => match acc with
    | none => some r
    | some a => some (if reamWear d a (livePos d g) < reamWear d r (livePos d g) then r else a)) none

/-- WEAR_LEVEL: in a group whose wear differs by more than WL_DELTA, the least-worn closed ream's data moves to the most-worn
free ream, under WC8, while one is free beside the reserves (R231, R241). -/
def execWearLevel (s : State) : Host.Outcome State Fault Refusal :=
  onDev s (fun env d =>
    if !internalWork env d then d
    else
      let d1 := advanceMoves env d
      let go (g : Nat) : Option ((Nat × Ream) × Nat) :=
        if !wearSpread d1 g || freeReams env d1 = 0 then none
        else match leastWorn d1 g, mostWornFree d1 g with
          | some x, some r => if reamWear d1 x.1 x.2.all < reamWear d1 r (livePos d1 g) then some (x, r) else none
          | _, _ => none
      match ((List.range 48).filter (fun g => !d1.trl.retiredGroups.contains g)).findSome? go with
      | some (x, r) => startMove env x.1 .wear 8 (some r) (startReam env r 3 false d1)
      | none => d1)

/-! ### The drain image (R460, R461) -/

/-- Sheets of protected felt that are not on media, as the drain writes them: uncompressed, in encrypted keyspaces encrypted
(R460 step 5). -/
def feltSheets (d : Dev) : List Sheet :=
  (d.flt.held.filter (·.committed)).flatMap (fun h => h.runs.flatMap (fun r =>
    let bs := if r.coded then r.plain else r.bytes
    (List.range ((bs.length + 4095) / 4096)).map (fun i => ⟨slice bs (4096 * i) 4096, mkTag h.objId h.ksid.toNat 6 (r.no + i), true⟩)))

/-- Bytes in sheets of the drain image that belong to the translation layer. -/
def drainSheets (bs : List Byte) : List Sheet :=
  (List.range ((bs.length + 4095) / 4096)).map (fun i => ⟨slice bs (4096 * i) 4096, mkTag 0 0 6 i, true⟩)

/-- The manifest's entry of a held write (R461). -/
def manifestBytes (h : Held) : List Byte := defBytes ⟨h.opid, h.hash, h.version, h.ksid, h.opc, 0, 0⟩

/-- The seal: the entry count, the last journal sequence and a CRC-32C over the manifest (R461). -/
def sealBytes (count : Nat) (manifest : List Byte) (d : Dev) : List Byte :=
  natLe 4 count ++ natLe 8 (d.trl.jNext - 1) ++ natLe 4 (crcStd manifest).toNat

/-- Sheets of object records and of the journal that are placed and still in felt, their quires not programmed (R212). -/
def openSheets (d : Dev) : List Byte :=
  (d.trl.sheets.filter (fun x => (tagKind x.2.tag == 1 || tagKind x.2.tag == 3) && !psaOnMedia d x.1)).flatMap (fun x => slice x.2.data 0 4096)

/-- The drain's sheets are placed and programmed, funded under WC1 (R231, R460). -/
def drainWrite (env : Env) (sheets : List Sheet) (d : Dev) : Dev :=
  match placeSheets env 6 true sheets d with
  | none => d
  | some x => programStream env 6 (charge 1 (energyFlat 8200000 sheets.length 1) x.2)

/-- What the manifest covers: nothing while recovery has not taken up the last drain's image (R462). -/
def drainHeld (d : Dev) : List Held := if d.trl.recovering then [] else d.flt.held.filter (·.committed)

/-- A drain that does not end has written its manifest; of the sheets behind it the next recovery says which are missing (R460,
R461; DESIGN CHOICE, log 149). -/
def drainManifest (env : Env) (d : Dev) : Dev :=
  if d.trl.recovering then d else drainWrite env (drainSheets ((drainHeld d).flatMap manifestBytes)) d

/-- The drain writes its manifest, the sheets of protected felt, staged object records and journal buffers, and the seal last,
to the drain reserve (R25, R460, R461). Before recovery has taken up the last drain's image that image stands, with its
seal (R462). -/
def drainImage (env : Env) (d : Dev) : Dev :=
  if d.trl.recovering then d
  else
    let held := drainHeld d
    let manifest := held.flatMap manifestBytes
    drainWrite env (drainSheets manifest ++ feltSheets d ++ drainSheets (openSheets d) ++
      drainSheets (d.trl.staged.flatMap (·.bytes)) ++ drainSheets ((unplaced d).flatMap JRec.bytes) ++
      drainSheets (sealBytes held.length manifest d)) d

/-! ### Recovery (R235, R461, R517) -/

/-- The content a key returns to when its newest write is lost (R517). -/
def restoreSlot (h : Held) (s : Slot) : Option Slot :=
  h.prev.map (fun o => { s with live := true, obj := some o, objId := o.objId, version := h.prevVer, sflags := sflagsOf o })

/-- A slot takes its restored content: the object record of that version is staged again, and the change is journaled (R222,
R232, R517). -/
def putBack (env : Env) (n : Nat) (s : Slot) (d : Dev) : Dev :=
  match s.obj with
  | none => d
  | some o =>
    let id := d.flt.nextHeld
    let r := stageRecord env n id s s.version o { d with flt := { d.flt with nextHeld := id + 1 } }
    addJournal .commit n s.version.toNat (o.objId + r.1.toNat * 2 ^ 48)
      { r.2 with kdr := { r.2.kdr with slots := tblSet r.2.kdr.slots n { s with record := r.1 } } }

/-- A write recovery cannot restore: the key returns to what it held before, unless a later write stands (R517). -/
def loseWrite (env : Env) (h : Held) (d : Dev) : Dev :=
  match slotAt d h.slot with
  | some s =>
    if s.hash == h.hash && s.ksid == h.ksid && s.key == h.key && s.version == h.version && s.live then
      match restoreSlot h s with
      | some s' => putBack env h.slot s' d
      | none => eraseSlot h.slot (addJournal .remove h.slot h.version.toNat 0 d)
    else d
  | none =>
    if h.objId != 0 then d
    else match restoreSlot h { live := true, ksid := h.ksid, key := h.key, hash := h.hash } with
      | some s' => putBack env h.slot s' d
      | none => d

/-- One acknowledged or committed write is missing from the drain image. -/
def ackLost (env : Env) (h : Held) (d : Dev) : Dev :=
  event env 0x0C06 6 clsMedia 0 h.ksid.toNat (h.hash.toNat % 2 ^ 32) h.version.toNat
    (setCause env 12 0x10 (deferError env h 2 (loseWrite env h { d with trl := { d.trl with ackLostEver := true } })))

/-- What recovery finds, given how the last drain ended: only a drain that did not end leaves sheets missing (R461). -/
def drainFacts (env : Env) (r : RecoveryFacts) : RecoveryFacts :=
  { r with sealOk := r.sealOk && env.pw.sealed, missing := if env.pw.sealed then [] else r.missing }

/-- The pairs of a relocation whose REMAP records, which end at its sequence, are not durable (R238). -/
def undoneMoves (d : Dev) (m : Move) : List (Nat × Nat) :=
  if m.st == .queued || m.st == .copying then []
  else if m.st == .erasing then []
  else ((m.moves.zipIdx).filter (fun e => d.trl.jDurable + (m.moves.length - 1 - e.2) < m.seq)).map (·.1)

/-- Journal records that were not durable are gone, and the relocations of single sheets whose REMAP records they were are undone
(R235 step 3, R237). After a drain that ended, none is (R460). -/
def replayJournal (sealOk : Bool) (d : Dev) : Dev :=
  if sealOk then
    let d1 := journalDurable (d.trl.jNext - 1) d
    { d1 with trl := { d1.trl with jPlaced := d1.trl.jNext - 1 } }
  else
    let undone := d.trl.moves.flatMap (undoneMoves d)
    let d1 := undone.foldl (fun d e => renamePsa e.2 e.1 d) d
    { d1 with trl := { d1.trl with
        journal := d1.trl.journal.filter (fun r => r.seq ≤ d1.trl.jDurable), jPlaced := min d1.trl.jPlaced d1.trl.jDurable,
        jSheets := d1.trl.jSheets.filter (fun x => psaOnMedia d1 x.1) } }

/-- Blocks with ERASE_PENDING and no ERASED are erased again, and each that fails is retired; their ream is free (R235
step 4, R237). -/
def eraseAgain (env : Env) (fails : List (Nat × BitVec 32)) (m : Move) (d : Dev) : Dev :=
  match tblGet d.trl.reams m.ream with
  | some x =>
    if m.st == .erasing && m.seq ≤ d.trl.jDurable then
      let ps := blocksOf d m.ream x
      ps.foldl (fun d p => match fails.find? (fun f => psaBlockKey f.1 == psaBlockKey p) with
        | some f => eraseFailed env p f.2 d
        | none => d) (freeReam env m.ream x d)
    else d
  | none => d

/-- The bytes of the object record at a RECORD, as its sheet has them. -/
def recordOn (d : Dev) (s : Slot) (p : Nat) : List Byte :=
  let inl := match s.obj with | some o => if o.frame.isNone && inlineLen o.len then o.len else 0 | none => 0
  match tblGet d.trl.sheets p with
  | some sh => slice sh.data (fld s.record 40 12) (64 + s.key.length + inl)
  | none => []

/-- A slot whose object record lay in a quire that never completed has it staged again (R222, R235 step 5). -/
def restage (env : Env) (lost : List Nat) (d : Dev) : Dev :=
  d.kdr.slots.foldl (fun d x => match recordPsa x.2 with
    | some p =>
      if !lost.contains p then d
      else
        let id := match d.flt.held.find? (fun h => h.slot == x.1 && h.version == x.2.version) with | some h => h.id | none => d.flt.nextHeld
        let r := stageBytes env x.1 id (recordOn d x.2 p) { d with flt := { d.flt with nextHeld := max d.flt.nextHeld (id + 1) } }
        updHeld id (fun h => { h with runs := h.runs.map (fun y => if y.kind == 1 then { y with psas := [] } else y) })
          (updSlot x.1 (fun s => { s with record := r.1 }) r.2)
    | none => d) d

/-- Quires that never completed are left as orphans for broke: what held writes and records had there is in the drain image, and
comes back to protected felt (R235 step 7). -/
def orphanQuires (env : Env) (d : Dev) : Dev :=
  let open_ := d.trl.reams.filter (fun x => !(unprogrammed x.2).isEmpty)
  let lost := open_.flatMap (fun x => (unprogrammed x.2).flatMap (quirePsas d x.1 x.2))
  let d1 := restage env lost (d.flt.held.foldl (fun d h => unplaceRuns lost h d) d)
  let d2 := { d1 with trl := { d1.trl with sheets := d1.trl.sheets.filter (fun e => !lost.contains e.1) } }
  open_.foldl (fun d x => updReam x.1 (fun x => { x with closedQ := x.programmedQ }) (closeReam x.1 d)) d2

/-- A write of the drain image is committed again: it is held, acknowledged, journaled, and goes to media (R461). -/
def recommit (env : Env) (id : Nat) (d : Dev) : Dev :=
  match d.flt.held.find? (fun h => h.id == id) with
  | none => d
  | some h =>
  let d1 := if h.objId = 0 then addJournal .remove h.slot h.version.toNat 0 d else addJournal .commit h.slot h.version.toNat h.objId d
  placeHeld env h.id (updHeld h.id (fun h => { h with acked := some (h.acked.getD d1.mea.nextArrival), jseq := d1.trl.jNext - 1 }) d1)

/-- Every keyspace's sequence resumes at its mark, and a new mark is journaled (R234, R235 step 6). -/
def resumeSeqs (d : Dev) : Dev :=
  (List.range 256).foldl (fun d k =>
    let m := (ksOf d k).mark
    addJournal .seq k (m + 0x10000).toNat 0 (updKs k (fun x => { x with seq := x.mark }) d)) d

/-- Recovery of R235: from the newest root the journal replayed up to its last good record, blocks erased again, the drain image re-committed, sequences at their marks, quires
that never completed left as orphans, RECOVERING cleared. -/
def recover (env : Env) (r : RecoveryFacts) (d : Dev) : Dev :=
  let d0 := match r.journalBad with
    | some x => event env 0x0C07 4 clsMedia (psaChannel x.2) x.1 (x.2 % 2 ^ 32) 0
        (setCause env 12 0x20 { d with trl := { d.trl with jDurable := min d.trl.jDurable (x.1 - 1) } })
    | none => d
  let d1 := replayJournal (r.sealOk && r.journalBad.isNone) { d0 with flt := { d0.flt with held := d0.flt.held.filter (·.committed) } }
  let d2 := d1.trl.moves.foldl (fun d m => eraseAgain env r.eraseFails m d) d1
  let d3 := orphanQuires env { d2 with trl := { d2.trl with moves := [] } }
  let gone (h : Held) : Bool := r.missing.contains h.id
  let lost := d3.flt.held.filter (fun h => gone h || (h.group.isSome && d3.flt.held.any (fun x => x.group == h.group && gone x)))
  let kept := d3.flt.held.filter (fun h => !lost.contains h)
  let d4 := (lost.reverse.map (·.id)).foldl (fun d id => match d.flt.held.find? (fun h => h.id == id) with
    | some h => ackLost env h d
    | none => d) d3
  let d5 := { d4 with
    flt := { d4.flt with held := d4.flt.held.filter (fun h => kept.any (fun x => x.id == h.id)) },
    mea := { d4.mea with dr := d4.trl.staged.foldl (fun m s => memStore m s.dr s.bytes) d4.mea.dr } }
  let d6 := if r.sealOk then d5
    else event env 0x1203 6 clsPower 0 (kept.length + lost.length) lost.length 0 (setCause env 18 4 d5)
  let d7 := resumeSeqs ((kept.map (·.id)).foldl (fun d id => recommit env id d) d6)
  let d8 := { d7 with trl := { d7.trl with recovering := false, roundSeq := d7.trl.jNext, roundFrom := env.tick, segs := [] } }
  event env 0x0C05 0 clsPower 0 r.replayed kept.length r.ms d8

/-- RECOVERY_DONE: step 6 of bring-up has ended (R235, R452). -/
def execRecoveryDone (r : RecoveryFacts) (s : State) : Host.Outcome State Fault Refusal :=
  onEnv s (fun env d =>
    if env.pw.st == .bringup && 4 ≤ env.pw.bringStep && d.trl.recovering && env.pw.trans == .none then
      ({ env with pw := { env.pw with recovered := true, sealed := true } }, recover env (drainFacts env r) d)
    else (env, d))

end Sys2Proof.Machine
end

