-- ==== Sys2Proof/Machine/Cipher.lean ====
section
/-! DEFINITION. The CIPHER unit's posts (12, R380–R383). A post an alarm overtakes has completed with 0x07 at the alarm; one
captured later completes so too while it names a slot or key the alarm zeroed (R381). -/

namespace Sys2Proof.Machine

/-- The key slots: a slot nothing has filled since it was zeroed holds zeros. -/
def keySlot (d : Dev) (n : Nat) : KeySlot := tblGetD d.ccl.keys n { key := List.replicate 32 0 }

/-- Change a key slot. -/
def updKey (n : Nat) (f : KeySlot → KeySlot) (d : Dev) : Dev :=
  { d with ccl := { d.ccl with keys := tblSet d.ccl.keys n (f (keySlot d n)) } }

/-- Energy of block operations on n bytes: 0.020 µJ a KiB (R362). -/
def cipherCost (d : Dev) (n : Nat) : Nat := energyV2 d 20000 n 1024

/-- A CIPHER post completes; its block operations are charged to WC9 (R362). -/
def endCipher (p : PostRef) (t : Task) (n : Nat) (status : Byte) (d : Dev) : Dev :=
  finishPost p status 0 (chargeFor 9 t.group (cipherCost d n) d)

/-- Output of a FWD or INV: to its address, or to the sealed slot, which becomes SEALED and the task's own (R383). -/
def cipherOut (t : Task) (c : V512) (bs : List Byte) (d : Dev) : Dev :=
  let dst := cap c 24 8
  if bitOf c 16 then
    { d with ccl := { d.ccl with sealed := tblSet d.ccl.sealed dst { released := false, owner := t.owner } },
             mea := { d.mea with fe := memStore d.mea.fe (sealedBase dst) bs } }
  else storeFor t dst bs d

/-- An alarm zeroed the key slot a post names, or the sealed slot, before anything filled or freed it (R381). -/
def alarmed (d : Dev) (t : Task) (c : V512) (key slot : Bool) : Bool :=
  (key && d.ccl.alarmKeys.contains (cap c 0 2)) || (slot && alarmedSeal d t (cap c 24 8) && (tblGet d.ccl.sealed (cap c 24 8)).isNone)

/-- A post that names what an alarm zeroed: 0x07, and what it would have freed is free (R381). -/
def endAlarmed (p : PostRef) (t : Task) (c : V512) (freeKey freeSeal : Bool) (d : Dev) : Dev :=
  let d1 := if freeKey then { d with ccl := { d.ccl with alarmKeys := d.ccl.alarmKeys.filter (· != cap c 0 2) } } else d
  endCipher p t 0 0x07 (if freeSeal then freeSealed [cap c 24 8] d1 else d1)

/-- FWD and INV over a block operation (R381, R382). Posts with SEAL are not counted. A FWD turned away by the
usage limit makes the standard program set advance KGEN (R386). -/
def cipherBlocks (fwd : Bool) (op : List Byte → List Byte → List Byte) (p : PostRef) (env : Env) (t : Task) (x : Post) (d : Dev) : Dev :=
  let c := x.desc
  let k := cap c 0 2
  let len := cap c 4 4
  let n := len / 16
  let sealing := bitOf c 16
  let used := (keySlot d k).ops
  if alarmed d t c true sealing then endAlarmed p t c false false d
  else if !sealing && usageLimit d < used + n then
    let d1 := endCipher p t 0 0x0A (setCause env 0x0D 4 d)
    if fwd then advanceKgen env (keySlot d k).ksid.toNat d1 else d1
  else
    let out := blocks (op (keySlot d k).key) (readFor t d (cap c 8 8) len)
    let out := if bitOf c 17 then xorBytes out (readFor t d (cap c 16 8) len) else out
    let d1 := if sealing then d else updKey k (fun s => { s with ops := s.ops + n }) d
    endCipher p t len 0 (cipherOut t c out d1)

/-- FWD: encrypts blocks (R381). -/
def execFwd (p : PostRef) (s : State) : Host.Outcome State Fault Refusal := unitStep p 2 0 (cipherBlocks true aesEnc p) s

/-- INV: decrypts blocks (R381). -/
def execInv (p : PostRef) (s : State) : Host.Outcome State Fault Refusal := unitStep p 2 1 (cipherBlocks false aesDec p) s

/-- DERIVE: fills a key slot under R375; a fresh key has counted no operation. ROOT 1 needs the root of an unlocked
keyspace. -/
def execDerive (p : PostRef) (s : State) : Host.Outcome State Fault Refusal :=
  unitStep p 2 2 (fun _ t x d =>
    let c := x.desc
    let label := readFor t d (cap c 8 8) 32
    let ksid := leAt label 1 1
    let ks := ksOf d ksid
    if cap c 32 1 = 1 && (ks.locked || ks.ksr.isEmpty) then endCipher p t 0 0x0E d
    else
      let root := if cap c 32 1 = 1 then ks.ksr else drkBytes
      let slot : KeySlot := { key := deriveKey root label, ops := 0, ksid := BitVec.ofNat 8 ksid }
      endCipher p t 0 0 (updKey (cap c 0 2) (fun _ => slot)
        { d with ccl := { d.ccl with alarmKeys := d.ccl.alarmKeys.filter (· != cap c 0 2) } })) s

/-- TAG_CHECK: releases a sealed slot on a match; on a mismatch it is zeroed and freed, and event 0x0D02 is written with
the chunk index J0 holds (R383, R385, R392). -/
def execTagCheck (p : PostRef) (s : State) : Host.Outcome State Fault Refusal :=
  unitStep p 2 3 (fun env t x d =>
    let c := x.desc
    let n := cap c 24 8
    let k := keySlot d (cap c 0 2)
    let j0 := readFor t d (cap c 8 8) 16
    let tag := slice (v512Bytes c) 32 16
    let ghash := slice (v512Bytes c) 48 16
    if alarmed d t c true true then endAlarmed p t c false true d
    else if xorBytes ghash (aesEnc k.key j0) = tag then
      let sealed := d.ccl.sealed.map (fun e => if e.1 == n then (e.1, { e.2 with released := true }) else e)
      endCipher p t 16 0 { d with ccl := { d.ccl with sealed := sealed } }
    else
      let hash := (keyHash (BitVec.ofNat 8 (capKsid t.capsule)) t.key).toNat % 2 ^ 32
      endCipher p t 16 0x0C (event env 0x0D02 5 clsSecurity 0 k.ksid.toNat hash (leAt j0 4 4)
        (setCause env 0x0D 1 (freeSealed [n] d)))) s

/-- FREE: zeroes a key slot (R381). -/
def execFree (p : PostRef) (s : State) : Host.Outcome State Fault Refusal :=
  unitStep p 2 4 (fun _ t x d =>
    if alarmed d t x.desc true false then endAlarmed p t x.desc true false d
    else endCipher p t 0 0 { d with ccl := { d.ccl with keys := tblErase d.ccl.keys (cap x.desc 0 2) } }) s

/-- SEAL_FREE: zeroes and frees a sealed slot (R381, R383). -/
def execSealFree (p : PostRef) (s : State) : Host.Outcome State Fault Refusal :=
  unitStep p 2 5 (fun _ t x d =>
    if alarmed d t x.desc false true then endAlarmed p t x.desc false true d
    else endCipher p t 0 0 (freeSealed [cap x.desc 24 8] d)) s

end Sys2Proof.Machine
end

