-- ==== Sys2Proof/Machine/DirUnit.lean ====
section
/-! DEFINITION. The key directory's posts and its lock races (07, R221–R226; 05, R159). -/

namespace Sys2Proof.Machine

/-- The 32 bytes of a directory slot (R222). -/
def slotBytes (s : Slot) : List Byte :=
  [BitVec.ofNat 8 ((if s.live then 1 else 2) + (if s.lock.isSome then 128 else 0)), s.ksid,
   BitVec.ofNat 8 s.key.length, s.sflags] ++ natLe 4 s.version.toNat ++ natLe 8 s.hash.toNat ++ natLe 6 s.objId ++
  natLe 2 0 ++ natLe 8 s.record.toNat

/-- Keyspace, key bytes and hash a DIR descriptor names: the given hash in place of the computed one (R225). -/
def dirKsid (c : V512) : Byte := BitVec.ofNat 8 (cap c 0 1)
def dirKey (d : Dev) (t : Task) (c : V512) : List Byte := readFor t d (cap c 8 8) (cap c 1 1)
def dirHash (d : Dev) (t : Task) (c : V512) : Word :=
  if bitOf c 16 then BitVec.ofNat 64 (cap c 16 8) else keyHash (dirKsid c) (dirKey d t c)

/-- Copy a slot to OUT, when OUT is not 0. -/
def copyOut (t : Task) (c : V512) (bs : List Byte) (d : Dev) : Dev :=
  if cap c 56 8 = 0 then d else storeFor t (cap c 56 8) bs d

/-- LOOKUP: finds a LIVE slot and takes no lock (R221, R226). -/
def execLookup (p : PostRef) (s : State) : Host.Outcome State Fault Refusal :=
  unitStep p 4 0 (fun _ t x d =>
    let c := x.desc
    let k := dirKey d t c
    let h := dirHash d t c
    let d1 := countProbe (dirKsid c) h k d
    match findSlot d (dirKsid c) h k with
    | some y =>
      if y.2.live then endPost p t (postCost d) 0 (BitVec.ofNat 64 y.2.version.toNat) (copyOut t c (slotBytes y.2) d1)
      else endPost p t (postCost d) 0x03 0 d1
    | none => endPost p t (postCost d) 0x03 0 d1) s

/-- A LOCK post gets its slot: OUT is written and the post completes with the slot number. -/
def lockGranted (p : PostRef) (t : Task) (c : V512) (n : Nat) (d : Dev) : Dev :=
  match slotAt d n with
  | some s => endPost p t (postCost d) 0 (BitVec.ofNat 64 n) (copyOut t c (slotBytes s) d)
  | none => d

/-- LOCK: finds the slot or inserts a PENDING one, and waits for its lock; 0x05 when no EMPTY slot is in reach (R221,
R224, R226). -/
def execLock (p : PostRef) (s : State) : Host.Outcome State Fault Refusal :=
  unitStep p 4 1 (fun env t x d =>
    let c := x.desc
    let k := dirKey d t c
    let h := dirHash d t c
    let d1 := countProbe (dirKsid c) h k d
    match findOrInsert (dirKsid c) h k d1 with
    | none => endPost p t (postCost d) 0x05 0 (probeLimit env (dirKsid c) h d1)
    | some (n, d2) =>
      match slotAt d2 n with
      | none => d
      | some y =>
        if y.waiters.isEmpty && lockFree y t.owner false && locksHeld d2 t.owner < 64
        then lockGranted p t c n (takeLock n t.owner d2)
        else
          let due := if cap c 4 4 = 0 then none else some (env.tick + cap c 4 4)
          workPost p (updSlot n (fun y => { y with waiters := y.waiters ++ [⟨t.owner, some p.tag, due, false⟩] }) d2)) s

/-- An object record's bytes, from protected felt or from the sheet it lies in (R222, R223). -/
def recordAt (d : Dev) (r : Word) : List Byte :=
  if bitOf r 63 then memBytes d.mea.dr (fld r 0 60) 3392
  else match tblGet d.trl.sheets (fld r 0 40) with
    | some sh => sh.data.drop (fld r 40 12)
    | none => []

/-- What a record says: whether it is INLINE, how many bytes it takes, and whether its CRC is right (R223). -/
def recordInline (b : List Byte) : Bool := leAt b 3 1 % 2 == 1
def recordLen (b : List Byte) : Nat := 64 + leAt b 2 1 + (if recordInline b then min (leAt b 8 8) 3072 else 0)
def recordOk (b : List Byte) : Bool :=
  (crcStd (b.take 60 ++ slice b 64 (recordLen b - 64))).toNat == leAt b 60 4

/-- Data sheets of an object on media, by the numbers in their tags; of two with one number the later placed stands (R209). -/
def tagSheets (d : Dev) (objId : Nat) : Tbl Nat :=
  let ss := d.trl.sheets.filter (fun e => tagObj e.2.tag == objId && tagKind e.2.tag == 0)
  ss.foldl (fun m e => match tblGet m (tagNo e.2.tag) with
    | some p => if tblGetD d.trl.wseqs (p / 4) 0 < tblGetD d.trl.wseqs (e.1 / 4) 0 then tblSet m (tagNo e.2.tag) e.1 else m
    | none => tblSet m (tagNo e.2.tag) e.1) []

/-- The sheets of a record's object and where they lie: a SOLID extent of its extent table gives 256 that follow one another, and
a PAGED one those its tags name (R216, R217). XTAB leads to the extent table of the object the drive has given that location;
of a record a program wrote itself it is taken to be the DR offset of the table (log 19). -/
def recordMap (d : Dev) (b : List Byte) (objId : Nat) : Tbl Loc :=
  let tags := tagSheets d objId
  let w := leAt b 40 8
  let own := d.kdr.slots.findSome? (fun x => x.2.obj.bind (fun o => if w ≠ 0 && o.xtab.toNat = w then some o else none))
  let entry (e : Nat) : Nat := match own with
    | some o => extentEntry d o e
    | none => leNat (memBytes d.mea.dr (w % 2 ^ 60 + 8 * e) 8)
  (List.range (min (leAt b 48 4) 16384)).foldl (fun m e =>
    let w := entry e
    if w / 2 ^ 62 = 1 then ((psaRun d (w % 2 ^ 40) 256).zipIdx).foldl (fun m x => tblSet m (256 * e + x.2) (.psa x.1)) m
    else if w / 2 ^ 62 = 2 then (tags.filter (fun x => x.1 / 256 == e)).foldl (fun m x => tblSet m x.1 (.psa x.2)) m
    else m) []

/-- A frame object whose frames the manual gives no layout of on media: every fact of it is left open (log 19). -/
def freeFrames (d : Dev) : FrameObj × Dev :=
  let g := takeFree d
  let w := 1 + fld g.1 0 16
  let h := 1 + fld g.1 16 16
  let n := 1 + fld g.1 32 20
  let side := 4 + fld g.1 52 3 % 7
  let one (i : Nat) (d : Dev) : FrameRec × Dev :=
    let a := takeFreeBytes (26 + 4 * (w * h)) d
    let px := (List.range (w * h)).map (fun j => leAt a.1 (26 + 4 * j) 4)
    ({ mode := BitVec.ofNat 8 (leAt a.1 0 1 % 32), param := w32 (leAt a.1 1 4), floorT := w32 (leAt a.1 5 4), fver := w32 (leAt a.1 9 4),
       user := BitVec.ofNat 64 (leAt a.1 13 8), accTick := i, pixels := px,
       tiles := List.replicate (tilesOf w (2 ^ side) * tilesOf h (2 ^ side)) ⟨64 * leAt a.1 21 4, leAt a.1 25 1 % 2 == 0, leAt a.1 25 1 / 2 % 2 == 0⟩ },
     a.2)
  let fs := (List.range n).foldl (fun (acc : List FrameRec × Dev) i => let r := one i acc.2; (acc.1 ++ [r.1], r.2)) ([], g.2)
  ({ ptype := fld g.1 55 2, tileLog2 := side, width := w, height := h, frames := fs.1 }, fs.2)

/-- The object a task's COMMIT installs, as its record describes it: an INLINE value, or the sheets on media that its extent
table and their tags name (R209, R216, R217, R223). What a record whose CRC is wrong makes visible, and what data that a
program coded or encrypted itself stands for, is left open (log 19). -/
def recordObj (d : Dev) (r : Word) (objId : Nat) : Obj × Dev :=
  let b := recordAt d r
  let len := leAt b 8 8
  let fl := leAt b 3 1
  let inl := recordInline b
  let map := if inl then [] else recordMap d b objId
  let known := recordOk b && fl / 2 % 8 = 0 && leAt b 0 1 = 0
  let raw : Mem := if inl then memStore [] 0 (slice b (64 + leAt b 2 1) (min len 3072))
    else map.foldl (fun m e => match e.2 with
      | .psa p => (match tblGet d.trl.sheets p with | some sh => memStore m (4096 * e.1) sh.data | none => m)
      | .felt _ => m) []
  let f := if known then ([], d) else takeFreeBytes len d
  let g := if leAt b 0 1 = 1 then (let x := freeFrames f.2; (some x.1, x.2)) else (none, f.2)
  ({ objId := objId, len := len, data := if known then raw else memStore [] 0 f.1,
     sheets := if inl then sheetsOf 0 (min len 3072) else map.map (·.1), compress := fl / 2 % 4, stored := leAt b 32 8,
     kgen := leAt b 52 4, map := map, frame := g.1 }, g.2)

/-- The object id a COMMIT installs: the task's, or where the drive has given it none the one its record carries (R223, R226;
log 19). -/
def commitObjId (t : Task) (d : Dev) (r : Word) : Nat := if t.job.objId ≠ 0 then t.job.objId else leAt (recordAt d r) 16 6

/-- Sheets a record leads to are claimed: they are stale once nothing names them any more (R236). -/
def claimSheets (ps : List Nat) (d : Dev) : Dev :=
  { d with trl := { d.trl with sheets := d.trl.sheets.map (fun e => if ps.contains e.1 then (e.1, { e.2 with claimed := true }) else e) } }

/-- What of a committed object is not on media yet: sheets in quires not programmed, and an INLINE value staged in protected
felt (R22, R212). -/
def commitRuns (d : Dev) (r : Word) (o : Obj) : List Run :=
  (o.map.filterMap (fun e => match e.2 with
    | .psa p => if psaOnMedia d p then none
        else some { no := e.1, bytes := (match tblGet d.trl.sheets p with | some sh => sh.data | none => []), amount := 4096, psas := [p] }
    | .felt _ => none)) ++
  (if bitOf r 63 && recordInline (recordAt d r) then [{ kind := 1, amount := o.len }] else [])

/-- A record a program staged in protected felt goes to media like the drive's own (R222, R223). -/
def adoptRecord (env : Env) (n id : Nat) (r : Word) (d : Dev) : Dev :=
  if !bitOf r 63 then d
  else
    let bs := (recordAt d r).take (recordLen (recordAt d r))
    let bs' := bs ++ List.replicate (roundUp bs.length 8 - bs.length) 0
    { d with trl := { d.trl with staged := d.trl.staged ++ [⟨n, fld r 0 60, id, bs'⟩],
                                 stagedAt := if d.trl.staged.isEmpty then env.tick else d.trl.stagedAt } }

/-- Install RECORD, SFLAGS, a version and an object in a locked slot: LIVE, journaled and held (R226, R232). -/
def commitRecord (env : Env) (t : Task) (n : Nat) (y : Slot) (ver : W32) (r : Word) (sflags : Byte) (d : Dev) : Dev :=
  let ob := recordObj d r (commitObjId t d r)
  let o := ob.1
  let pg := givePages o (mappedExtents o) ob.2
  let d1 := updSlot n (fun z =>
    { z with live := true, version := ver, record := r, sflags := sflags, objId := o.objId, obj := some pg.1 })
    (claimSheets (o.psas d ++ (if bitOf r 63 then [] else [fld r 0 40])) pg.2)
  let h := addHeld t n y ver o.objId o.len (commitRuns d1 r o) (addJournal .commit n ver.toNat (o.objId + r.toNat * 2 ^ 48) d1)
  updTask t.eng t.ctx (fun z => { z with job := { z.job with heldIds := z.job.heldIds ++ [h.1] } }) (adoptRecord env n h.1 r h.2)

/-- COMMIT: installs RECORD, SFLAGS, the version and the task's OBJ_ID in the locked slot, sets LIVE and releases the lock; a
version that would pass the durable mark waits for a new one (R226, R234). -/
def execCommit (p : PostRef) (s : State) : Host.Outcome State Fault Refusal :=
  unitStep p 4 2 (fun env t x d =>
    let c := x.desc
    let n := cap c 24 8
    match slotAt d n with
    | none => d
    | some y =>
      let k := y.ksid.toNat
      if cap c 40 4 = 0 && !runAllowed d k 1 then ensureMark k 1 d
      else
        let run := if cap c 40 4 = 0 then takeVer env k d else (w32 (cap c 40 4), d)
        let d1 := commitRecord env t n y run.1 (BitVec.ofNat 64 (cap c 32 8)) (BitVec.ofNat 8 (cap c 44 1)) run.2
        endPost p t (postCost d) 0 (BitVec.ofNat 64 run.1.toNat) (dropLock n d1)) s

/-- UNLOCK: releases the lock (R226). -/
def execUnlock (p : PostRef) (s : State) : Host.Outcome State Fault Refusal :=
  unitStep p 4 3 (fun _ t x d => endPost p t (postCost d) 0 0 (dropLock (cap x.desc 24 8) d)) s

/-- REMOVE: frees the locked slot and takes the next version for the deletion (R226, R234). -/
def execRemove (p : PostRef) (s : State) : Host.Outcome State Fault Refusal :=
  unitStep p 4 4 (fun env t x d =>
    let n := cap x.desc 24 8
    match slotAt d n with
    | none => d
    | some y =>
      let k := y.ksid.toNat
      if !runAllowed d k 1 then ensureMark k 1 d
      else
        let run := takeVer env k d
        let h := uninstall t n run.1 run.2
        let d2 := updTask t.eng t.ctx (fun z => { z with job := { z.job with heldIds := z.job.heldIds ++ [h.1] } }) h.2
        endPost p t (postCost d) 0 (BitVec.ofNat 64 run.1.toNat) (dropLock n d2)) s

/-- SEQ: reserves COUNT consecutive versions (R138, R226, R234). -/
def execSeq (p : PostRef) (s : State) : Host.Outcome State Fault Refusal :=
  unitStep p 4 5 (fun env t x d =>
    let k := cap x.desc 0 1
    let n := cap x.desc 4 4
    if !runAllowed d k n then ensureMark k n d
    else
      let run := takeRun env k n d
      endPost p t (postCost d) 0 (BitVec.ofNat 64 run.1.toNat) run.2) s

/-- SCAN: up to COUNT copies of LIVE slots with the prefix, in ascending hash from HASH; RESULT is the hash of the first
slot not examined, 0 when none remains (R226). After its COUNTth copy it examines on to the next slot that matches, whose hash is
RESULT (DESIGN CHOICE, log 147). -/
def execScan (p : PostRef) (s : State) : Host.Outcome State Fault Refusal :=
  unitStep p 4 6 (fun _ t x d =>
    let c := x.desc
    let pre := dirKey d t c
    let hits := (listSlots d (cap c 0 1) (cap c 16 8)).filter (fun y => pre.isPrefixOf y.key)
    let result : Word := match hits[cap c 4 4]? with | some y => y.hash | none => 0
    endPost p t (postCost d) 0 result (copyOut t c ((hits.take (cap c 4 4)).flatMap slotBytes) d)) s

/-! ### Grants and timeouts (R155, R157, R159, R224) -/

/-- The first waiting request a slot's lock may go to. -/
def firstEligible (s : Slot) : Option LockReq :=
  s.waiters.find? (fun w => s.lock.isNone && (w.read || s.reservation.isNone || s.reservation == some w.owner))

/-- The task an owner stands for, itself or one of its members. -/
def ownerTask (d : Dev) (o : Owner) : Option Task := d.mea.tasks.find? (fun t => t.kind != .hook && t.owns o)

/-- A command, or a BATCH's member, gets its slot. -/
def lockTo (t : Task) (o : Owner) (slot : Nat) (d : Dev) : Dev :=
  match o.mem with
  | none => putTask { t with job := { t.job with lock := .held slot } } d
  | some i => updMember t.eng t.ctx i (fun m => { m with job := { m.job with lock := .held slot } }) d

/-- SLOT_LOCK_GRANT: the lock goes to the first request that may take it, in the order they reached the walker; a LOCK of a task
with 64 locks waits (R224). -/
def execSlotLockGrant (slot : Nat) (s : State) : Host.Outcome State Fault Refusal :=
  onDev s (fun _ d =>
    match slotAt d slot with
    | none => d
    | some x =>
      match firstEligible x with
      | none => d
      | some w =>
        if w.tag.isSome && 64 ≤ locksHeld d w.owner then d
        else
        let d1 := updSlot slot (fun x => { x with lock := some w.owner, waiters := x.waiters.filter (fun y => y != w) }) d
        match w.tag, ownerTask d1 w.owner with
        | some tag, some t =>
          let c := match t.posts.find? (fun p => p.tag == tag) with | some p => p.desc | none => 0
          lockGranted ⟨w.owner.eng, w.owner.ctx, tag⟩ t c slot d1
        | none, some t => lockTo t w.owner slot d1
        | _, none => dropLock slot d1)

/-- A LOCK post of an owner whose COUNT ticks have passed. -/
def dueLock (env : Env) (o : Owner) (w : LockReq) : Bool :=
  w.owner == o && w.tag.isSome && (match w.due with | some due => decide (due ≤ env.tick) | none => false)

/-- A command that waits for its slot lock, and whose 10 s have passed (R159). -/
def lockLate (env : Env) (t : Task) : Bool :=
  (match t.job.lock, t.job.phase with | .waiting _, .start => true | _, _ => false) && decide (t.job.lockDue ≤ env.tick) && !t.completed

/-- A task's command, or the first of its members, that has waited too long. -/
def lateCommand (env : Env) (t : Task) : Option Task :=
  if lockLate env t then some t
  else ((t.members.zipIdx).find? (fun x => x.1.verdict.isNone && lockLate env (memberTask t x.2 x.1))).map (fun x => memberTask t x.2 x.1)

/-- SLOT_LOCK_TIMEOUT: a command without its slot lock 10 s after dispatch completes with SC_TIMEOUT, or as WORN has it, which
R173 asks first; a LOCK post whose COUNT ticks have passed completes with STATUS 0x10 (R159, R226). -/
def execSlotLockTimeout (t : TaskRef) (s : State) : Host.Outcome State Fault Refusal :=
  onDev s (fun env d =>
    match taskOf d t with
    | none => d
    | some x =>
      match lateCommand env x with
      | some y => endJob env y (if wornStops d y.capsule then scMediaWorn else scTimeout) 0 false d
      | none =>
        match d.kdr.slots.find? (fun y => y.2.waiters.any (dueLock env x.owner)) with
        | none => d
        | some y =>
          match y.2.waiters.find? (dueLock env x.owner) with
          | none => d
          | some w =>
            let d1 := updSlot y.1 (fun z => { z with waiters := z.waiters.filter (fun v => v != w) }) d
            endPost ⟨x.eng, x.ctx, w.tag.getD 0⟩ x (postCost d) 0x10 0 (pruneSlots d1))

end Sys2Proof.Machine
end

