-- ==== Sys2Proof/Machine/Governor.lean ====
section
/-! DEFINITION. The budget governor (11): the window boundary with its sharing, thermal ceilings and VCORE control,
the power cap, and migration of affinity groups. -/

namespace Sys2Proof.Machine

/-- A signed number as a 32-bit parameter of an event. -/
def i32 (x : Int) : Nat := (BitVec.ofInt 32 x).toNat

/-- Change one thermal group. -/
def updTg (g : Nat) (f : TGroup → TGroup) (d : Dev) : Dev := { d with bgv := { d.bgv with tg := vupd d.bgv.tg g f } }

/-! ### Sensors and thermal groups (R369) -/

/-- The group a sensor belongs to. -/
def sensorGroup (s : Nat) : Nat :=
  if s < 16 then 0 else if s < 64 then 1 else if s < 72 then 2 else if s < 74 then 3 else if s = 74 then 4 else 5

/-- A sensor reads out of range or does not answer: it is taken to read its group's SOFT (R369). -/
def sensorFailed (env : Env) (s : Nat) (d : Dev) : Dev :=
  if d.bgv.failed.contains s then d
  else event env 0x0607 4 clsHardware 0 s 0 0
    (setCause env 6 0x20 { d with bgv := { d.bgv with failed := d.bgv.failed ++ [s] } })

/-- Readings of a window are taken: a sensor without one has failed, one that answers again is valid. THERMAL_CRITICAL
holds while a CTRL sensor reads 115 °C (R369, R441). -/
def takeTemps (env : Env) (ts : List Temp) (d : Dev) : Dev :=
  let good (s : Nat) : Bool := (ts.getD s none).isSome
  let d1 := { d with bgv := { d.bgv with temps := ts, failed := d.bgv.failed.filter (fun s => !good s) } }
  let d2 := ((List.range 76).filter (fun s => !good s)).foldl (fun d s => sensorFailed env s d) d1
  let critical (s : Nat) : Bool := match ts.getD s none with | some t => 1840 ≤ t | none => false
  if (List.range 16).any critical then d2 else releaseFatal 0 d2

/-- What WC0 and WC1 and the rest of the drive need, in 1/100 W: the ceiling at HARD. -/
def hardCeil (d : Dev) : Nat :=
  let uj : Int := d.bgv.fixedUj + ((wcOf d 0).fund + (wcOf d 1).fund) / 256
  min 24000 (uj.toNat / 10)

/-- A group's ceiling moves; falling below 240 W and coming back to it are reported (R369, R373). -/
def setCeil (env : Env) (g s : Nat) (h : Int) (c : Nat) (d : Dev) : Dev :=
  let old := (vget d.bgv.tg g (tgroupDefault g)).ceilCw
  let d1 := updTg g (fun t => { t with ceilCw := c }) d
  if old = 24000 && c < 24000 then event env 0x0601 3 clsHardware g s (i32 h) (c / 100) (setCause env 6 1 d1)
  else if old < 24000 && c = 24000 then event env 0x0603 1 clsHardware g g 0 0 d1
  else d1

/-- A group reaches HARD: its ceiling falls at once, and OPTICS leaves the chain (R369). -/
def reachHard (env : Env) (g s : Nat) (h : Int) (d : Dev) : Dev :=
  let t := vget d.bgv.tg g (tgroupDefault g)
  let d1 := setCeil env g s h (min t.ceilCw (hardCeil d)) d
  if t.atHard then d1
  else
    let d2 := event env 0x0602 5 clsHardware g s (i32 h) 0 (setCause env 6 2 (updTg g (fun t => { t with atHard := true }) d1))
    if g = 3 then removeNow env 4 d2 else d2

/-- The hottest valid sensor of a group; its SOFT when none is valid (R369, R373). -/
def hottestValid (d : Dev) (g : Nat) : Int :=
  match (groupSensors g).filterMap (fun s => if d.bgv.failed.contains s then none else d.bgv.temps.getD s none) with
  | [] => 16 * (softEff d g : Int)
  | t :: ts => ts.foldl max t

/-- One group at a boundary. -/
def thermalGroup (env : Env) (d : Dev) (g : Nat) : Dev :=
  let x := hottest d g
  let t := vget d.bgv.tg g (tgroupDefault g)
  let soft : Int := 16 * (softEff d g : Int)
  let d1 := updTg g (fun t => { t with maxC := hottestValid d g / 16, atHard := t.atHard && decide (soft ≤ x.2) }) d
  if g = 5 then
    let high := decide (soft < x.2)
    let d2 := { d1 with bgv := { d1.bgv with inletHigh := high } }
    if high && !d.bgv.inletHigh then event env 0x060A 3 clsHardware 0 (i32 x.2) 0 0 (setCause env 6 0x40 d2) else d2
  else if 16 * (t.hard : Int) ≤ x.2 then reachHard env g x.1 x.2 d1
  else if soft < x.2 then
    let pct := min 20 (2 * ((x.2 - soft) / 16).toNat)
    setCeil env g x.1 x.2 (t.ceilCw - t.ceilCw * pct / 100) d1
  else if x.2 ≤ soft - 48 then setCeil env g x.1 x.2 (min 24000 (t.ceilCw + 240)) d1
  else d1

/-- The ceiling the blower-fault budget left rises as R369 states, once BLD has reported healthy (R370). -/
def blowerRise (d : Dev) : Dev :=
  let b := d.bgv
  if b.blowerFault then { d with bgv := { b with blowerCw := 100 * blowerBudgetW d } }
  else if 48 ≤ thermMargin d then { d with bgv := { b with blowerCw := min 24000 (b.blowerCw + 240) } }
  else d

/-! ### Sharing (R357) -/

/-- A class in the sharing: funding so far, what it may take in all, and its weight. -/
structure Share where
  fund : Nat
  most : Nat
  weight : Nat

/-- One round: each class that wants more gets its part of what is left. Answers the classes and what was given. -/
def shareRound (left : Nat) (cs : List Share) : List Share × Nat :=
  let w := ((cs.filter (fun c => c.fund < c.most)).map (·.weight)).foldl (· + ·) 0
  let gain (c : Share) : Nat := if c.fund < c.most then min (left * c.weight / w) (c.most - c.fund) else 0
  (cs.map (fun c => { c with fund := c.fund + gain c }), (cs.map gain).foldl (· + ·) 0)

/-- The largest weight among the classes that want more. -/
def topWeight (cs : List Share) : Nat := ((cs.filter (fun c => c.fund < c.most)).map (·.weight)).foldl max 0

/-- One µJ to the first class that wants more and has a given weight. -/
def giveOne (w : Nat) : List Share → List Share
  | [] => []
  | c :: t => if c.fund < c.most && c.weight = w then { c with fund := c.fund + 1 } :: t else c :: giveOne w t

/-- Rounds until nothing is left or no class wants more. Each round exhausts a class, or leaves at most one µJ for each
of the 14 classes, so that 64 rounds are enough. -/
def share : Nat → Nat → List Share → List Share × Nat
  | 0, left, cs => (cs, left)
  | n + 1, left, cs =>
    if left = 0 || cs.all (fun c => c.most ≤ c.fund) then (cs, left)
    else
      let r := shareRound left cs
      if r.2 = 0 then share n (left - 1) (giveOne (topWeight cs) cs) else share n (left - r.2) r.1

/-- Tasks the drive's own queues hold for a class: refreshes that wait and patrol while there is a programmed page (WC7), keyspaces
to reclaim (WC6), and a running self-test (WC10). How many arrivals such a queue counts as the manual does not say (DESIGN
CHOICE, log 157). -/
def queuedWork (d : Dev) (c : Nat) : Nat :=
  match c with
  | 6 => (d.kdr.ks.filter (fun x => x.2.deleting)).length
  | 7 => (d.trl.reams.filter (fun x => x.2.refreshQ.isSome && !owned d x.1)).length +
      b2n (d.trl.reams.any (fun x => !x.2.programmedQ.isEmpty))
  | 10 => b2n d.adm.test.isSome
  | _ => 0

/-- The demand of a class in whole µJ: the EST of its waiting arrivals, those of the internal queues among them, and its spend in
the last window, at 9/8 when it spent all of its funding (R356, R357). -/
def demandUj (d : Dev) (c : Nat) : Nat :=
  let est := (d.mea.arrivals.filter (fun a => arrClass d a = c)).map (arrEst d)
  let sp := (wcOf d c).spend.toNat / 256
  (est.foldl (· + ·) 0 + queuedWork d c * (Config.internalEst c).toNat) / 256 + (if remaining d c ≤ 0 then 9 * sp / 8 else sp)

/-- FLOOR_PCT of a class as it acts (R361, R373). -/
def floorPct (env : Env) (d : Dev) (c : Nat) : Nat :=
  let f := min 100 (wcOf d c).floorPct
  if c = 6 && freeReams env d < freeUrgent d then max 25 f else f

/-- WC2–WC15 before the first round: floors, ceilings and demands in µJ (R357). -/
def shares (env : Env) (eWork : Nat) (d : Dev) : List Share :=
  let sum := ((List.range 14).map (fun i => floorPct env d (i + 2))).foldl (· + ·) 0
  (List.range 14).map (fun i =>
    let c := i + 2
    let f := floorPct env d c
    let fl := if 100 < sum then eWork * f / sum else eWork * f / 100
    let cl := eWork * max f (min 100 (wcOf d c).ceilPct) / 100
    let dm := if env.pw.st == .dormant && c ≠ 2 then 0 else demandUj d c
    ⟨min dm (min fl cl), min dm cl, max 1 (wcOf d c).weight⟩)

/-! ### The boundary (R356, R358, R360, R366) -/

/-- A number of 1/256 µJ rounded up to whole µJ. -/
def ceilUj (x : Int) : Int := (x + 255) / 256

/-- Each powered optical engine costs WC0 14,000 µJ a window (R362). -/
def chargeOptics (d : Dev) : Dev := if d.cpt.optics then charge 0 (2 * 14000 * 256) d else d

/-- Debt a class carries out of a window, and its age; debt outstanding after 16 windows is forgiven (R360). -/
def settleDebt (env : Env) (d : Dev) (c : Nat) : Dev :=
  let r := remaining d c
  if 0 ≤ r then updWc c (fun w => { w with debt := 0, debtAge := 0 }) d
  else if 16 ≤ (wcOf d c).debtAge then
    event env 0x0608 2 clsHardware 0 c ((-r) / 256).toNat 0
      (setCause env 6 0x80 (updWc c (fun w => { w with debt := 0, debtAge := 0 }) d))
  else updWc c (fun w => { w with debt := -r, debtAge := w.debtAge + 1 }) d

/-- A class begins the new window with its funding. -/
def Wc.begin (uj : Nat) (w : Wc) : Wc := { w with fund := 256 * (uj : Int), lastSpend := w.spend, spend := 0 }

/-- fixed, fund[0] and fund[1] of the new window, in whole µJ (R356). -/
def fixedOf (input : Nat) (d : Dev) : Int :=
  ceilUj (256 * (input : Int) - ((List.range 16).map (fun c => (wcOf d c).spend)).foldl (· + ·) 0)
def peakFund (d : Dev) : Nat := let p := (ceilUj (d.bgv.peaks.foldl max 0)).toNat; p + p / 8
def wc1Fund (d : Dev) : Nat := max 1000 d.bgv.wc1

/-- A window has overrun by more than 3 % (R366). -/
def overran (input : Nat) (d : Dev) : Bool :=
  match d.bgv.eAvailUj with
  | some e => e * 103 < input * 100
  | none => false

/-- OVERPOWER, its event at most once per second. -/
def reportOver (env : Env) (input : Nat) (d : Dev) : Dev :=
  let d1 := setCause env 6 8 d
  let due := match d.bgv.overTick with | some t => decide (t + Config.second ≤ env.tick) | none => true
  if due then
    event env 0x0605 3 clsPower 0 (input / 10) (d.bgv.eAvailUj.getD 0 / 1000) d.bgv.vcore
      { d1 with bgv := { d1.bgv with overTick := some env.tick } }
  else d1

/-- fund[0] and fund[1] of the new window: in DRAIN only WC1 is funded (R460). -/
def fund0 (env : Env) (d : Dev) : Nat := if env.pw.st == .drain then 0 else peakFund d

/-- The sharing of the new window, from the demands of the one that ends. In DORMANT only WC0, WC1 and WC2's own demand
are funded, in DRAIN only WC1 (R356, R357, R448, R460). -/
def shared (env : Env) (d : Dev) : List Share × Nat :=
  let eWork : Nat :=
    if env.pw.st == .drain then 0
    else ((d.bgv.effectiveW * 1000 : Nat) - d.bgv.fixedUj - fund0 env d - wc1Fund d : Int).toNat
  let start := shares env eWork d
  share 64 (eWork - (start.map (·.fund)).foldl (· + ·) 0) start

/-- Every class begins the new window with its funding; `ovr` scales WC2–WC15 by 7/8 (R358, R366). -/
def fundClasses (env : Env) (ovr : Bool) (r : List Share × Nat) (d : Dev) : Dev :=
  let f0 := fund0 env d
  let f1 := wc1Fund d
  let fund (c : Nat) : Nat :=
    if c = 0 then f0 else if c = 1 then f1
    else
      let f := match r.1[c - 2]? with | some x => x.fund | none => 0
      if ovr then f * 7 / 8 else f
  let d1 := (List.range 16).foldl (fun d c => updWc c (Wc.begin (fund c)) d) d
  { d1 with bgv := { d1.bgv with eAvailUj := some (d.bgv.effectiveW * 1000),
                                 spare := if env.pw.st == .dormant then 0 else 256 * (r.2 : Int) } }

/-! ### VCORE (R366–R368) -/

/-- BGV_VCORE.MIN and MAX as they act. -/
def vminEff (d : Dev) : Nat := min 70 d.bgv.vmin
def vmaxEff (d : Dev) : Nat := max (min 70 d.bgv.vmax) (vminEff d)

/-- The floor of VCORE, as a setpoint code. -/
def vFloor (env : Env) (paceFloor : Nat) (d : Dev) : Nat :=
  let up := (portOf d 0).link || (portOf d 1).link || env.pw.st == .dormant
  max (vminEff d) (if up then max 30 (min 70 paceFloor) else 0)

/-- The ceiling of VCORE, as a setpoint code. -/
def vCeil (env : Env) (floor : Nat) (d : Dev) : Nat :=
  let hard := (List.range 5).any (fun g => (vget d.bgv.tg g (tgroupDefault g)).atHard)
  min (vmaxEff d) (min (if env.pw.aux12 then 70 else 20) (if hard then floor else 70))

/-- The setpoint chosen at a boundary. -/
def chooseSetpoint (env : Env) (m : Meas) (ovr : Bool) (d : Dev) : Nat :=
  if env.pw.st == .drain then 50
  else
    let s := d.bgv.setpoint
    let x := if d.bgv.vfixed then vminEff d
      else if ovr then s - 5
      else if m.waitedQuarter then s + 2
      else if m.busyPct < 60 then s - 1
      else s
    let fl := vFloor env m.paceFloor d
    max fl (min x (vCeil env fl d))

/-! ### Migration by the governor (R371) -/

/-- The coolest vat's sensor. -/
def coolest (d : Dev) : Nat × Int :=
  (List.range 12).foldl (fun a v => if sensorTemp d 0 v < a.2 then (v, sensorTemp d 0 v) else a) (0, sensorTemp d 0 0)

/-- Count the consecutive windows each vat has read more than DELTA_C above the coolest. -/
def countHot (d : Dev) : Dev :=
  let delta : Int := 16 * ((max 2 (fld d.bgv.mig 8 8) : Nat) : Int)
  let cold := (coolest d).2
  let next (v : Nat) (n : Nat) : Nat := if cold + delta < sensorTemp d 0 v then n + 1 else 0
  { d with bgv := { d.bgv with hotWindows := Vector.ofFn (fun v => next v.val (vget d.bgv.hotWindows v.val 0)) } }

/-- The lowest-numbered group of a vat that is not listed: such a group stands on its first vat and has spent nothing (R47). -/
def firstUnlisted (d : Dev) (vat : Nat) : Option Nat :=
  ((List.range 342).map (fun i => vat + 12 * i)).find? (fun g => g < 4096 && (tblGet d.mea.groups g).isNone)

/-- The unpinned group on a vat with the largest spend of the last window, the lowest number among equals (R371; log 33). -/
def busiest (d : Dev) (vat : Nat) : Option Nat :=
  let gs := (firstUnlisted d vat).toList.map (fun g => (g, ({ vat := vat } : Group))) ++
    d.mea.groups.filter (fun x => x.2.vat == vat && !x.2.pinned && x.1 < 4096)
  (gs.foldl (fun (a : Option (Nat × Group)) x => match a with
    | none => some x
    | some y => some (if y.2.lastSpend < x.2.lastSpend ∨ (y.2.lastSpend = x.2.lastSpend ∧ x.1 < y.1) then x else y)) none).map (·.1)

/-- At most one migration a window: from a vat that has read hot for WINDOWS windows to the coolest (R371). -/
def governMigration (env : Env) (d : Dev) : Dev :=
  let d1 := countHot d
  let need := max 1 (fld d.bgv.mig 16 16)
  if !bitOf d.bgv.mig 0 then d1
  else match (List.range 12).find? (fun v => need ≤ vget d1.bgv.hotWindows v 0) with
    | none => d1
    | some v =>
      match busiest d1 v with
      | none => d1
      | some g => if (groupOf d1 g).draining then d1 else migrate env g (coolest d1).1 false d1

/-- Every group's spend of the window that ends (R371). -/
def rollSpend (d : Dev) : Dev :=
  { d with mea := { d.mea with groups := d.mea.groups.map (fun x => (x.1, { x.2 with lastSpend := x.2.spend, spend := 0 })) } }

/-! ### Commands -/

/-- VCORE is on and the governor works. -/
def governs (env : Env) : Bool :=
  match env.pw.st with
  | .off | .retention => false
  | .bringup => 2 ≤ env.pw.bringStep
  | _ => true

/-- FEC counts of the millisecond: uncorrectable codewords set PARTNER_ERR, and more than 10,000 of them take the link
down (R263, R282, R283). -/
def takeFec (env : Env) (p : Nat) (x : Nat × Nat) (d : Dev) : Dev :=
  let d1 := updPort p (fun q => { q with counts := vupd (vupd q.counts 18 (· + x.1)) 19 (· + x.2) }) d
  let d2 := if x.2 = 0 then d1 else setCause env 2 0x80 d1
  if 10000 < x.2 then portDown env p 3 d2 else d2

/-- The pace counters have counted on, and each unit's measured pace over the last windows is published: Δcount / (1,024 ×
Δticks), in units of 1/1,024 (R353, R373). -/
def takePaces (env : Env) (cs : List Nat) (d : Dev) : Dev :=
  let ticks := 25000 * (env.tick / 25000 - d.bgv.window)
  let d1 := cs.zipIdx.foldl (fun d x => advancePace x.2 x.1 d) d
  let count (u : Nat) : Nat := (d1.bgv.paceCnt.getD u 0 + 2 ^ 64 - d.bgv.paceBase.getD u 0) % 2 ^ 64
  { d1 with bgv := { d1.bgv with paces := (List.range 116).map (fun u => min 0xFFFF (count u / ticks)),
                                 paceBase := d1.bgv.paceCnt } }

/-- FEC counts and the blower's measured values of the window (R263, R283, R480). -/
def takeMeas (env : Env) (m : Meas) (d : Dev) : Dev :=
  let fec (p : Nat) (d : Dev) : Dev := match m.fec[p]? with | some x => takeFec env p x d | none => d
  let b := m.blower
  let ticks := 25000 * (env.tick / 25000 - d.bgv.window)
  let run (x : Bld) : Bld := if x.st == .run then x.steer ticks else x
  let seen (x : Bld) : Bld :=
    { x with rpm := b.rpm, reverse := b.reverse, conf := b.conf, inputCw := b.inputCw, phaseMa := b.phaseMa }
  updBld (fun x => ((run (seen x)).seeBus b.busMv).note env.tick)
    (fec 1 (fec 0 (takePaces env (m.paces.take 116) { d with bgv := { d.bgv with inputUj := m.inputUj } })))

/-- The end of a window: what it cost, then the limits, funding and VCORE of the next. -/
def boundary (env : Env) (m : Meas) (d : Dev) : Dev :=
  let d1 := chargeOptics (takeMeas env m d)
  let ovr := overran m.inputUj d1
  let d2 := { d1 with bgv := { d1.bgv with
    window := env.tick / 25000, fixedUj := fixedOf m.inputUj d1, peaks := ((wcOf d1 0).spend :: d1.bgv.peaks).take 16,
    capInForce := d1.bgv.cap } }
  let d3 := (List.range 6).foldl (thermalGroup env) (takeTemps env m.temps d2)
  let d4 := setBudget (takeSupply env (blowerRise d3))
  let d5 := if ovr then reportOver env m.inputUj d4 else d4
  let d6 := (List.range 16).foldl (settleDebt env) d5
  let d7 := fundClasses env ovr (shared env d5) d6
  let d8 := { d7 with bgv := { d7.bgv with setpoint := chooseSetpoint env m ovr d7 } }
  giveDemand env (governMigration env (rollSpend d8))

/-- WINDOW_BOUNDARY: a 1 ms window has ended (R350, R356). -/
def execWindowBoundary (m : Meas) (s : State) : Host.Outcome State Fault Refusal :=
  onDev s (fun env d => if governs env && d.bgv.window < env.tick / 25000 then boundary env m d else d)

/-- The power cap takes a value: lowered at once, raised at the next boundary (R364). -/
def setCap (env : Env) (w : Nat) (d : Dev) : Dev :=
  let b := d.bgv
  if w = b.cap then d
  else
    let d1 := { d with bgv := { b with cap := w } }
    let d2 := if w < b.capInForce then
        let old := actingCap b.supplyW b.capInForce
        let new := actingCap b.supplyW w
        let d' := setBudget { d1 with bgv := { d1.bgv with capInForce := w } }
        if new < old then scaleFunding new old d' else d'
      else d1
    event env 0x060C 1 clsPower 0 w b.cap 0 d2

/-- BGV_CAP_WRITE (R364, R373). -/
def execBgvCapWrite (v : W32) (s : State) : Host.Outcome State Fault Refusal :=
  onDev s (fun env d => if hostAlive env then setCap env (fld v 0 9) d else d)

/-- VCORE_STEP: the regulator moves one 5 mV step toward the setpoint every 250 ticks (R32, R367). -/
def execVcoreStep (s : State) : Host.Outcome State Fault Refusal :=
  onDev s (fun env d =>
    let b := d.bgv
    if b.vcore = b.setpoint || !governs env || env.tick < b.lastStep + 250 then d
    else { d with bgv := { b with vcore := if b.vcore < b.setpoint then b.vcore + 1 else b.vcore - 1,
                                  lastStep := env.tick } })

/-- A write of BGV_GROUP_MOVE: GO applies PIN and moves the selected group, or is refused (R58, R372, R373). -/
def groupMove (v : W32) (env : Env) (d : Dev) : Dev :=
  if !bitOf v 31 then d
  else
    let g := d.bgv.groupSel
    let vat := fld v 0 4
    if 11 < vat then updGroup g (fun x => { x with lastMove := 3 }) d
    else
      let d1 := updGroup g (fun x => { x with pinned := bitOf v 4 }) d
      if (groupOf d g).vat = vat then d1
      else if (groupOf d g).draining then updGroup g (fun x => { x with lastMove := 2 }) d
      else migrate env g vat true (updGroup g (fun x => { x with lastMove := 1 }) d1)

/-- BGV_GROUP_MOVE (R372). -/
def execBgvGroupMove (v : W32) (s : State) : Host.Outcome State Fault Refusal :=
  onDev s (fun env d => if hostAlive env then groupMove v env d else d)

/-- SENSOR_FAIL (R369). -/
def execSensorFail (sensor : Nat) (s : State) : Host.Outcome State Fault Refusal :=
  onDev s (fun env d =>
    if sensor < 76 && governs env then
      let d1 := sensorFailed env sensor { d with bgv := { d.bgv with temps := d.bgv.temps.set sensor none } }
      let g := sensorGroup sensor
      let x := hottest d1 g
      let t := vget d1.bgv.tg g (tgroupDefault g)
      if g ≠ 5 && 16 * (t.hard : Int) ≤ x.2 then setBudget (reachHard env g x.1 x.2 d1) else d1
    else d)

/-- BLOWER_BUDGET: the last report of BLD was a fault, and the budget is not yet in force (R31, R370). -/
def execBlowerBudget (s : State) : Host.Outcome State Fault Refusal :=
  onDev s (fun env d => if !d.bld.healthy && !d.bgv.blowerFault && governs env then applyBlowerBudget env d else d)

end Sys2Proof.Machine
end

