-- ==== Sys2Proof/Machine/Reset.lean ====
section
/-! DEFINITION. Resets (04, R98–R104, R124; 16, R453–R456): the host side's, the VCORE domain's and the device reset's
steps, with enabling and shutdown of the controller. -/

namespace Sys2Proof.Machine

/-! ### What is quiet -/

/-- A command's task: not the drive's own internal work. -/
def cmdKind (k : Kind) : Bool := match k with | .internal | .timer => false | _ => true

/-- Every command fetched or dispatched has completed, and protected felt is on media (R104, R448, R449). -/
def quiet (d : Dev) : Bool :=
  d.mea.tasks.all (fun t => !cmdKind t.kind) && d.mea.arrivals.all (fun a => !cmdKind a.kind) &&
  d.flt.held.all (fun h => h.settled d)

/-! ### The host side (R56, R103, R124) -/

/-- Configuration space and the MSI-X table at their reset values (R454). -/
def resetConfig (d : Dev) : Dev :=
  { d with hqe := { d.hqe with msixOn := false, msixMask := false, msix := [], pba := [], busMaster := false,
                               relaxed := false, mps := 128, mrrs := 512, cto := 0, d3hot := false,
                               aer := {} } }

/-- Host commands fetched and not dispatched are abandoned with no effect (R56). -/
def dropHostArrivals (d : Dev) : Dev :=
  let gone := (d.mea.arrivals.filter (fun a => a.kind == .host)).map (·.group)
  let d1 := { d with mea := { d.mea with arrivals := d.mea.arrivals.filter (fun a => a.kind != .host) } }
  gone.foldl (fun d g => throttle g d) d1

/-- Loopback commands that a device reset finds undispatched are abandoned: their parents get SC_ABORTED_RESET (R174, R455). -/
def abortLoops (env : Env) (d : Dev) : Dev :=
  (d.mea.arrivals.filter (fun a => a.kind == .loop)).foldl (fun d a => answerArrival env a scAbortedReset 0 d) d

/-- What a user program's regions hold does not survive a controller reset: free values, the program itself staying
loaded (R42, R408; log 4). -/
def scrubRegions (d : Dev) : Dev :=
  let one (d : Dev) (p : Nat × Program) : Dev :=
    let f := takeFreeBytes (p.2.feLen + p.2.drLen) d
    let m := f.2.mea
    { f.2 with mea := { m with fe := memStore m.fe p.2.feOff (f.1.take p.2.feLen),
                               dr := memStore m.dr p.2.drOff (f.1.drop p.2.feLen) } }
  d.mea.programs.foldl one d

/-- Fetching stays stopped through a controller reset: a device reset or a power-state entry holds it (R448, R449, R455). -/
def fetchHeld (env : Env) : Bool := env.pw.resetStep.isSome || env.pw.trans != .none || env.pw.st == .dormant

/-- The effects of a controller reset: 3 PCI Express conventional, 4 Function Level, 5 controller (R103, R124, R454). -/
def hostReset (kind : Nat) (env : Env) (d : Dev) : Dev :=
  let d1 := resetCouch env (dropHostArrivals (loseLease env 1 (scrubRegions d)))
  let h := d1.hqe
  let d2 : Dev :=
      { d1 with hqe :=
      { h with ready := false, enable := false, enableHeld := false, resetBusy := true, shutdown := false,
               shutdownDone := false, fetchStopped := fetchHeld env, pairs := [], hostGen := h.hostGen + 1, turn := none,
               heldCqes := [], heldMsi := [], bmeHold := none } }
  let d3 := if kind = 5 then d2 else resetConfig d2
  event env 0x0002 1 clsPower 0 kind 0 0 { d3 with lastReset := kind }

/-- A deferred activation takes effect at the first controller reset: the swap follows, with no new credit until it has
ended (R416, R417). During bring-up the loader sees to it. -/
def armDeferred (env : Env) (d : Dev) : Dev :=
  if d.sec.pending && d.sec.activating.isNone && (env.pw.st == .active || env.pw.st == .dormant) then
    { d with sec := { d.sec with activating := some (none, env.tick, d.sec.pendTrialS) },
             xpt := { d.xpt with creditHeld := true } }
  else d

/-- A controller reset of any origin while the host side lives. -/
def controllerReset (kind : Nat) (env : Env) (d : Dev) : Dev := armDeferred env (hostReset kind env d)

/-! ### DEV_CTRL (R102–R104, R453) -/

/-- Pair 0 as enabling defines it: URGENT, vector 0, affinity group 0, no coalescing (R102). -/
def adminPair (h : Hqe) : Pair :=
  { sqBase := h.admSq, cqBase := h.admCq, size := fld h.admSize 0 12 + 1, vector := 0, cls := 0, ien := true, group := 0 }

/-- ENABLE takes effect: the admin registers are checked and pair 0 comes to exist (R102). -/
def enableNow (d : Dev) : Dev :=
  let h := d.hqe
  if fld h.admSize 0 12 = 0 then { d with hqe := { h with cfgErr := true, enable := false, enableHeld := false, ready := false } }
  else { d with hqe := { h with cfgErr := false, enable := true, ready := true, enableHeld := false,
                                pairs := tblSet h.pairs 0 { adminPair h with born := d.mea.nextArrival } } }

/-- A write of ENABLE = 1: ignored while RESET_BUSY reads 1, held before ACTIVE (R103, R453). -/
def writeEnable (env : Env) (d : Dev) : Dev :=
  if d.hqe.enable || d.hqe.resetBusy then d
  else if env.pw.st == .active || env.pw.st == .dormant || env.pw.st == .recovery then enableNow d
  else { d with hqe := { d.hqe with enableHeld := true } }

/-- A write of SHUTDOWN = 1: fetching stops and the flows are reset; once set it has no further effect until a controller
reset (R104, R305). DEV_STATUS.READY stays 1, here and while fetching is paused: whether it clears when fetching stops
the manual leaves open (DESIGN CHOICE, log 120). -/
def writeShutdown (env : Env) (d : Dev) : Dev :=
  if d.hqe.shutdown then d else resetAllFlows env { d with hqe := { d.hqe with shutdown := true, fetchStopped := true } }

/-- A device reset is requested: step 1 of R455, merging with one under way; without effect in DRAIN (R456). What waits for
dispatch from a host queue or from a task is abandoned (R56, R174). -/
def requestDeviceReset (env : Env) (d : Dev) : Env × Dev :=
  if !hostAlive env && env.pw.st != .bringup || env.pw.resetStep.isSome then (env, d)
  else
    let h := d.hqe
    let d1 : Dev :=
      { d with
        hqe :=
      { h with enable := false, enableHeld := false, ready := false, fetchStopped := true, hostGen := h.hostGen + 1,
               heldCqes := [], heldMsi := [], turn := none }
        xpt := { d.xpt with creditHeld := true } }
    ({ env with pw := { env.pw with resetStep := some (1, env.tick), trans := .none, measuring := none } },
     stopBlower env (abortLoops env (dropHostArrivals (loseLease env 1 d1))))

/-- A write of DEV_CTRL: device reset, shutdown, and enabling or a controller reset, in this order (R102–R104). -/
def devCtrlWrite (v : W32) (env : Env) (d : Dev) : Env × Dev :=
  if bitOf v 2 && fld v 24 8 = 0x5D then requestDeviceReset env d
  else
    let d1 := if bitOf v 1 then writeShutdown env d else d
    if bitOf v 0 then (env, writeEnable env d1)
    else if d.hqe.enabled then (env, controllerReset 5 env d1)
    else (env, d1)

/-- A write of DEV_CTRL that reaches the register (R521). -/
def ctrlWrite (v : W32) (env : Env) (d : Dev) : Env × Dev :=
  if barAlive env d then devCtrlWrite v env d else (env, d)

/-- ENABLE: a write of DEV_CTRL with ENABLE = 1 (R102). -/
def execEnable (v : W32) (s : State) : Host.Outcome State Fault Refusal :=
  onEnv s (fun env d => if bitOf v 0 then ctrlWrite v env d else (env, d))

/-- CONTROLLER_RESET: a write of DEV_CTRL with ENABLE = 0 (R103). -/
def execControllerReset (v : W32) (s : State) : Host.Outcome State Fault Refusal :=
  onEnv s (fun env d => if !bitOf v 0 then ctrlWrite v env d else (env, d))

/-- SHUTDOWN: a write of DEV_CTRL with SHUTDOWN = 1 (R104). -/
def execShutdown (v : W32) (s : State) : Host.Outcome State Fault Refusal :=
  onEnv s (fun env d => if bitOf v 1 then ctrlWrite v env d else (env, d))

/-- DEVRST: a write of DEV_CTRL with DEVRST and its key (R454, R455). -/
def execDevrst (v : W32) (s : State) : Host.Outcome State Fault Refusal :=
  onEnv s (fun env d => if bitOf v 2 then ctrlWrite v env d else (env, d))

/-- RESET_BUSY_CLEAR: no task dispatched from a host queue remains outside FREE, and no swap of firmware is owed
(R103, R416). -/
def execResetBusyClear (s : State) : Host.Outcome State Fault Refusal :=
  onDev s (fun _ d =>
    if d.hqe.resetBusy && d.mea.tasks.all (fun t => t.kind != .host) && d.sec.activating.isNone then
      { d with hqe := { d.hqe with resetBusy := false } }
    else d)

/-- SHUTDOWN_DONE: commands have completed, felt is drained, and the checkpoint is written (R104). -/
def execShutdownDone (s : State) : Host.Outcome State Fault Refusal :=
  onDev s (fun env d =>
    if d.hqe.shutdown && !d.hqe.shutdownDone && hostAlive env && quiet d then
      checkpoint env { d with hqe := { d.hqe with shutdownDone := true } }
    else d)

/-- FUNCTION_LEVEL_RESET (R124, R454). -/
def execFunctionLevelReset (s : State) : Host.Outcome State Fault Refusal :=
  onDev s (fun env d => if hostAlive env then controllerReset 4 env d else d)

/-- PCIE_LINK_DOWN: a link-down not caused by PERST# is a conventional reset (R98). -/
def execPcieLinkDown (s : State) : Host.Outcome State Fault Refusal :=
  onDev s (fun env d =>
    if hostAlive env && !d.hqe.perst && d.hqe.linkSpeed ≠ 0 then
      controllerReset 3 env { d with hqe := { d.hqe with linkSpeed := 0, linkWidth := 0 } }
    else d)

/-! ### The VCORE domain (R14, R18, R444, R454) -/

/-- A feature's value at bring-up: the saved one, or its default (R398). -/
def savedOr (d : Dev) (fid dflt : Nat) : Nat := tblGetD d.adm.saved fid dflt

/-- The attention tree after the reset: every cause cleared, except RDM's unless power was lost (R444). -/
def resetAttn (powerOn : Bool) (d : Dev) : Attn :=
  { cause := if powerOn then Vector.replicate 19 0 else vset (Vector.replicate 19 0) 17 (vget d.attn.cause 17 0) }

/-- The recorder keeps its logs and counts; its windows and control are reset. -/
def resetEvr (d : Dev) : Evr :=
  { service := d.evr.service, boot := d.evr.boot, bootFull := d.evr.bootFull, running := d.evr.running,
    dropped := d.evr.dropped, suppressed := d.evr.suppressed, bootDropped := d.evr.bootDropped,
    durable := d.evr.durable }

/-- No task, arrival, program or placement survives; DRAM may, under self-refresh. Counts since power-on stay. -/
def resetMea (powerOn keepDram : Bool) (d : Dev) : Mea :=
  { nextArrival := d.mea.nextArrival, stamp := d.mea.stamp, dr := if keepDram then d.mea.dr else [],
    ctrl := setFld (0x004009C4 : W32) 0 16 (savedOr d 5 2500),
    userFaults := if powerOn then 0 else d.mea.userFaults, vendorFaults := if powerOn then 0 else d.mea.vendorFaults }

/-- The host queue engine: the deferred-error log survives, the link is down, and counts since power-on stay. The manual gives
the map lease generation no reset value: it stays through every reset and loss of power (DESIGN CHOICE, log 140). -/
def resetHqe (powerOn : Bool) (d : Dev) : Hqe :=
  { perst := d.hqe.perst, hostGen := d.hqe.hostGen + 1, hmem := d.hqe.hmem, irqs := d.hqe.irqs,
    deferred := d.hqe.deferred, defFirst := d.hqe.defFirst, defLost := d.hqe.defLost,
    lease := { gen := d.hqe.lease.gen },
    dbErrors := if powerOn then 0 else d.hqe.dbErrors, dmaErrors := if powerOn then 0 else d.hqe.dmaErrors }

/-- Nobody holds, waits for or reserves a slot any more, and PENDING slots return to EMPTY (R224). -/
def bareSlots (d : Dev) : Dev :=
  pruneSlots { d with kdr := { d.kdr with slots := d.kdr.slots.map (fun x =>
    (x.1, { x.2 with lock := none, waiters := [], reservation := none })) } }

/-- The directory stays as the journal has it; encrypted keyspaces are locked (R377). -/
def resetKdr (powerOn : Bool) (d : Dev) : Kdr :=
  let lock (k : Keyspace) : Keyspace :=
    { k with locked := k.encrypted, ksr := [], mismatches := 0, lockout := none }
  { slots := d.kdr.slots, nextObj := d.kdr.nextObj,
    ks := d.kdr.ks.map (fun x => (x.1, lock x.2)), probeMax := if powerOn then 0 else d.kdr.probeMax }

/-- Felt keeps the drain image until recovery takes it up. -/
def resetFlt (powerOn : Bool) (d : Dev) : Flt :=
  { held := d.flt.held, nextHeld := d.flt.nextHeld, roiWaits := if powerOn then 0 else d.flt.roiWaits }

/-- Calender and couch engine: only counts since power-on stay. -/
def resetCal (powerOn : Bool) (d : Dev) : Cal :=
  if powerOn then { book := d.cal.book }
  else { book := d.cal.book, tiles := d.cal.tiles, rawTiles := d.cal.rawTiles, verifyFails := d.cal.verifyFails }

def resetCch (powerOn : Bool) (d : Dev) : Cch :=
  if powerOn then {}
  else { beats := d.cch.beats, bytes := d.cch.bytes, preempts := d.cch.preempts, timeouts := d.cch.timeouts,
         late := d.cch.late, descInvalid := d.cch.descInvalid }

/-- Media and translation: what stands on media stays, control registers are reset, and recovery is owed (R235, R452). -/
def resetTrl (powerOn : Bool) (d : Dev) : Trl :=
  let z : Trl := {}
  let t : Trl :=
      { d.trl with brokeReg := z.brokeReg, wearReg := z.wearReg, refreshReg := z.refreshReg, patrolReg := z.patrolReg,
                   quireReg := z.quireReg, ckptReg := z.ckptReg, recovering := true }
  if powerOn then { t with retries := 0, soft := 0, rebuilds := 0, uncorr := 0 } else t

/-- Chain ports: BYPASSED, optics off; counts since power-on stay, and so does FAULT until a power-on reset (R255). -/
def resetCpt (powerOn : Bool) (d : Dev) : Cpt :=
  let ports : Vector Port 2 := d.cpt.ports.map (fun p => { counts := if powerOn then Vector.replicate 22 0 else p.counts })
  let fault := !powerOn && d.cpt.bypass == 3
  { ports := ports, station := d.cpt.station, wakeDiscarded := if powerOn then 0 else d.cpt.wakeDiscarded,
    bypass := if fault then 3 else 0, sensed := fault && d.cpt.sensed }

def resetXpt (powerOn : Bool) (d : Dev) : Xpt := if powerOn then {} else { counts := d.xpt.counts }

/-- The governor: BGV_CAP is RWS; after power-on reset it takes the saved POWER_CAP (R373, R398). -/
def resetBgv (powerOn : Bool) (d : Dev) : Bgv :=
  let cap := if powerOn then savedOr d 1 240 else d.bgv.cap
  { cap := cap, capInForce := cap, window := d.bgv.window, lastStep := d.bgv.lastStep }

/-- The security core keeps what its fuses, store and slots hold; LOCK and the download buffer are cleared, and the next
leaf is the durable mark (R13, R388, R413). RETENTION, which is no reset of R13, puts LOCK back as it was. -/
def resetSec (d : Dev) : Sec :=
  { tamperSeen := d.sec.tamperSeen, ownerGen := d.sec.ownerGen, leaf := durableMark d.sec, marks := d.sec.marks,
    slots := d.sec.slots, run := none, runSlot := d.sec.runSlot, conf := d.sec.conf,
    trial := d.sec.trial, trialBoots := d.sec.trialBoots, trialLeft := d.sec.trialLeft, trialFrom := d.sec.trialFrom,
    committed := d.sec.committed, pending := d.sec.pending, pendTrialS := d.sec.pendTrialS, minSvn := d.sec.minSvn,
    driveFmt := d.sec.driveFmt, fallingBack := d.sec.fallingBack, loader := d.sec.loader,
    loaderA := d.sec.loaderA, loaderB := d.sec.loaderB, confirming := d.sec.confirming, revoked := d.sec.revoked }

/-- Unsaved features revert (R398); a self-test under way ends with OUTCOME 3 (R401). -/
def resetAdm (env : Env) (d : Dev) : Adm :=
  let ended : List TestRes :=
    match d.adm.test with
    | some t => [{ kind := t.1, outcome := 3, segment := 0, opsec := opsecNow env, event := 0 }]
    | none => []
  { autoInsert := savedOr d 2 1, selftestH := savedOr d 6 0, ledMgpio := savedOr d 7 0, saved := d.adm.saved,
    results := (ended ++ d.adm.results).take 16, lastPeriod := d.adm.lastPeriod, step := d.adm.step,
    hwRev := d.adm.hwRev, serial := d.adm.serial }

/-- The blower drive: counts since power-on stay (R479, R480). -/
def resetBld (powerOn : Bool) (d : Dev) : Bld :=
  if powerOn then {}
  else { peakMv := d.bld.peakMv, starts := d.bld.starts, startFails := d.bld.startFails, losses := d.bld.losses,
         overvolts := d.bld.overvolts, series := d.bld.series }

/-- VCORE goes: every subsystem 0x01–0x10 loses its state but what media, fuses and RDM keep, and, unless it is a power-on
reset, the RWS fields and counts of R14. -/
def domainReset (powerOn keepDram : Bool) (env : Env) (d0 : Dev) : Dev :=
  let d := bareSlots d0
  { attn := resetAttn powerOn d, evr := resetEvr d, mea := resetMea powerOn keepDram d, hqe := resetHqe powerOn d,
    kdr := resetKdr powerOn d, flt := resetFlt powerOn d, cal := resetCal powerOn d, cch := resetCch powerOn d,
    trl := resetTrl powerOn d, cpt := resetCpt powerOn d, xpt := resetXpt powerOn d, bgv := resetBgv powerOn d,
    ccl := {}, sec := resetSec d, adm := resetAdm env d, bld := resetBld powerOn d, mg := d.mg,
    lastReset := d.lastReset, tickLatch := none, free := d.free }

/-! ### State changes (R447) -/

/-- DEV_STATE codes (R446). -/
def pstateCode (p : PState) : Nat :=
  match p with
  | .off => 0
  | .bringup => 1
  | .active => 2
  | .dormant => 3
  | .retention => 4
  | .drain => 5
  | .recovery => 6

/-- The drive changes state; the change writes event 0x1208 with its cause code. -/
def toState (st : PState) (cause : Nat) (x : Env × Dev) : Env × Dev :=
  let env' := { x.1 with pw := { x.1.pw with st := st } }
  (env', event env' 0x1208 0 clsPower 0 (pstateCode x.1.pw.st) (pstateCode st) cause x.2)

/-- Bring-up starts over from the end of step 1. -/
def restartBringup (cause : Nat) (pw : Power) : Power :=
  { pw with bringStep := 1, bringCause := cause, recovered := false, measured := false, trans := .none,
            resetStep := none, measuring := none, wakeKept := none, holdUntil := none }

/-! ### Device reset (R455) -/

/-- The power registers at a power-on or device reset: the wake cause, the last measurement with its limit, and START (R454,
R464). -/
def resetPower (pw : Power) : Power :=
  { pw with wakeCause := 0, measStart := false, energyMj := 0, capDmf := 0, limitMib := 0 }

/-- Tasks not ended are stopped as a fault is, without an answer; what they had not committed is discarded (R64, R455). -/
def stopTasks (d : Dev) : Dev :=
  let d1 := d.mea.tasks.foldl (fun d t => freeCtx t d) d
  { d1 with
    kdr := { d1.kdr with reserved := 0 }
    flt := { d1.flt with held := d1.flt.held.filter (·.committed), waits := [] }
    hqe := { d1.hqe with lease := { d1.hqe.lease with reads := [] } } }

/-- The switch is at rest in BYPASSED when VCORE goes (R252, R454); one in FAULT stays in it (R255). -/
def forceBypass (env : Env) (cause : Nat) (d : Dev) : Dev :=
  if d.cpt.bypass = 0 || d.cpt.bypass = 3 then d else bypassed env (startRemoval env cause d)

/-- A port still has a frame of the drive's own that may start. -/
def ownWaiting (env : Env) (d : Dev) : Bool :=
  [0, 1].any (fun p => let x := portOf d p; x.link && (mayStart env true x).any (fun f => f.from?.isNone))

/-- The next step of a device reset. The RESETs of step 4 leave before the removal, which waits for them 3 s from the request at
most (DESIGN CHOICE, log 148). -/
def resetAdvance (n t : Nat) (env : Env) (d : Dev) : Env × Dev :=
  let at_ (k : Nat) : Env := { env with pw := { env.pw with resetStep := some (k, t) } }
  if n = 1 then
    if d.mea.tasks.isEmpty then (at_ 2, d)
    else if t + Config.second ≤ env.tick then (at_ 2, stopTasks d)
    else (env, d)
  else if n = 2 then
    if d.trl.recovering then (at_ 3, d)
    else if d.flt.held.all (fun h => h.settled d) then (at_ 3, checkpoint env d) else (env, d)
  else if n = 3 then (at_ 4, resetAllFlows env d)
  else if n = 4 then (if ownWaiting env d && env.tick < t + 3 * Config.second then (env, d) else (at_ 5, startRemoval env 2 d))
  else
    let d1 := domainReset false false env (forceBypass env 2 d)
    let x := toState .bringup 3 ({ env with pw := resetPower (restartBringup 3 env.pw) }, { d1 with lastReset := 2 })
    (x.1, event x.1 0x0002 1 clsPower 0 2 0 0 x.2)

/-- DEVICE_RESET_STEP (R455). -/
def execDeviceResetStep (s : State) : Host.Outcome State Fault Refusal :=
  onEnv s (fun env d =>
    match env.pw.resetStep with
    | some (n, t) => resetAdvance n t env d
    | none => (env, d))

end Sys2Proof.Machine
end

