-- ==== Sys2Proof/Machine/Boot.lean ====
section
/-! DEFINITION. Boot selection and trials (14, R412, R420, R421, R424), and the loader's own verification (R387). -/

namespace Sys2Proof.Machine

/-- Credit is granted again on every flow. -/
def grantAll (d : Dev) : Dev :=
  d.xpt.flows.foldl (fun d f => grantCredit f.1 (throttledGroup d f.2.group) d) d

/-- Change the security core. -/
def updSec (f : Sec → Sec) (d : Dev) : Dev := { d with sec := f d.sec }

/-- The image of a slot. -/
def slotImage (d : Dev) (s : Nat) : Option Image := vget d.sec.slots s none

/-- Trial seconds left: they count main-power-on operation (R420). -/
def trialLeftNow (env : Env) (d : Dev) : Nat :=
  if d.sec.trial.isSome then d.sec.trialLeft - (opsecNow env - d.sec.trialFrom) else 0

/-- A trial of a slot begins (R416, R417, R420). -/
def startTrial (env : Env) (slot secs : Nat) (d : Dev) : Dev :=
  updSec (fun s => { s with trial := some slot, trialBoots := 0, trialLeft := secs, trialFrom := opsecNow env,
                            committed := none, pending := false }) d

/-- FW_VERSION bits 31:0 and FW_SVN of a slot's image. -/
def slotVer32 (d : Dev) (s : Nat) : Nat := match slotImage d s with | some i => i.version.toNat % 2 ^ 32 | none => 0

/-- Vendor code of an image in the vendor range of program store. -/
def vendorCode (i : Option Image) (d : Dev) : Dev :=
  let code := match i with | some x => x.vendor | none => []
  { d with mea := { d.mea with ps := memStore (memZero d.mea.ps 0 0x1800000) 0 code } }

/-- The image of a slot runs: the loader writes its code into program store (R411, R412, R417; log 22). -/
def runImage (slot : Nat) (d : Dev) : Dev :=
  updSec (fun s => { s with run := vget s.slots slot none, runSlot := slot, recovery := false })
    (vendorCode (slotImage d slot) d)

/-- Note whether a slot verified when last checked (R425). -/
def setValid (slot : Nat) (ok : Bool) (d : Dev) : Dev :=
  updSec (fun s => { s with slots := vupd s.slots slot (Option.map (fun i => { i with valid := ok })) }) d

/-- A slot passes the verification of R387: a whole image, its signature good under a key not revoked. -/
def slotVerifies (d : Dev) (slot : Nat) (verified : Bool) : Bool :=
  match slotImage d slot with
  | some i => verified && !i.torn && !bitOf d.sec.revoked i.keyIndex
  | none => false

/-- A candidate may run: it verifies, and its security version is high enough (R412, R423). -/
def candidateOk (d : Dev) (slot : Nat) (verified : Bool) : Bool :=
  slotVerifies d slot verified && (match slotImage d slot with | some i => decide (d.sec.minSvn ≤ i.svn) | none => false)

/-- A candidate fails: event 0x0E20, SEC_CAUSE.BOOT_FAIL (R391, R412). -/
def candidateFails (env : Env) (slot : Nat) (d : Dev) : Dev :=
  event env 0x0E20 7 clsSecurity 0 2 slot 0 (setCause env 14 8 (setValid slot false d))

/-- A candidate that does not run: one that fails the verification is reported, one that verifies is unfit by its security version
or its formats alone (R412, R425). -/
def passOver (env : Env) (slot : Nat) (verified : Bool) (d : Dev) : Dev :=
  if slotVerifies d slot verified then setValid slot true d else candidateFails env slot d

/-- DRIVE_FMT lies within an image's read range (R412, R419). -/
def readsFmt (d : Dev) (slot : Nat) : Bool :=
  match slotImage d slot with
  | some i => i.fmtReadMin ≤ d.sec.driveFmt && d.sec.driveFmt ≤ i.fmtReadMax
  | none => false

/-- Choices 3 and 4 of R412: the other slot on trial, else RECOVERY. -/
def bootOther (env : Env) (ok : Nat → Bool) (d : Dev) : Dev :=
  let o := 1 - d.sec.conf
  if candidateOk d o (ok o) && readsFmt d o then
    let d1 := runImage o (setValid o true (startTrial env o 600 d))
    event env 0x0E33 5 clsSecurity 0 o 3 0 (updSec (fun s => { s with trialBoots := 1 }) d1)
  else
    let d1 := if (slotImage d o).isSome then passOver env o (ok o) d else d
    let valid (s : Nat) : Nat := match slotImage d1 s with | some i => b2n i.valid | none => 0
    event env 0x0E36 7 clsSecurity 0 (valid 0 + 2 * valid 1) 0 0 (updSec (fun s => { s with recovery := true, run := none }) d1)

/-- Choice 2 of R412: the confirmed slot. -/
def bootConfirmed (env : Env) (ok : Nat → Bool) (d : Dev) : Dev :=
  let c := d.sec.conf
  if candidateOk d c (ok c) then runImage c (setValid c true d) else bootOther env ok (passOver env c (ok c) d)

/-- The loader's choice (R412): a deferred activation begins its trial; the trial slot while fewer than 3 boots of it have
begun, then the confirmed slot, the other slot, RECOVERY. -/
def bootSelect (env : Env) (ok : Nat → Bool) (d : Dev) : Dev :=
  let d0 := if d.sec.pending then
      let t := d.sec.committed.getD (1 - d.sec.conf)
      event env 0x0E31 1 clsSecurity 0 t (slotVer32 d t) 0 (startTrial env t d.sec.pendTrialS d)
    else d
  match d0.sec.trial with
  | none =>
    let d1 := bootConfirmed env ok (updSec (fun s => { s with fallingBack := false }) d0)
    if d0.sec.fallingBack then event env 0x0E33 5 clsSecurity 0 d1.sec.runSlot 1 0 d1 else d1
  | some t =>
    if d0.sec.trialBoots < 3 then
      let d1 := updSec (fun s => { s with trialBoots := s.trialBoots + 1 }) d0
      if candidateOk d1 t (ok t) then runImage t (setValid t true d1)
      else bootConfirmed env ok (passOver env t (ok t) d1)
    else
      let d1 := bootConfirmed env ok (updSec (fun s => { s with trial := none, trialBoots := 0, trialLeft := 0 }) d0)
      event env 0x0E33 5 clsSecurity 0 d1.sec.runSlot 2 0 d1

/-- MIN_SVN rises to the image's security version (R422, R423). -/
def raiseSvn (env : Env) (svn : Nat) (d : Dev) : Dev :=
  let old := d.sec.minSvn
  if svn ≤ old then d
  else event env 0x0E37 2 clsSecurity 0 old svn 0 (updSec (fun s => { s with minSvn := svn }) d)

/-- Step 1 of R422: the trial slot is the confirmed one. -/
def confirmSlot (slot : Nat) (d : Dev) : Dev :=
  updSec (fun s => { s with conf := slot, trial := none, trialBoots := 0, trialLeft := 0, confirming := some (slot, 2, 0) }) d

/-- A confirmation has done its last step. -/
def confirmed (env : Env) (slot : Nat) (i : Image) (d : Dev) : Dev :=
  event env 0x0E32 1 clsSecurity 0 slot (i.version.toNat % 2 ^ 32) d.sec.driveFmt (updSec (fun s => { s with confirming := none }) d)

/-- The next step of a confirmation once the step before it is durable: MIN_SVN, DRIVE_FMT's journal record, DRIVE_FMT with loader
copy B, copy A (R422). -/
def confirmStep (env : Env) (d : Dev) : Dev :=
  match d.sec.confirming with
  | none => d
  | some (slot, n, seq) =>
    match slotImage d slot with
    | none => updSec (fun s => { s with confirming := none }) d
    | some i =>
      let go (k q : Nat) (d : Dev) : Dev := updSec (fun s => { s with confirming := some (slot, k, q) }) d
      if d.trl.jDurable < seq then d
      else if n = 2 then go 3 0 (raiseSvn env i.svn d)
      else if n = 3 then go 4 d.trl.jNext (addJournal .fmt (max d.sec.driveFmt i.fmtWrite) 0 0 d)
      else if n = 4 then
        let d1 := updSec (fun s => { s with driveFmt := max s.driveFmt i.fmtWrite }) d
        if i.loader then go 5 0 (updSec (fun s => { s with loaderB := (i.loaderVersion, i.loaderDigest) }) d1)
        else confirmed env slot i d1
      else confirmed env slot i (updSec (fun s => { s with loaderA := (i.loaderVersion, i.loaderDigest) }) d)

/-- A boot finishes what a loss of power left of a confirmation, before commands are fetched (R422). -/
def finishConfirm (env : Env) (d : Dev) : Dev :=
  let next (d : Dev) (_ : Nat) : Dev :=
    confirmStep env (updSec (fun s => { s with confirming := s.confirming.map (fun x => (x.1, x.2.1, 0)) }) d)
  (List.range 4).foldl next d

/-- The boot ROM verifies the loader, copy A and then copy B (R387). Answers whether one verified. -/
def verifyLoader (env : Env) (a b : Bool) (d : Dev) : Bool × Dev :=
  if a then (true, updSec (fun s => { s with loader := s.loaderA }) d)
  else
    let d1 := setCause env 14 8 d
    if b then (true, updSec (fun s => { s with loader := s.loaderB }) d1)
    else (false, setFatal env 1 0x0E20 (event env 0x0E20 7 clsSecurity 0 1 1 0 d1))

end Sys2Proof.Machine
end

