-- ==== Sys2Proof/Machine/Power.lean ====
section
/-! DEFINITION. Power states (16): power-on and bring-up, DORMANT and RETENTION, the power-loss drain, the hold-up
measurement, and what the retention domain and the alarms of the security core do (12, R390). -/

namespace Sys2Proof.Machine

/-- Change the power state's own fields. -/
def Env.upd (f : Power → Power) (env : Env) : Env := { env with pw := f env.pw }

/-! ### Alarms (R390) -/

/-- Lock every encrypted keyspace (R377). -/
def lockAll (d : Dev) : Dev :=
  { d with kdr := { d.kdr with ks := d.kdr.ks.map (fun x => (x.1, { x.2 with locked := x.2.encrypted })) } }

/-- CIPHER posts taken up finish with 0x07: their key slots and sealed slots are gone. -/
def alarmPosts (d : Dev) : Dev :=
  let hit (p : Post) : Post :=
    if p.unit == 2 && (p.st == .captured || p.st == .working) then { p with st := .finished, compl := ⟨0x07, 0⟩ } else p
  { d with mea := { d.mea with tasks := d.mea.tasks.map (fun t => { t with posts := t.posts.map hit }) } }

/-- Tier 2: every key slot and sealed slot zeroed, every encrypted keyspace locked. -/
def tier2 (env : Env) (cause : Nat) (d : Dev) : Dev :=
  let hit := d.ccl.sealed.map (fun x => (x.1, x.2.owner))
  let d1 := freeSealed (hit.map (·.1)) (alarmPosts (lockAll d))
  let d2 := { d1 with ccl := { d1.ccl with keys := [], alarmKeys := d.ccl.alarmKeys ++ d.ccl.keys.map (·.1),
                                           alarmSealed := d1.ccl.alarmSealed ++ hit },
                      kdr := { d1.kdr with ks := d1.kdr.ks.map (fun x => (x.1, { x.2 with ksr := [] })) } }
  event env 0x0E11 6 clsSecurity 0 (Config.unstated cause).toNat 0 0 (setCause env 14 1 (updSec (fun s => { s with tamperSeen := true }) d2))

/-- Overwrite every S_k with values the manual does not give. -/
def scrubSalts (d : Dev) : Dev :=
  let one (d : Dev) (k : Nat) : Dev :=
    let f := takeFreeBytes 32 d
    updKs k (fun x => { x with salt := f.1 }) f.2
  ((d.kdr.ks.filter (fun x => x.2.encrypted)).map (·.1)).foldl one d

/-- Tier 3: tier 2, every S_k overwritten, the owner token generation advanced, then a device reset. -/
def tier3 (env : Env) (cause : Nat) (d : Dev) : Env × Dev :=
  let d1 := scrubSalts (tier2 env cause d)
  let d2 := event env 0x0E12 7 clsSecurity 0 (Config.unstated cause).toNat 0 0 (updSec (fun s => { s with ownerGen := s.ownerGen + 1 }) d1)
  requestDeviceReset env d2

/-- A tier 2 cause acts as its tier: 1 four tier 1 trips, 2 the loop opens, 3 the loop found open at power-on. -/
def alarm (cause : Nat) (env : Env) (d : Dev) : Env × Dev :=
  if d.sec.eraseArm then tier3 env cause d else (env, tier2 env cause d)

/-- RDM runs: VAUX, or slot 3.3 V behind it (R450, R495). -/
def rdmOn (env : Env) : Bool := env.pw.aux33 || env.pw.auxAlt || env.pw.slot33

/-- TAMPER_OPEN: the loop has stayed open for 100 µs (R390). Each opening acts while RDM runs; one that RDM does not see is found at
the next power-on (R492). -/
def execTamperOpen (s : State) : Host.Outcome State Fault Refusal :=
  onEnv s (fun env d =>
    let env1 := env.upd (fun p => { p with loopOpen := true, loopActed := rdmOn env })
    if rdmOn env then alarm 2 env1 d else (env1, d))

/-- GLITCH_TRIP: tier 1, and tier 2 at the fourth trip within 1 s (R390). -/
def execGlitchTrip (detector : Nat) (s : State) : Host.Outcome State Fault Refusal :=
  onEnv s (fun env d =>
    if !governs env then (env, d)
    else
      let trips := env.tick :: d.sec.glitches.filter (fun t => env.tick < t + Config.second)
      let d1 := event env 0x0E10 3 clsSecurity 0 detector 0 0
        (setCause env 14 1 (updSec (fun s => { s with glitches := if 4 ≤ trips.length then [] else trips }) d))
      if 4 ≤ trips.length then alarm 1 env d1 else (env, d1))

/-! ### Power-on and bring-up (R452, R463) -/

/-- The loss before this power-on came without SHUTDOWN_DONE (R463). -/
def reportUnsafe (x : Env × Dev) : Env × Dev :=
  if x.1.pw.unsafePending then
    let env := x.1.upd (fun p => { p with unsafePending := false })
    (env, event env 0x1207 3 clsPower 0 env.pw.unsafeOff 0 0 (setCause env 18 1 x.2))
  else x

/-- RDM has restarted the time base since the last power-on (R450). -/
def reportRestart (x : Env × Dev) : Env × Dev :=
  if x.1.pw.restarted then
    let env := x.1.upd (fun p => { p with restarted := false })
    (env, event env 0x1101 2 clsPower 0 0 0 0 (setCause env 17 1 x.2))
  else x

/-- RDM starts after losing every input: the counter restarts at 0, and the restart is reported (R347, R450, R498). -/
def restartRdm (m2 m3 aux33 auxAlt : Bool) (env : Env) (d : Dev) : Env × Dev :=
  let env1 : Env := { tick := 0, pw := { env.pw with aux33 := aux33, auxAlt := auxAlt, slot33 := !aux33 && !auxAlt, restarted := true,
                                                     m2 := m2, m3 := m3, onTick := 0, holdUntil := none } }
  (env1, setCause env1 17 1 { d with
    mg := Vector.replicate 2 {}
    attn := { d.attn with lastSignal := none }
    bgv := { d.bgv with window := 0, lastStep := 0 } })

/-- The CRC check of the logs at power-on: which records fail it no command says, and is a free value of each; they are removed,
with one event for each log that lost any, 1 the boot log, 2 the service log (R433, R438; DESIGN CHOICE, log 150). -/
def checkLogs (env : Env) (d : Dev) : Dev :=
  let bad (log : Nat) (r : Rec) : Bool := (Config.freeByte d.free (2 * r.run + log)).getLsbD 0
  let tell (log n : Nat) (d : Dev) : Dev :=
    if n = 0 then d else event env 0x0F04 4 clsHardware 0 n log 0 (setCause env 0x0F 0x10 d)
  let e := d.evr
  tell 2 (e.service.filter (bad 0)).length (tell 1 (e.boot.filter (bad 1)).length
    { d with free := d.free + 1,
             evr := { e with service := e.service.filter (fun r => !bad 0 r), boot := e.boot.filter (fun r => !bad 1 r) } })

/-- A power-on finds the tamper loop open: an opening that has not acted acts now; whether one that has acted still stands
open no command says, and is a free value (R390, R492; log 48). -/
def checkLoop (env : Env) (d : Dev) : Env × Dev :=
  if !env.pw.loopOpen then (env, d)
  else if !env.pw.loopActed then alarm 3 (env.upd (fun p => { p with loopActed := true })) d
  else
    let f := takeFree d
    if f.1.getLsbD 0 then alarm 3 env f.2 else (env.upd (fun p => { p with loopOpen := false }), f.2)

/-- Step 1 of R452 from OFF: power-on reset, PCYC counts, what the last loss left is reported, and TRL_CAUSE.WORN is set while
WORN holds (R248). -/
def powerOn (env0 : Env) (d : Dev) : Env × Dev :=
  let r := if rdmOn env0 then (env0, d) else restartRdm env0.pw.m2 env0.pw.m3 false false env0 d
  let env := r.1
  let d1 := { domainReset true false env r.2 with lastReset := 1 }
  let pw := resetPower (restartBringup 4 { env.pw with main := true, mainBack := false, slot33 := true, pcyc := env.pw.pcyc + 1,
                                                       onTick := env.tick, periodH := 0x18 })
  let x := toState .bringup 4 ({ env with pw := pw }, d1)
  let logs := checkLogs x.1 x.2
  let worn := if logs.trl.worn then setCause x.1 12 1 logs else logs
  let y := reportUnsafe (reportRestart (x.1, event x.1 0x0002 1 clsPower 0 1 0 0 worn))
  checkLoop y.1 y.2

/-- MAIN_POWER_GOOD: bring-up from OFF; noted during DRAIN (R462) and in RETENTION (R449). -/
def execMainPowerGood (s : State) : Host.Outcome State Fault Refusal :=
  onEnv s (fun env d =>
    if env.pw.main then (env, d)
    else match env.pw.st with
      | .off => powerOn env d
      | .drain => (env.upd (fun p => { p with mainBack := true }), d)
      | .retention => (env.upd (fun p => { p with main := true, slot33 := true, pcyc := p.pcyc + 1, onTick := env.tick }), d)
      | _ => (env, d))

/-- ENABLE written before ACTIVE takes effect (R453). -/
def takeHeldEnable (d : Dev) : Dev := if d.hqe.enableHeld && !d.hqe.resetBusy then enableNow d else d

/-- The end of the next step of R452, where its conditions hold. -/
def bringup (b : BringFacts) (env : Env) (d : Dev) : Env × Dev :=
  let atStep (n : Nat) : Env := env.upd (fun p => { p with bringStep := n })
  match env.pw.bringStep with
  | 1 => (atStep 2, takeSupply (atStep 2) d)
  | 2 =>
    if bitOf d.attn.holding 1 then (env, d)
    else
      let r := verifyLoader env b.loaderA b.loaderB d
      (if r.1 then atStep 3 else env, r.2)
  | 3 =>
    let d1 := bootSelect env (fun s => if s = 0 then b.slot0Ok else b.slot1Ok) d
    if d1.sec.recovery then toState .recovery 6 (atStep 4, d1) else (atStep 4, d1)
  | 4 => (atStep 5, applyBlowerBudget (atStep 5) d)
  | 5 => if env.pw.recovered then (atStep 6, d) else (env, d)
  | 6 => if env.pw.measured then (atStep 7, d) else (env, d)
  | 7 =>
    let x := toState .active env.pw.bringCause (atStep 8, d)
    (x.1, takeHeldEnable (finishConfirm x.1 x.2))
  | _ => (env, d)

/-- BRINGUP_STEP: the next step of R452 ends, up to ACTIVE, and insertion after it. -/
def execBringupStep (b : BringFacts) (s : State) : Host.Outcome State Fault Refusal :=
  onEnv s (fun env d =>
    if env.pw.st == .bringup && env.pw.resetStep.isNone && env.pw.trans == .none then bringup b env d
    else if env.pw.st == .active && env.pw.bringStep = 8 then
      (env.upd (fun p => { p with bringStep := 9 }), if d.adm.autoInsert = 1 then autoInsert env d else d)
    else (env, d))

/-! ### Loss of main power (R451, R460, R462) -/

/-- Acknowledged data not on media, in MiB rounded up (R464); a drain image that recovery has not taken up is on media
(R462). -/
def heldMib (d : Dev) : Nat :=
  if d.trl.recovering then 0
  else ((((d.flt.held.filter (fun h => h.committed && h.acked.isSome)).map Held.amount).foldl (· + ·) 0) + (2 ^ 20 - 1)) / 2 ^ 20

/-- OPSEC up to now, kept across the loss; a hold-up measurement is discarded (R457, R463). -/
def stopClock (env : Env) : Env :=
  env.upd (fun p => { p with main := false, opsecBase := opsecNow env, measuring := none, measStart := false })

/-- Steps 1–3 of the drain: the link goes down, the governor funds WC1 only, the blower stops, the switch falls back, and
every task stops with its uncommitted changes discarded; flows are lost without any message (R305, R460). -/
def drainStart (env : Env) (d : Dev) : Dev :=
  let d1 := stopTasks { d with mea := { d.mea with arrivals := [], throttled := [] },
                               xpt := { d.xpt with flows := [], rx := [], freeBuf := 4096 } }
  let h := d1.hqe
  let d2 : Dev :=
      { d1 with hqe :=
      { h with linkSpeed := 0, linkWidth := 0, fetchStopped := true, hostGen := h.hostGen + 1, turn := none,
               heldCqes := [], heldMsi := [], bmeHold := none } }
  let d3 := if d2.cpt.op == .selftest || d2.cpt.bypass ≠ 0 then startRemoval env 4 d2 else d2
  let d4 := updCpt (fun c => { c with optics := false, hold := false, cmds := [] }) d3
  stopBlower env (scaleFunding 0 1 { d4 with bgv := { d4.bgv with setpoint := 50 } })

/-- A loss of slot 3.3 V: it no longer feeds RDM (R495). -/
def loseSlot33 (rail : Nat) (env : Env) : Env := if rail = 1 then env else env.upd (fun p => { p with slot33 := false })

/-- MAIN_POWER_LOST: the drain begins; in RETENTION nothing changes, unless VAUX is gone as well (R447, R449, R460). A loss
before recovery has re-committed what the last drain wrote leaves that drain's seal as it is (R462). -/
def execMainPowerLost (rail : Nat) (s : State) : Host.Outcome State Fault Refusal :=
  onEnv s (fun env0 d =>
    let env := loseSlot33 rail env0
    if env.pw.st == .drain then (env.upd (fun p => { p with mainBack := false }), d)
    else if !env.pw.main then (env, d)
    else
      let env1 := stopClock env
      match env.pw.st with
      | .retention => if env.pw.aux33 || env.pw.auxAlt then (env1, d) else toState .off 4 (env1, d)
      | .off => (env1, d)
      | _ =>
        let safe := d.hqe.shutdownDone
        let env2 := env1.upd (fun p => { p with
          trans := .none, resetStep := none, wakeKept := none, mainBack := false, sealed := d.trl.recovering && p.sealed,
          unsafeOff := if safe then p.unsafeOff else sat32 (p.unsafeOff + 1), unsafePending := !safe })
        let x := toState .drain 4 (env2, d)
        (x.1, drainStart x.1 (event x.1 0x1201 4 clsPower 0 (heldMib x.2) rail 0 x.2)))

/-- DRAIN_DONE: with the seal written everything in protected felt, the staged records, the journal and the event records are on
media; without it records not yet durable may be lost, and which sheets are missing recovery finds (R461). VCORE goes off; main power that came back starts bring-up at once (R433, R460, R462). -/
def execDrainDone (ms energyMj : Nat) (complete : Bool) (s : State) : Host.Outcome State Fault Refusal :=
  onEnv s (fun env d =>
    if env.pw.st != .drain then (env, d)
    else
      let d1 := if complete then
          let e := event env 0x1202 1 clsPower 0 (heldMib d) ms energyMj d
          drainImage env { e with evr := { e.evr with durable := e.evr.running - 1 } }
        else
          let keep (r : Rec) : Bool := r.run ≤ d.evr.durable || r.tick + 100 * Config.ms ≤ env.tick
          drainManifest env { d with evr := { d.evr with service := d.evr.service.filter keep, boot := d.evr.boot.filter keep } }
      let back := env.pw.mainBack
      let env1 := env.upd (fun p => { p with sealed := if d.trl.recovering then p.sealed else complete, mainBack := false })
      let x := toState .off 4 (env1, domainReset false false env1 (forceBypass env1 4 d1))
      if back then powerOn x.1 x.2 else x)

/-! ### DORMANT (R448) -/

/-- REQ_ACTIVE: a wake cause of DORMANT (R447, R448). -/
def reqActive (env : Env) (d : Dev) : Env × Dev := if hostAlive env then wakeDormant 4 env d else (env, d)

/-- REQ_DORMANT: step 1 of R448, from ACTIVE only. -/
def reqDormant (env : Env) (d : Dev) : Env × Dev :=
  if env.pw.st == .active && env.pw.trans == .none && env.pw.resetStep.isNone then
    (env.upd (fun p => { p with trans := .dormant }),
     { d with hqe := { d.hqe with fetchStopped := true }, xpt := { d.xpt with creditHeld := true } })
  else (env, d)

def execReqActive (s : State) : Host.Outcome State Fault Refusal := onEnv s reqActive
def execReqDormant (s : State) : Host.Outcome State Fault Refusal := onEnv s reqDormant

/-- DORMANT_ENTERED: commands have completed, felt is on media, internal work has stopped (R448). -/
def execDormantEntered (s : State) : Host.Outcome State Fault Refusal :=
  onEnv s (fun env d =>
    if env.pw.trans == .dormant && quiet d then
      let x := toState .dormant 1 (env.upd (fun p => { p with trans := .none }), d)
      (x.1, giveDemand x.1 x.2)
    else (env, d))

/-- Deliver the held frames to XPT in arrival order (R280). -/
def deliverHeld (env : Env) (d : Dev) : Dev :=
  let one (d : Dev) (x : Nat × EFrame) : Dev :=
    let h := frameHead x.2.bytes
    deliverXpt env x.1 h.src (h.dst != d.cpt.station) (x.2.bytes.drop h.body) d
  d.cpt.heldFrames.foldl one (updCpt (fun c => { c with heldFrames := [] }) d)

/-- DORMANT_EXIT: ACTIVE is reached; fetching, credit and internal work resume, held frames are delivered, and the flows
that lost a message are reset (R280, R281, R305, R448). -/
def execDormantExit (s : State) : Host.Outcome State Fault Refusal :=
  onEnv s (fun env d =>
    if env.pw.st == .dormant && env.pw.trans == .wakeup then
      let x := toState .active (if env.pw.wakeCause = 4 then 1 else 2) (env.upd (fun p => { p with trans := .none }), d)
      let d0 := x.2
      let lost := d0.xpt.lost
      let d1 := { d0 with hqe := { d0.hqe with fetchStopped := d0.hqe.shutdown },
                          xpt := { d0.xpt with creditHeld := d0.sec.activating.isSome, lost := [] } }
      let d2 := lost.foldl (fun d id => resetFlow x.1 id 3 d) (deliverHeld x.1 d1)
      (x.1, updCpt (fun c => { c with wakeOutDone := true }) (grantAll d2))
    else (env, d))

/-! ### RETENTION (R449) -/

/-- Entry to RETENTION begins: the host side takes the effects of a controller reset, and fetching and credit stop. -/
def startRetention (thermal : Bool) (env : Env) (d : Dev) : Env × Dev :=
  let d1 := hostReset 5 env d
  (env.upd (fun p => { p with trans := .retention thermal, resetStep := none, wakeKept := none }),
   { d1 with hqe := { d1.hqe with fetchStopped := true }, xpt := { d1.xpt with creditHeld := true } })

/-- An entry to RETENTION is under way. -/
def enteringRetention (pw : Power) : Bool := match pw.trans with | .retention _ => true | _ => false

/-- REQ_RETENTION, from ACTIVE and DORMANT (R447). -/
def reqRetention (env : Env) (d : Dev) : Env × Dev :=
  if (env.pw.st == .active || env.pw.st == .dormant) && !enteringRetention env.pw && env.pw.resetStep.isNone
  then startRetention false env d else (env, d)

def execReqRetention (s : State) : Host.Outcome State Fault Refusal := onEnv s reqRetention

/-- The drive wakes from RETENTION: bring-up from step 2, with DRAM kept when self-refresh held (R449). -/
def wakeRetention (cause : Nat) (env : Env) (d : Dev) : Env × Dev :=
  let kept := env.pw.selfRefresh
  let pw := restartBringup 2 { env.pw with wakeCause := cause, selfRefresh := true }
  let d1 := if kept then d else { d with mea := { d.mea with dr := [] } }
  let x := toState .bringup 2 ({ env with pw := pw }, d1)
  if kept then x else (x.1, event x.1 0x1102 4 clsHardware 0 0 0 0 (setCause x.1 17 2 x.2))

/-- A wake cause of R449: kept while an entry runs, ignored after a thermal entry until the hold ends, and without main
power. -/
def retentionCause (cause : Nat) (env : Env) (d : Dev) : Env × Dev :=
  if enteringRetention env.pw then (env.upd (fun p => { p with wakeKept := some cause }), d)
  else if env.pw.st == .retention && env.pw.main && (match env.pw.holdUntil with | some t => decide (t ≤ env.tick) | none => true)
  then wakeRetention cause env d else (env, d)

/-- What lasts until a device or power-on reset outlasts RETENTION: LOCK (R13), the features' unsaved values (R398) and the
blower drive's FAULT with the chopper result that led to it (R468, R471). -/
def keepUnsaved (old d : Dev) : Dev :=
  { d with
    sec := { d.sec with locked := old.sec.locked }
    adm := { d.adm with autoInsert := old.adm.autoInsert, selftestH := old.adm.selftestH, ledMgpio := old.adm.ledMgpio }
    mea := { d.mea with ctrl := setFld d.mea.ctrl 0 16 (fld old.mea.ctrl 0 16) }
    bld := if old.bld.st == .fault || old.bld.ovBack == some .fault then { d.bld with st := .fault, chopper := old.bld.chopper } else d.bld }

/-- RETENTION_ENTERED: commands have completed and felt is on media; flows are reset, the switch removed, keyspaces locked,
programs removed, DRAM in self-refresh, VCORE off; a wake cause kept meanwhile acts (R449). -/
def execRetentionEntered (s : State) : Host.Outcome State Fault Refusal :=
  onEnv s (fun env d =>
    match env.pw.trans with
    | .retention thermal =>
      let done := d.mea.tasks.all (fun t => !cmdKind t.kind) && d.mea.arrivals.all (fun a => a.kind != .host && a.kind != .loop)
      if !done || !(d.trl.recovering || d.flt.held.all (fun h => h.settled d)) then (env, d)
      else if !d.xpt.flows.isEmpty then (env, resetAllFlows env d)
      else if ownWaiting env d then (env, d)
      else
        let d1 := if d.trl.recovering then d else checkpoint env d
        let d2 := forceBypass env (if thermal then 4 else 2) d1
        let kept := env.pw.wakeKept
        let hold := if thermal then some (env.tick + 300 * Config.second) else none
        let env1 := env.upd (fun p => { p with trans := .none, holdUntil := hold, wakeKept := none, selfRefresh := true })
        let d3 := domainReset false true env1 d2
        let x := toState .retention (if thermal then 5 else 1) (env1, keepUnsaved d2 d3)
        match kept with
        | some c => if thermal then x else retentionCause c x.1 x.2
        | none => x
    | _ => (env, d))

/-- WAKE_PIN: WAKE# low for 1 ms (R448, R449). -/
def execWakePin (s : State) : Host.Outcome State Fault Refusal :=
  onEnv s (fun env d =>
    if env.pw.st == .retention || enteringRetention env.pw then retentionCause 3 env d else wakeDormant 3 env d)

/-- PERST# rises. -/
def perstRise (env : Env) (d : Dev) : Env × Dev :=
  retentionCause 6 env { d with hqe := { d.hqe with perst := false } }

/-- PERST_RISING_EDGE: a wake cause of RETENTION (R449). -/
def execPerstRisingEdge (s : State) : Host.Outcome State Fault Refusal :=
  onEnv s (fun env d => if d.hqe.perst then perstRise env d else (env, d))

/-- PERST: asserted it is a PCI Express conventional reset; deasserted it is the rising edge of R449 (R454). -/
def execPerst (asserted : Bool) (s : State) : Host.Outcome State Fault Refusal :=
  onEnv s (fun env d =>
    if asserted = d.hqe.perst then (env, d)
    else if !asserted then perstRise env d
    else
      let d1 := { d with hqe := { d.hqe with perst := true, linkSpeed := 0, linkWidth := 0 } }
      (env, if hostAlive env then controllerReset 3 env d1 else d1))

/-- THERMAL_WAKE_HOLD_END: 300 s after a thermal entry wake causes are accepted again (R449). -/
def execThermalWakeHoldEnd (s : State) : Host.Outcome State Fault Refusal :=
  onEnv s (fun env d =>
    match env.pw.holdUntil with
    | some t => if t ≤ env.tick then (env.upd (fun p => { p with holdUntil := none }), d) else (env, d)
    | none => (env, d))

/-- VAUX_LOSS: in RETENTION without main power the drive goes OFF; elsewhere slot 3.3 V keeps RDM (R447, R449, R450). -/
def execVauxLoss (s : State) : Host.Outcome State Fault Refusal :=
  onEnv s (fun env d =>
    let env1 := env.upd (fun p => { p with aux33 := false, auxAlt := false })
    if env.pw.st == .retention && !env.pw.main then
      toState .off 4 (env1, { d with mea := { d.mea with dr := [] } })
    else (env1, d))

/-- SELFREFRESH_LOST: noted until the drive leaves RETENTION (R449). -/
def execSelfrefreshLost (s : State) : Host.Outcome State Fault Refusal :=
  onEnv s (fun env d =>
    if env.pw.st == .retention then (env.upd (fun p => { p with selfRefresh := false }), d) else (env, d))

/-- TIMEBASE_RESTART: RDM starts after losing every input: the counter restarts at 0, the straps are sampled, and the
restart is reported now and again after the power-on reset that follows (R347, R450, R498). -/
def execTimebaseRestart (m2 m3 aux33 auxAlt : Bool) (s : State) : Host.Outcome State Fault Refusal :=
  onEnv s (fun env d =>
    if env.pw.st != .off || rdmOn env then (env, d) else restartRdm m2 m3 aux33 auxAlt env d)

/-! ### Hold-up (R457–R459) -/

/-- PERIOD_H as it acts. -/
def measPeriod (env : Env) : Nat := max 1 env.pw.periodH.toNat * 3600

/-- A measurement is due: at step 7 of bring-up, each period, or on START. -/
def measDue (env : Env) : Bool :=
  env.pw.main && hostAlive env && env.pw.measuring.isNone &&
  ((env.pw.st == .bringup && !env.pw.measured) || env.pw.measStart || env.pw.lastMeas + measPeriod env ≤ opsecNow env)

/-- HOLDUP_MEASURE_START: the charger is disconnected and the load drawn (R457). -/
def execHoldupMeasureStart (s : State) : Host.Outcome State Fault Refusal :=
  onEnv s (fun env d => if measDue env then (env.upd (fun p => { p with measuring := some env.tick }), d) else (env, d))

/-- E in mJ and C in 0.1 mF from V0 and V1 in mV (R457); where V1 is not below V0 the manual states no result and both are
free. -/
def holdupOf (v0 v1 : Nat) (d : Dev) : Nat × Nat × Dev :=
  if v1 < v0 then ((v0 * v0 - 144000000) / (50 * (v0 - v1)), 400000 / (v0 - v1), d)
  else
    let f := takeFree d
    (f.1.toNat % 65536, f.1.toNat / 65536 % 65536, f.2)

/-- The protected limit of R458 for E = `n / q` mJ, taken exactly, before the floor of 256. -/
def limitOf (n q : Nat) : Nat := min 8192 (64 * ((n - 3800 * q) * 100 / (22016 * q)))

/-- A new limit applies at once (R458, R459). -/
def setLimit (e c limit : Nat) (env : Env) (d : Dev) : Env × Dev :=
  let l := if limit < 256 then 0 else limit
  let old := env.pw.lastLimit
  let env1 := env.upd (fun p => { p with energyMj := e, capDmf := c, limitMib := l, lastLimit := l })
  let d1 := event env1 0x1204 0 clsPower 0 e l c d
  let d2 := if l < old then event env1 0x1205 3 clsPower 0 old l 0 (setCause env1 18 2 d1) else d1
  let d3 := noteUrgent env1 (freeReams env d) d2
  (env1, if l = 0 then setFatal env1 3 0x1206 (event env1 0x1206 7 clsPower 0 e 0 0 d3) else releaseFatal 3 d3)

/-- HOLDUP_MEASURED: V1 is read 21 ms after the load was applied (R457). -/
def execHoldupMeasured (v0mv v1mv : Nat) (s : State) : Host.Outcome State Fault Refusal :=
  onEnv s (fun env d =>
    match env.pw.measuring with
    | none => (env, d)
    | some t =>
      if env.tick < t + 525000 then (env, d)
      else
        let h := holdupOf v0mv v1mv d
        let env1 := env.upd (fun p => { p with measuring := none, measStart := false, lastMeas := opsecNow env,
                                               measured := true })
        let limit := if v1mv < v0mv then limitOf (v0mv * v0mv - 144000000) (50 * (v0mv - v1mv)) else limitOf h.1 1
        setLimit h.1 h.2.1 limit env1 h.2.2)

/-! ### Thermal and hardware faults -/

/-- THERMAL_CRITICAL: a CTRL sensor reaches 115 °C: event, DEVICE_FATAL, its group at HARD, and RETENTION, but in DRAIN no
change of state (R369, R447). -/
def execThermalCritical (sensor : Nat) (temp : Int) (s : State) : Host.Outcome State Fault Refusal :=
  onEnv s (fun env d =>
    if 16 ≤ sensor || temp < 1840 || !governs env then (env, d)
    else
      let d1 := setFatal env 0 0x060B (event env 0x060B 7 clsHardware 0 sensor (i32 temp) 0 d)
      let d2 := setBudget (reachHard env 0 sensor temp d1)
      if env.pw.st == .drain || enteringRetention env.pw then (env, d2) else startRetention true env d2)

/-- INTERNAL_ECC: an uncorrectable error in a vendor structure in DRAM (R441, R445). -/
def execInternalEcc (s : State) : Host.Outcome State Fault Refusal :=
  onDev s (fun env d => if governs env then releaseFatal 2 (setFatal env 2 (Config.unstated 0).toNat d) else d)

/-- XTAL_FAULT (R347, R464). -/
def execXtalFault (ppm : Nat) (s : State) : Host.Outcome State Fault Refusal :=
  onDev s (fun env d => event env 0x1103 6 clsHardware 0 ppm 0 0 (setCause env 17 4 d))

/-- SUPPLY_FAULT: a slot rail leaves its rating while main power stays (R494). -/
def execSupplyFault (s : State) : Host.Outcome State Fault Refusal :=
  onDev s (fun env d => if env.pw.main then setCause env 18 8 d else d)

end Sys2Proof.Machine
end

