-- ==== Sys2Proof/Machine/Regs.lean ====
section
/-! DEFINITION. The register space (19, R505–R514): what a 4-byte read of each register returns and what a write of each
does, with the 64-bit registers as two halves (R100, R510) and the doorbells and the MSI-X table of BAR0 (R99, R124). -/

namespace Sys2Proof.Machine

/-! ### Composing register values -/

/-- Half k of a 64-bit value: 0 low, 1 high. -/
def halfOf (v k : Nat) : Nat := if k = 0 then v % 2 ^ 32 else v / 2 ^ 32 % 2 ^ 32

/-- Word k of a 128-bit value. -/
def wordOf (v k : Nat) : Nat := v / 2 ^ (32 * k) % 2 ^ 32

/-- A signed number as n bits. -/
def sbits (n : Nat) (x : Int) : Nat := (x % ((2 ^ n : Nat) : Int)).toNat

/-- A list of conditions as bits, the first in bit 0. -/
def boolBits : List Bool → Nat
  | [] => 0
  | b :: t => b2n b + 2 * boolBits t

/-! ### Registers that say what the drive is doing -/

/-- VCORE is on (R446). -/
def vcoreOn (env : Env) : Bool := governs env

/-- DEV_ID (R505). -/
def regDevId (d : Dev) : Nat := 0x9154 + d.adm.step.toNat * 2 ^ 16 + 0xAF * 2 ^ 24

/-- DEV_STATUS (R103, R128). -/
def regDevStatus (d : Dev) : Nat :=
  boolBits [d.hqe.ready, d.hqe.resetBusy, d.hqe.cfgErr, d.hqe.shutdownDone, d.hqe.fetchPaused, d.trl.worn,
            bitOf (attnSummary d.attn) 0, d.hqe.lease.active]

/-- DEV_STATE (R464). -/
def regDevState (env : Env) (d : Dev) : Nat := pstateCode env.pw.st + 16 * d.lastReset + 256 * env.pw.wakeCause

/-- ATTN_SUMMARY as a reader sees it: with VCORE off, or in DRAIN on the management bus, bit 17 alone (R443, R501). -/
def seenSummary (env : Env) (d : Dev) : W32 :=
  let s := attnSummary d.attn
  if vcoreOn env && env.pw.st != .drain then s else s &&& 0x20000

/-- HQE_LEASE (R128). -/
def regLease (d : Dev) : Nat :=
  b2n d.hqe.lease.active + 256 * d.hqe.lease.lastReason + 2 ^ 16 * (d.hqe.lease.sizeMib / 1024 % 2 ^ 16)

/-- CPT_BYPASS (R283). -/
def regBypass (d : Dev) : Nat :=
  d.cpt.bypass + 4 * b2n d.cpt.sensed + 8 * b2n d.cpt.hold + 16 * b2n d.cpt.selftestOk + 256 * d.cpt.lastCause

/-- CPT_RING. -/
def regRing (env : Env) (d : Dev) : Nat := d.cpt.probeMs.toNat + 256 * b2n (ringSeen env d) + 512 * b2n d.cpt.ringOpen

/-- CPT_PSTAT_p. -/
def regPstat (env : Env) (d : Dev) (p : Nat) : Nat :=
  let x := portOf d p
  let per (f : Nat → Bool) : Nat := boolBits ((List.range 8).map f)
  b2n x.link + 2 * b2n x.fecLock + 4 * b2n x.preempt + 8 * x.verify + 256 * per (pausedNow env x) +
  2 ^ 16 * per (fun n => (vget x.storm n none).isSome) + 2 ^ 24 * per (fun n => (vget x.xoff n none).isSome)

/-- XPT_FLOWS (R308). -/
def regFlows (d : Dev) : Nat := d.xpt.flows.length + 2 ^ 16 * d.xpt.freeBuf

/-- MEA_CTRL, RUN_LIMIT as it acts (R69). -/
def regMeaCtrl (d : Dev) : Nat := min 25000 (max 250 (fld d.mea.ctrl 0 16)) + 2 ^ 16 * fld d.mea.ctrl 16 8

/-- VAT_STATUS_v (R69). -/
def regVat (d : Dev) (v : Nat) : Nat :=
  let ts := d.mea.tasks.filter (fun t => t.eng / 8 == v)
  let n (f : TaskSt → Bool) : Nat := (ts.filter (fun t => f t.st)).length
  (512 - ts.length) + 2 ^ 10 * n (· == .waiting) + 2 ^ 20 * n (fun s => s == .ready || s == .running)

/-- BGV_BUDGET (R373). -/
def regBudget (d : Dev) : Nat :=
  d.bgv.effectiveW + 2 ^ 9 * d.bgv.supplyW + 2 ^ 18 * d.bgv.thermW + 2 ^ 27 * d.bgv.limiter

/-- BGV_VCORE: RW fields read as written (R12). -/
def regVcore (d : Dev) : Nat := d.bgv.setpoint + 2 ^ 8 * d.bgv.vmin + 2 ^ 16 * d.bgv.vmax + 2 ^ 24 * b2n d.bgv.vfixed

/-- BGV_GROUP_INFO of the selected group. -/
def regGroupInfo (d : Dev) : Nat :=
  let g := groupOf d d.bgv.groupSel
  g.vat + 2 ^ 4 * g.epoch.toNat + 2 ^ 20 * b2n g.draining + 2 ^ 21 * b2n g.pinned + 2 ^ 22 * g.lastMove

/-- BGV_POWER, in 10 mW units over a window of 1 ms. -/
def regPower (d : Dev) : Nat := d.bgv.inputUj / 10 % 2 ^ 16 + 2 ^ 16 * sbits 16 (d.bgv.fixedUj / 10)

/-- BGV_TGROUP_g. -/
def regTgroup (d : Dev) (g : Nat) : Nat :=
  let t := vget d.bgv.tg g (tgroupDefault g)
  t.soft + 2 ^ 8 * t.hard + 2 ^ 16 * sbits 8 t.maxC + 2 ^ 24 * (t.ceilCw / 240)

/-- The four words of class c: BGV_WC_CTRL, FUND, SPEND and DEBT. -/
def regWc (d : Dev) (c k : Nat) : Nat :=
  let w := wcOf d c
  match k with
  | 0 => if c < 2 then 0 else w.weight + 2 ^ 8 * w.floorPct + 2 ^ 16 * w.ceilPct
  | 1 => sbits 32 (w.fund / 256)
  | 2 => sbits 32 (w.lastSpend / 256)
  | _ => sbits 32 (w.debt / 256)

/-- BGV_TEMP_s. -/
def regTemp (d : Dev) (s : Nat) : Nat :=
  match d.bgv.temps.getD s none with
  | some t => sbits 16 t + 2 ^ 16 * b2n (!d.bgv.failed.contains s)
  | none => 0

/-- CCH_BUSY (R345). -/
def regBusy (d : Dev) : Nat :=
  let cs := d.cch.chans.toList
  (cs.filter (fun c => c.st != .idle)).length + 256 * (cs.filter (fun c => c.st == .idle && !c.records.isEmpty)).length

/-- CCH_CH_STATUS.STATE. -/
def chanCode (s : ChanSt) : Nat :=
  match s with
  | .idle => 0
  | .fetch => 1
  | .run => 2
  | .waitRecords => 3

/-- The four words of channel c. -/
def regChan (d : Dev) (c k : Nat) : Nat :=
  let x := vget d.cch.chans c {}
  match k with
  | 0 => chanCode x.st + 2 ^ 4 * x.prio + 2 ^ 7 * b2n x.vendor + 2 ^ 8 * x.eng + 2 ^ 15 * x.ctx + 2 ^ 21 * x.tag
  | 1 => fld x.desc 48 16 + 2 ^ 16 * min x.descs 0xFFFF
  | 2 => x.remain
  | _ => x.done

/-- MSQ_DIE_FAILED_c (R248). -/
def regDies (d : Dev) (c : Nat) : Nat := boolBits ((List.range 24).map (fun i => d.trl.failedDies.contains (dieKey c i)))

/-- TRL_STATE. -/
def regTrlState (env : Env) (d : Dev) : Nat :=
  b2n d.trl.worn + 2 * b2n d.trl.recovering + 256 * (if d.trl.recovering then 0 else freeReams env d)

/-- TRL_SPARE_MIN: the first plane, in order of channel, die and plane, with the fewest spares (R248). -/
def regSpareMin (d : Dev) : Nat :=
  let ks := (List.range 3072).filter (fun k => !d.trl.failedDies.contains (k / 4))
  match ks with
  | [] => 0
  | k :: t =>
    let m := t.foldl (fun a x => if sparesLeft d x < sparesLeft d a then x else a) k
    sparesLeft d m + 2 ^ 8 * (m / 96) + 2 ^ 13 * (m / 4 % 24) + 2 ^ 18 * (m % 4)

/-- TRL_BURST, in GB. -/
def regBurst (d : Dev) : Nat := burstGb d + 2 ^ 16 * (hostHeld d / 10 ^ 9)

/-- TRL_WEAR_PCT: wear as a share of 9,000 units, in 0.01 %; blocks never worn are not listed. -/
def regWearPct (d : Dev) : Nat :=
  let bs := d.trl.blocks.filter (fun b => !d.trl.failedDies.contains (b.1 / 7296))
  let total := (768 - d.trl.failedDies.length) * 7296
  let sum := (bs.map (fun b => b.2.wear)).foldl (· + ·) 0
  let top := (bs.map (fun b => b.2.wear)).foldl max 0
  (if total = 0 then 0 else sum * 10000 / (9000 * total)) + 2 ^ 16 * (top * 10000 / 9000)

/-- FW_STATE (R425). -/
def regFwState (d : Dev) : Nat :=
  let s := d.sec
  s.runSlot + 2 * s.conf + 4 * b2n s.trial.isSome + 8 * b2n s.pending + 16 * b2n s.activating.isSome +
  32 * b2n s.recovery + 64 * min s.trialBoots 3 + 2 ^ 8 * s.minSvn + 2 ^ 16 * s.driveFmt

/-- FW_SLOT_VER_s: 0 when the slot is empty or invalid. -/
def regSlotVer (d : Dev) (s : Nat) : Nat :=
  match slotImage d s with
  | some i => if i.valid then i.version.toNat else 0
  | none => 0

/-- FW_SLOT_INFO_s. -/
def regSlotInfo (d : Dev) (s : Nat) : Nat :=
  match slotImage d s with
  | some i => i.svn + 2 ^ 7 * b2n i.valid + 2 ^ 8 * b2n (d.sec.committed == some s) + 2 ^ 16 * i.fmtWrite
  | none => 0

/-- BLD_STATUS.STATE (R468). -/
def bldCode (s : BldSt) : Nat :=
  match s with
  | .off => 0
  | .test => 1
  | .sense => 2
  | .brake => 3
  | .align => 4
  | .ramp => 5
  | .run => 6
  | .lost => 7
  | .asc => 8
  | .coast => 9
  | .wait => 10
  | .fault => 11

/-- BLD_STATUS (R480). -/
def regBldStatus (d : Dev) : Nat :=
  bldCode d.bld.st + 2 ^ 4 * d.bld.chopper + 2 ^ 6 * b2n d.bld.healthy + 2 ^ 7 * b2n d.bld.reverse +
  2 ^ 16 * (d.bld.rpm % 2 ^ 16)

/-- PWR_LIMIT (R464). -/
def regLimit (env : Env) (d : Dev) : Nat :=
  env.pw.limitMib + 2 ^ 16 * min (heldMib d) 0x3FFF

/-- PWR_HOLDUP (R464). -/
def regHoldup (env : Env) : Nat := min env.pw.energyMj 0xFFFF + 2 ^ 16 * min env.pw.capDmf 0xFFFF

/-! ### The read map (R514) -/

/-- 0x0000_0000–0x0000_FFFF. -/
def readDevice (env : Env) (d : Dev) (off : Nat) : Option Nat :=
  match off with
  | 0x00 => some (regDevId d)
  | 0x08 => some 0xFFFFFFFF
  | 0x10 => some (b2n d.hqe.enabled + 2 * b2n d.hqe.shutdown)
  | 0x14 => some (regDevStatus d)
  | 0x18 => some (regDevState env d)
  | 0x1C => some d.hqe.admSize.toNat
  | 0x20 => some (halfOf d.hqe.admSq.toNat 0)
  | 0x24 => some (halfOf d.hqe.admSq.toNat 1)
  | 0x28 => some (halfOf d.hqe.admCq.toNat 0)
  | 0x2C => some (halfOf d.hqe.admCq.toNat 1)
  | 0x1000 => some (seenSummary env d).toNat
  | 0x1004 => some d.attn.mask.toNat
  | 0x1008 => some d.attn.pinMask.toNat
  | _ =>
    if 0x1100 ≤ off && off < 0x1230 then
      let n := (off - 0x1100) / 16
      if off % 16 = 0 then some (vget d.attn.cause n 0).toNat
      else if off % 16 = 4 then some (vget d.attn.enable n 0).toNat else none
    else none

/-- The window of id 0x01. -/
def readHqe (d : Dev) (o : Nat) : Option Nat :=
  match o with
  | 0x00 => some d.hqe.arb.toNat
  | 0x04 => some (d.hqe.qfailQid.toNat + 2 ^ 16 * d.hqe.qfailReason + 2 ^ 31 * b2n d.hqe.qfailValid)
  | 0x08 => some d.hqe.dbErrors
  | 0x0C => some d.hqe.dmaErrors
  | 0x10 => some (hqeLink d)
  | 0x14 => some (regLease d)
  | 0x18 => some d.hqe.deferred.length
  | _ => none

/-- A port block: o is the offset within it. -/
def readPort (env : Env) (d : Dev) (p o : Nat) : Option Nat :=
  let x := portOf d p
  match o with
  | 0x00 => some x.pctrl.toNat
  | 0x04 => some x.pvid.toNat
  | 0x08 => some (regPstat env d p)
  | 0x0C => some x.thr.toNat
  | 0x10 => some x.wdog.toNat
  | _ =>
    if 0x40 ≤ o && o < 0xF0 && o % 4 = 0 then some (halfOf (vget x.counts ((o - 0x40) / 8) 0) (o / 4 % 2)) else none

/-- A wake filter: o is the offset within its block. -/
def readFilter (d : Dev) (n o : Nat) : Option Nat :=
  let f := vget d.cpt.filters n {}
  if o = 0 then some f.ctrl.toNat
  else if o = 4 then some f.offset.toNat
  else if 0x10 ≤ o && o < 0x20 && o % 4 = 0 then some (wordOf f.pattern.toNat ((o - 0x10) / 4))
  else if 0x20 ≤ o && o < 0x30 && o % 4 = 0 then some (wordOf f.mask.toNat ((o - 0x20) / 4))
  else none

/-- The window of id 0x02. -/
def readCpt (env : Env) (d : Dev) (o : Nat) : Option Nat :=
  match o with
  | 0x00 => some (regBypass d)
  | 0x08 => some (halfOf d.cpt.station.toNat 0)
  | 0x0C => some (halfOf d.cpt.station.toNat 1)
  | 0x10 => some d.cpt.actType.toNat
  | 0x18 => some (halfOf d.cpt.actGroup.toNat 0)
  | 0x1C => some (halfOf d.cpt.actGroup.toNat 1)
  | 0x20 => some (regRing env d)
  | 0x28 => some (b2n d.cpt.wakeOutEn + 2 ^ 16 * min d.cpt.wakeDiscarded 0xFFFF)
  | _ =>
    if 0x100 ≤ o && o < 0x300 then readPort env d ((o - 0x100) / 0x100) (o % 0x100)
    else if 0x400 ≤ o && o < 0x600 then readFilter d ((o - 0x400) / 0x40) (o % 0x40)
    else none

/-- The window of id 0x03. -/
def readXpt (d : Dev) (o : Nat) : Option Nat :=
  match o with
  | 0x00 => some d.xpt.ctrl.toNat
  | 0x04 => some (regFlows d)
  | _ => if 0x40 ≤ o && o < 0x98 && o % 4 = 0 then some (halfOf (vget d.xpt.counts ((o - 0x40) / 8) 0) (o / 4 % 2)) else none

/-- The window of id 0x05. -/
def readMea (d : Dev) (o : Nat) : Option Nat :=
  match o with
  | 0x00 => some (regMeaCtrl d)
  | 0x04 => some d.mea.userFaults
  | 0x08 => some d.mea.vendorFaults
  | _ => if 0x10 ≤ o && o < 0x40 && o % 4 = 0 then some (regVat d ((o - 0x10) / 4)) else none

/-- The window of id 0x06. -/
def readBgv (d : Dev) (o : Nat) : Option Nat :=
  match o with
  | 0x00 => some d.bgv.cap
  | 0x04 => some (regBudget d)
  | 0x08 => some (regVcore d)
  | 0x0C => some (d.bgv.senseReg.toNat + 256 * d.bgv.auxW)
  | 0x10 => some d.bgv.mig.toNat
  | 0x14 => some d.bgv.groupSel
  | 0x18 => some (regGroupInfo d)
  | 0x1C => some 0
  | 0x20 => some (regPower d)
  | 0x24 => some d.bgv.wc1
  | 0x28 => some d.bgv.blowerFaultW
  | _ =>
    if o % 4 ≠ 0 then none
    else if 0x40 ≤ o && o < 0x58 then some (regTgroup d ((o - 0x40) / 4))
    else if 0x100 ≤ o && o < 0x200 then some (regWc d ((o - 0x100) / 16) (o / 4 % 4))
    else if 0x200 ≤ o && o < 0x3D0 then some (d.bgv.paces.getD ((o - 0x200) / 4) 0)
    else if 0x400 ≤ o && o < 0x530 then some (regTemp d ((o - 0x400) / 4))
    else none

/-- The windows of ids 0x07, 0x08 and 0x0A. -/
def readKdr (d : Dev) (o : Nat) : Option Nat :=
  match o with
  | 0x00 => some (dirCount d)
  | 0x04 => some d.kdr.probeMax
  | _ => none

def readCal (d : Dev) (o : Nat) : Option Nat :=
  match o with
  | 0x00 => some d.cal.ctrl.toNat
  | 0x08 => some (halfOf d.cal.tiles 0)
  | 0x0C => some (halfOf d.cal.tiles 1)
  | 0x10 => some d.cal.rawTiles
  | 0x14 => some d.cal.verifyFails
  | _ => none

/-- FLT_STAGE_USE gives each class's staging in use in whole units of 64 KiB, rounded down: how a part of one counts the manual
leaves open (R204; DESIGN CHOICE, log 127). -/
def readFlt (d : Dev) (o : Nat) : Option Nat :=
  match o with
  | 0x100 => some d.flt.stageFloor.toNat
  | 0x104 => some (stageUsed d false / 65536 + 2 ^ 16 * (stageUsed d true / 65536))
  | 0x108 => some d.flt.roiWaits
  | _ => none

/-- The couch counts, in the order of R345. -/
def couchCount (d : Dev) (i : Nat) : Nat :=
  match i with
  | 0 => d.cch.beats
  | 1 => d.cch.bytes
  | 2 => d.cch.preempts
  | 3 => d.cch.timeouts
  | 4 => d.cch.late
  | _ => d.cch.descInvalid

/-- The window of id 0x09. -/
def readCch (d : Dev) (o : Nat) : Option Nat :=
  if o = 0 then some d.cch.ctrl.toNat
  else if o = 4 then some (regBusy d)
  else if o % 4 ≠ 0 then none
  else if 0x10 ≤ o && o < 0x30 then
    some (min 0xFFFF (d.cch.pend.filter (fun p => p.prio == (o - 0x10) / 4)).length)
  else if 0x40 ≤ o && o < 0x70 then some (halfOf (couchCount d ((o - 0x40) / 8)) (o / 4 % 2))
  else if 0x100 ≤ o && o < 0x500 then some (regChan d ((o - 0x100) / 16) (o / 4 % 4))
  else none

/-- The windows of ids 0x0B and 0x0C. -/
def readMsq (d : Dev) (o : Nat) : Option Nat :=
  match o with
  | 0x00 => some d.trl.retries
  | 0x04 => some d.trl.soft
  | 0x08 => some d.trl.rebuilds
  | 0x0C => some d.trl.uncorr
  | _ => if 0x100 ≤ o && o < 0x180 && o % 4 = 0 then some (regDies d ((o - 0x100) / 4)) else none

def readTrl (env : Env) (d : Dev) (o : Nat) : Option Nat :=
  match o with
  | 0x00 => some d.trl.brokeReg.toNat
  | 0x04 => some d.trl.wearReg.toNat
  | 0x08 => some d.trl.refreshReg.toNat
  | 0x0C => some d.trl.patrolReg.toNat
  | 0x10 => some d.trl.quireReg.toNat
  | 0x14 => some d.trl.ckptReg.toNat
  | 0x18 => some (regTrlState env d)
  | 0x1C => some (regSpareMin d)
  | 0x20 => some (regBurst d)
  | 0x28 => some (halfOf (footprint d) 0)
  | 0x2C => some (halfOf (footprint d) 1)
  | 0x30 => some (halfOf d.trl.hostWritten 0)
  | 0x34 => some (halfOf d.trl.hostWritten 1)
  | 0x38 => some (halfOf d.trl.mediaWritten 0)
  | 0x3C => some (halfOf d.trl.mediaWritten 1)
  | 0x40 => some (regWearPct d)
  | _ => none

/-- The windows of ids 0x0D–0x0F. -/
def readSec (env : Env) (d : Dev) (o : Nat) : Option Nat :=
  match o with
  | 0x000 => some (b2n d.sec.eraseArm + 2 ^ 31 * b2n d.sec.locked)
  | 0x100 => some (regFwState d)
  | 0x104 => some (trialLeftNow env d)
  | 0x110 => some (halfOf (regSlotVer d 0) 0)
  | 0x114 => some (halfOf (regSlotVer d 0) 1)
  | 0x118 => some (halfOf (regSlotVer d 1) 0)
  | 0x11C => some (halfOf (regSlotVer d 1) 1)
  | 0x120 => some (regSlotInfo d 0)
  | 0x124 => some (regSlotInfo d 1)
  | _ => none

def readEvr (d : Dev) (o : Nat) : Option Nat :=
  match o with
  | 0x00 => some d.evr.ctrl.toNat
  | 0x08 => some (halfOf d.evr.running 0)
  | 0x0C => some (halfOf d.evr.running 1)
  | 0x10 => some d.evr.service.length
  | 0x14 => some d.evr.boot.length
  | 0x18 => some d.evr.dropped
  | 0x1C => some d.evr.suppressed
  | 0x20 => some d.evr.bootDropped
  | _ => none

/-- The windows of ids 0x10–0x12. -/
def readBld (d : Dev) (o : Nat) : Option Nat :=
  match o with
  | 0x00 => some (b2n d.bld.force + 2 ^ 16 * d.bld.forceRpm)
  | 0x04 => some (regBldStatus d)
  | 0x08 => some (d.bld.demand + 2 ^ 16 * d.bld.ceiling)
  | 0x0C => some (d.bld.conf % 256 + 2 ^ 8 * d.bld.lossThresh + 2 ^ 16 * d.bld.lockThresh)
  | 0x10 => some (d.bld.busMv % 2 ^ 16 + 2 ^ 16 * (d.bld.peakMv % 2 ^ 16))
  | 0x14 => some (d.bld.minRpm + 2 ^ 16 * d.bld.maxRpm)
  | 0x18 => some (d.bld.inputCw % 2 ^ 16 + 2 ^ 16 * (d.bld.phaseMa % 2 ^ 16))
  | 0x20 => some d.bld.starts
  | 0x24 => some d.bld.startFails
  | 0x28 => some d.bld.losses
  | 0x2C => some d.bld.overvolts
  | _ => none

/-- RDM_TICK for a reader's latch: the high half latched by its last low-half read, else the current one (R348). -/
def readTick (env : Env) (latch : Option W32) (o : Nat) : Option Nat :=
  match o with
  | 0 => some (halfOf env.tick 0)
  | 4 => some (match latch with | some x => x.toNat | none => halfOf env.tick 1)
  | _ => none

def readPwr (env : Env) (d : Dev) (o : Nat) : Option Nat :=
  match o with
  | 0x00 => some 0
  | 0x04 => some (regHoldup env)
  | 0x08 => some (regLimit env d)
  | 0x0C => some (env.pw.periodH.toNat + 256 * b2n env.pw.measStart)
  | 0x10 => some (sat32 (opsecNow env))
  | 0x14 => some (sat32 env.pw.pcyc)
  | 0x18 => some env.pw.unsafeOff
  | _ => none

/-- What a 4-byte read at a BAR0 offset returns; none where no register stands (R514). -/
def regRead (env : Env) (d : Dev) (latch : Option W32) (off : Nat) : Option Nat :=
  let o := off % 0x1000
  match off / 0x1000 with
  | 0x00 | 0x01 => readDevice env d off
  | 0x11 => readHqe d o
  | 0x12 => readCpt env d o
  | 0x13 => readXpt d o
  | 0x15 => readMea d o
  | 0x16 => readBgv d o
  | 0x17 => readKdr d o
  | 0x18 => readCal d o
  | 0x19 => readCch d o
  | 0x1A => readFlt d o
  | 0x1B => readMsq d o
  | 0x1C => readTrl env d o
  | 0x1D => if o = 0 then some d.ccl.limit.toNat else none
  | 0x1E => readSec env d o
  | 0x1F => readEvr d o
  | 0x20 => readBld d o
  | 0x21 => readTick env latch o
  | 0x22 => readPwr env d o
  | _ => none

/-! ### The write map (R12, R514) -/

/-- The low half of a 64-bit register has been written and waits for its high half (R100). -/
def putLow (off : Nat) (v : W32) (d : Dev) : Dev :=
  { d with hqe := { d.hqe with lowHalf := tblSet d.hqe.lowHalf off v } }

/-- The high half arrives: the register takes it with the last low half written, else with its own, and the low half
written is used up (R100). -/
def takeWide (off : Nat) (cur : Word) (v : W32) (d : Dev) : Word × Dev :=
  let lo : W32 := tblGetD d.hqe.lowHalf off (cur.setWidth 32)
  (v ++ lo, { d with hqe := { d.hqe with lowHalf := tblErase d.hqe.lowHalf off } })

/-- A value of ADM_SQ_BASE or ADM_CQ_BASE: bits 11:0 are RES0. -/
def pageBase (v : Word) : Word := v &&& 0xFFFFFFFFFFFFF000

/-- Take a value of CPT_ACT_GROUP: one with bit 0 clear is ignored (R283). -/
def setActGroup (v : Word) (d : Dev) : Dev :=
  if bitOf v 0 then updCpt (fun c => { c with actGroup := v &&& 0xFFFFFFFFFFFF }) d else d

/-- Take a value of ADM_SQ_BASE (0x20) or ADM_CQ_BASE (0x28); ignored while ENABLE reads 1 (R101). -/
def setAdmBase (off : Nat) (v : Word) (d : Dev) : Dev :=
  if d.hqe.enabled then d
  else if off = 0x20 then { d with hqe := { d.hqe with admSq := pageBase v } }
  else { d with hqe := { d.hqe with admCq := pageBase v } }

/-- Writes below 0x1_0000; DEV_CTRL and the admin registers only from the host (R508). -/
def writeDevice (off : Nat) (v : W32) (env : Env) (d : Dev) : Env × Dev :=
  match off with
  | 0x10 => ctrlWrite v env d
  | 0x1C => (env, if d.hqe.enabled then d else { d with hqe := { d.hqe with admSize := v &&& 0xFFF } })
  | 0x20 => (env, if d.hqe.enabled then d else putLow 0x20 v d)
  | 0x24 =>
    let r := takeWide 0x20 d.hqe.admSq v d
    (env, if d.hqe.enabled then d else setAdmBase 0x20 r.1 r.2)
  | 0x28 => (env, if d.hqe.enabled then d else putLow 0x28 v d)
  | 0x2C =>
    let r := takeWide 0x28 d.hqe.admCq v d
    (env, if d.hqe.enabled then d else setAdmBase 0x28 r.1 r.2)
  | 0x1004 => (env, setAttnMask v env d)
  | 0x1008 => (env, { d with attn := { d.attn with pinMask := v &&& 0x7FFFE } })
  | _ =>
    if 0x1100 ≤ off && off < 0x1230 then
      let n := (off - 0x1100) / 16
      if off % 16 = 0 then (env, clearCause env n v d)
      else if off % 16 = 4 then (env, attnEdit env (fun a => { a with enable := vset a.enable n v }) d)
      else (env, d)
    else (env, d)

/-- The window of id 0x01. -/
def writeHqe (o : Nat) (v : W32) (d : Dev) : Dev :=
  match o with
  | 0x00 => { d with hqe := { d.hqe with arb := v &&& 0x07FFFFFF } }
  | 0x04 => if bitOf v 31 then { d with hqe := { d.hqe with qfailValid := false } } else d
  | _ => d

/-- A port block; new thresholds and a new PFC_EN act at once (R276). -/
def writePort (env : Env) (p o : Nat) (v : W32) (d : Dev) : Dev :=
  match o with
  | 0x00 => pfcCheckAll env p (updPort p (fun x => { x with pctrl := v &&& 0x0137FFFF }) d)
  | 0x04 => updPort p (fun x => { x with pvid := v &&& 0x0FFF0FFF }) d
  | 0x0C => pfcCheckAll env p (updPort p (fun x => { x with thr := v &&& 0x00FFFFFF }) d)
  | 0x10 => updPort p (fun x => { x with wdog := v }) d
  | _ => d

/-- A 128-bit value with word k replaced (R510). -/
def setWord (x : BitVec 128) (k : Nat) (v : W32) : BitVec 128 := setFld x (32 * k) 32 v.toNat

/-- A wake filter. -/
def writeFilter (n o : Nat) (v : W32) (d : Dev) : Dev :=
  let put (f : WakeFilter → WakeFilter) : Dev := updCpt (fun c => { c with filters := vupd c.filters n f }) d
  if o = 0 then put (fun f => { f with ctrl := v &&& 0xFFFF001F })
  else if o = 4 then put (fun f => { f with offset := v &&& 0x7F })
  else if 0x10 ≤ o && o < 0x20 && o % 4 = 0 then put (fun f => { f with pattern := setWord f.pattern ((o - 0x10) / 4) v })
  else if 0x20 ≤ o && o < 0x30 && o % 4 = 0 then put (fun f => { f with mask := setWord f.mask ((o - 0x20) / 4) v })
  else d

/-- The window of id 0x02. -/
def writeCpt (env : Env) (o : Nat) (v : W32) (d : Dev) : Dev :=
  match o with
  | 0x10 => if fld v 0 16 < 0x600 then d else updCpt (fun c => { c with actType := v &&& 0xFFFF }) d
  | 0x18 => putLow 0x12018 v d
  | 0x1C =>
    let r := takeWide 0x12018 d.cpt.actGroup v d
    setActGroup r.1 r.2
  | 0x20 => updCpt (fun c => { c with probeMs := v.setWidth 8 }) d
  | 0x28 => updCpt (fun c => { c with wakeOutEn := bitOf v 0 }) d
  | _ =>
    if 0x100 ≤ o && o < 0x300 then writePort env ((o - 0x100) / 0x100) (o % 0x100) v d
    else if 0x400 ≤ o && o < 0x600 then writeFilter ((o - 0x400) / 0x40) (o % 0x40) v d
    else d

/-- BGV_WC_CTRL_c; ignored for WC0 and WC1 (R373). -/
def writeWc (c : Nat) (v : W32) (d : Dev) : Dev :=
  if c < 2 then d
  else updWc c (fun w => { w with weight := fld v 0 8, floorPct := fld v 8 7, ceilPct := fld v 16 7 }) d

/-- The window of id 0x06. -/
def writeBgv (o : Nat) (v : W32) (env : Env) (d : Dev) : Dev :=
  match o with
  | 0x00 => setCap env (fld v 0 9) d
  | 0x08 => { d with bgv := { d.bgv with vmin := fld v 8 8, vmax := fld v 16 8, vfixed := bitOf v 24 } }
  | 0x10 => { d with bgv := { d.bgv with mig := v &&& 0xFFFFFF01 } }
  | 0x14 => { d with bgv := { d.bgv with groupSel := fld v 0 12 } }
  | 0x1C => groupMove v env d
  | 0x24 => { d with bgv := { d.bgv with wc1 := fld v 0 16 } }
  | 0x28 => { d with bgv := { d.bgv with blowerFaultW := fld v 0 8 } }
  | _ =>
    if 0x40 ≤ o && o < 0x58 && o % 4 = 0 then updTg ((o - 0x40) / 4) (fun t => { t with soft := fld v 0 8 }) d
    else if 0x100 ≤ o && o < 0x200 && o % 16 = 0 then writeWc ((o - 0x100) / 16) v d
    else d

/-- The window of id 0x0C. -/
def writeTrl (o : Nat) (v : W32) (d : Dev) : Dev :=
  match o with
  | 0x00 => { d with trl := { d.trl with brokeReg := v } }
  | 0x04 => { d with trl := { d.trl with wearReg := v &&& 0x00FFFFFF } }
  | 0x08 => { d with trl := { d.trl with refreshReg := v &&& 0x000FFFFF } }
  | 0x0C => { d with trl := { d.trl with patrolReg := v &&& 0x0003FFFF } }
  | 0x10 => { d with trl := { d.trl with quireReg := v &&& 0x0000FFFF } }
  | 0x14 => { d with trl := { d.trl with ckptReg := v &&& 0x00FFFFFF } }
  | _ => d

/-- SEC_ALARM: ERASE_ARM takes a write until LOCK reads 1; nothing clears LOCK (R12, R13, R391). -/
def writeAlarm (v : W32) (d : Dev) : Dev :=
  { d with sec := { d.sec with eraseArm := if d.sec.locked then d.sec.eraseArm else bitOf v 0,
                               locked := d.sec.locked || bitOf v 31 } }

/-- The window of id 0x10. -/
def writeBld (o : Nat) (v : W32) (d : Dev) : Dev :=
  match o with
  | 0x00 => updBld (fun b => { b with force := bitOf v 0, forceRpm := fld v 16 16 }) d
  | 0x0C => updBld (fun b => { b with lossThresh := fld v 8 8, lockThresh := fld v 16 8 }) d
  | 0x14 => updBld (fun b => { b with minRpm := fld v 0 16, maxRpm := fld v 16 16 }) d
  | _ => d

/-- A write of PWR_CTRL.REQ (R447, R464). -/
def powerRequest (req : Nat) (env : Env) (d : Dev) : Env × Dev :=
  match req with
  | 1 => reqActive env d
  | 2 => reqDormant env d
  | 3 => reqRetention env d
  | _ => (env, d)

/-- The window of id 0x12. -/
def writePwr (o : Nat) (v : W32) (env : Env) (d : Dev) : Env × Dev :=
  match o with
  | 0x00 => powerRequest (fld v 0 3) env d
  | 0x0C => (env.upd (fun p => { p with periodH := v.setWidth 8, measStart := p.measStart || bitOf v 8 }), d)
  | _ => (env, d)

/-- A 4-byte write at a BAR0 offset; ignored where no register stands or none of its fields is written (R12, R99). -/
def regWrite (off : Nat) (v : W32) (env : Env) (d : Dev) : Env × Dev :=
  let o := off % 0x1000
  match off / 0x1000 with
  | 0x00 | 0x01 => writeDevice off v env d
  | 0x11 => (env, writeHqe o v d)
  | 0x12 => (env, writeCpt env o v d)
  | 0x13 => (env, if o = 0 then { d with xpt := { d.xpt with ctrl := v &&& 0xFF0FFFFF } } else d)
  | 0x15 => (env, if o = 0 then { d with mea := { d.mea with ctrl := v &&& 0x00FFFFFF } } else d)
  | 0x16 => (env, writeBgv o v env d)
  | 0x18 => (env, if o = 0 then { d with cal := { d.cal with ctrl := v &&& 0xFFFF0001 } } else d)
  | 0x19 => (env, if o = 0 then { d with cch := { d.cch with ctrl := v &&& 0x0000FFFF } } else d)
  | 0x1A => (env, if o = 0x100 then { d with flt := { d.flt with stageFloor := v &&& 0x0000FFFF } } else d)
  | 0x1C => (env, writeTrl o v d)
  | 0x1D => (env, if o = 0 then { d with ccl := { d.ccl with limit := v &&& 0x3F } } else d)
  | 0x1E => (env, if o = 0 then writeAlarm v d else d)
  | 0x1F => (env, if o = 0 then { d with evr := { d.evr with ctrl := v &&& 0x0007FFFF } } else d)
  | 0x20 => (env, writeBld o v d)
  | 0x22 => writePwr o v env d
  | _ => (env, d)

/-! ### What BAR0 holds beside the registers (R99, R114, R124) -/

/-- A word of an MSI-X table entry; a vector that is no longer masked delivers its pending bit (R119, R124). -/
def writeMsix (o : Nat) (v : W32) (d : Dev) : Dev :=
  let n := o / 16
  let e := tblGetD d.hqe.msix n {}
  let e' : Msix := match o / 4 % 4 with
    | 0 => { e with addr := setFld e.addr 0 32 (v.toNat / 4 * 4) }
    | 1 => { e with addr := setFld e.addr 32 32 v.toNat }
    | 2 => { e with data := v }
    | _ => { e with masked := bitOf v 0 }
  deliverPending n { d with hqe := { d.hqe with msix := tblSet d.hqe.msix n e' } }

/-- What a 4-byte read of the MSI-X table or its pending bits returns. -/
def readMsix (d : Dev) (off : Nat) : Nat :=
  if off < 0x208000 then
    let e := tblGetD d.hqe.msix ((off - 0x200000) / 16) {}
    match off / 4 % 4 with
    | 0 => halfOf e.addr.toNat 0
    | 1 => halfOf e.addr.toNat 1
    | 2 => e.data.toNat
    | _ => b2n e.masked
  else boolBits ((List.range 32).map (fun i => d.hqe.pba.contains ((off - 0x210000) * 8 + i)))

/-- What a 4-byte read through BAR0 returns: zero at an unassigned offset, or one not aligned to 4 (R99). -/
def barRead (env : Env) (d : Dev) (off : Nat) : Nat :=
  if off % 4 ≠ 0 then 0
  else if (0x200000 ≤ off && off < 0x208000) || (0x210000 ≤ off && off < 0x210100) then readMsix d off
  else (regRead env d d.tickLatch off).getD 0

/-- What an 8-byte read through BAR0 returns: RDM_TICK as one value, else the two words a 4-byte read of each would
return, the lower first; zero at an offset not aligned to 8 (R99, R348). -/
def barRead8 (env : Env) (d : Dev) (off : Nat) : Nat :=
  if off % 8 ≠ 0 then 0
  else if off = 0x21000 then env.tick % 2 ^ 64
  else barRead env d off + barRead env d (off + 4) * 2 ^ 32

/-- The data a completion of a read of BAR0 brings: none where no request reaches a register (R521). -/
def barAnswer (env : Env) (d : Dev) (size off : Nat) : Option Nat :=
  if !barAlive env d then none else some (if size = 8 then barRead8 env d off else barRead env d off)

/-- A 4-byte write through BAR0. -/
def barWrite (off : Nat) (v : W32) (env : Env) (d : Dev) : Env × Dev :=
  if 0x100000 ≤ off && off < 0x180000 then
    let q := (off - 0x100000) / 8
    if off % 8 = 0 then sqTail q v.toNat env d else (env, cqHead q v.toNat env d)
  else if 0x200000 ≤ off && off < 0x208000 then (env, writeMsix (off - 0x200000) v d)
  else regWrite off v env d

/-- A 64-bit register that a write acts on as one value (R99, R100, R510). -/
def wideReg (off : Nat) : Bool := off == 0x20 || off == 0x28 || off == 0x12018

/-- An 8-byte write to a 64-bit register: it takes the value at once. -/
def writeWide (off : Nat) (v : Word) (d : Dev) : Dev :=
  let d1 : Dev := { d with hqe := { d.hqe with lowHalf := tblErase d.hqe.lowHalf off } }
  if off = 0x12018 then setActGroup v d1
  else if d.hqe.enabled then d
  else setAdmBase off v d1

/-- REGISTER_WRITE: a BAR0 write of 4 or 8 bytes; an 8-byte write over two 32-bit words acts as two, the lower first
(R99). -/
def execRegisterWrite (off : Nat) (eight : Bool) (v : Word) (s : State) : Host.Outcome State Fault Refusal :=
  onEnv s (fun env d =>
    let size := if eight then 8 else 4
    if !barAlive env d then (env, d)
    else if off % size ≠ 0 then (env, barInvalid off size env d)
    else if !eight then barWrite off (v.setWidth 32) env d
    else if wideReg off then (env, writeWide off v d)
    else
      let x := barWrite off (v.setWidth 32) env d
      barWrite (off + 4) ((v >>> 32).setWidth 32) x.1 x.2)

end Sys2Proof.Machine
end

