-- ==== Sys2Proof/Machine/Logs.lean ====
section
/-! DEFINITION. IDENTIFY, LOG_READ, features and the self-test (13, R394–R401, R410). -/

namespace Sys2Proof.Machine

/-! ### Answers of administration commands -/

/-- Write a structure to the command's buffer, and complete with a RESULT. -/
def giveBytes (env : Env) (t : Task) (f : Fetch) (bs : List Byte) (result : Nat) (d : Dev) : Dev :=
  moveOut scOk env t (hostOnly f) (if bs.isEmpty then [] else [(0, bs)]) (BitVec.ofNat 64 result) false d

/-- Complete an administration command that moves no data. -/
def adminDone (env : Env) (t : Task) (status : Byte) (result : Nat) (d : Dev) : Dev :=
  endJob env t status (BitVec.ofNat 64 result) false d

/-! ### IDENTIFY (R394) -/

/-- Text in n bytes, padded with spaces. -/
def textPad (n : Nat) (bs : List Byte) : List Byte := bs.take n ++ List.replicate (n - bs.length) 0x20

/-- "AKV-9154-FH2". -/
def modelText : List Byte := [0x41, 0x4B, 0x56, 0x2D, 0x39, 0x31, 0x35, 0x34, 0x2D, 0x46, 0x48, 0x32]

/-- Program store the loaded user programs leave free (02, 13). -/
def userPsFree (d : Dev) : Nat := 2 ^ 23 - (d.mea.programs.map (fun p => p.2.psLen)).foldl (· + ·) 0

/-- The device structure. -/
def identDevice (env : Env) (d : Dev) : List Byte :=
  let r : Image := match d.sec.run with | some i => i | none => {}
  natLe 4 (regDevId d) ++ natLe 2 d.adm.hwRev.toNat ++ natLe 2 0 ++ textPad 16 d.adm.serial ++ textPad 16 modelText ++
  natLe 8 r.version.toNat ++ natLe 4 r.svn ++ natLe 4 d.sec.loader.1.toNat ++ natLe 8 Config.capacity ++
  natLe 8 d.cpt.station.toNat ++ natLe 4 Config.maxObjects ++ natLe 4 env.pw.limitMib ++ natLe 4 1048576 ++
  natLe 2 65535 ++ natLe 2 4096 ++ natLe 2 (d.kdr.ks.filter (fun k => k.2.exist)).length ++
  natLe 2 d.mea.programs.length ++ natLe 4 (userPsFree d) ++ natLe 1 (pstateCode env.pw.st) ++
  natLe 1 (boolBits [d.trl.worn, d.sec.trial.isSome, d.sec.recovery])

/-- Entry k of the keyspace list. -/
def identKs (d : Dev) (k : Nat) : List Byte :=
  let x := ksOf d k
  natLe 1 (boolBits [x.exist, x.encrypted && x.exist, x.chainOpen && x.exist, x.locked && x.exist, x.deleting]) ++
  natLe 1 (if x.exist then x.compress else 0) ++ natLe 2 0 ++ natLe 4 x.seq.toNat ++
  natLe 8 (d.kdr.slots.filter (fun s => s.2.live && s.2.ksid.toNat == k)).length

/-- The structure CNS selects, 4,096 bytes. -/
def identPage (env : Env) (d : Dev) (cns : Nat) : List Byte :=
  slice (if cns = 0 then identDevice env d else (List.range 256).flatMap (identKs d)) 0 4096

/-- IDENTIFY (R394). -/
def execIdentify (t : TaskRef) (f : Fetch) (s : State) : Host.Outcome State Fault Refusal :=
  serve t 0x40 (fun env t d =>
    let n := min (capLen t.capsule) 4096
    giveBytes env t f ((identPage env d (cap t.capsule 6 1)).take n) n d) s

/-! ### Log pages (R395, R396) -/

/-- The hottest valid sensor, in 1/16 °C; 0 before any has been read. -/
def tempMax (d : Dev) : Int :=
  let ok := (List.range 76).filterMap (fun s => if d.bgv.failed.contains s then none else d.bgv.temps.getD s none)
  match ok with
  | [] => 0
  | x :: t => t.foldl max x

/-- WARN of the health page. -/
def healthWarn (env : Env) (d : Dev) : Nat :=
  boolBits [d.trl.worn, regSpareMin d % 256 ≤ spareWarn d, bitOf (attnSummary d.attn) 0, d.bgv.tg.toList.any (·.atHard),
            env.pw.limitMib < 8192, d.bgv.blowerFault, d.trl.ackLostEver]

/-- The health page. -/
def healthPage (env : Env) (d : Dev) : List Byte :=
  natLe 1 (healthWarn env d) ++ natLe 1 0 ++ natLe 2 (sbits 16 (tempMax d)) ++ natLe 4 (regWearPct d) ++
  natLe 4 (regSpareMin d) ++ natLe 4 env.pw.limitMib ++ natLe 8 (footprint d) ++ natLe 8 d.trl.hostWritten ++
  natLe 8 d.trl.mediaWritten ++ natLe 8 (opsecNow env) ++ natLe 4 env.pw.pcyc ++ natLe 4 env.pw.unsafeOff ++
  natLe 8 d.trl.uncorrLife ++ natLe 4 d.hqe.deferred.length ++ natLe 4 env.pw.energyMj ++ natLe 4 (burstGb d) ++
  List.replicate 52 0

/-- The deferred-error page. -/
def deferredPage (d : Dev) : List Byte :=
  natLe 4 d.hqe.deferred.length ++ natLe 4 d.hqe.defLost ++ natLe 8 d.hqe.defFirst ++ List.replicate 16 0 ++
  d.hqe.deferred.flatMap defBytes

/-- A self-test result. -/
def testBytes (r : TestRes) : List Byte :=
  natLe 1 r.kind ++ natLe 1 r.outcome ++ natLe 1 r.segment ++ natLe 1 0 ++ natLe 4 r.opsec ++ natLe 2 r.event.toNat ++
  List.replicate 6 0

/-- The self-test page; how far a test under way has come is a free value (log 4). -/
def testPage (progress : Nat) (d : Dev) : List Byte :=
  slice ((match d.adm.test with
      | some x => natLe 1 x.1 ++ natLe 1 progress
      | none => natLe 2 0) ++ List.replicate 6 0 ++ (d.adm.results.take 16).flatMap testBytes) 0 264

/-- An event log page: a header and the records, oldest first. -/
def eventPage (log : List Rec) (dropped suppressed : Nat) : List Byte :=
  natLe 4 log.length ++ natLe 4 dropped ++ natLe 4 suppressed ++ List.replicate 20 0 ++ log.reverse.flatMap recBytes

/-- Stations a probe of which came within the last three intervals. -/
def stationsNow (env : Env) (d : Dev) : List (Nat × Nat × Nat) :=
  (d.cpt.stations.filter (fun x => recent env d (some x.2.2))).take 16

/-- An entry of STATIONS: an address is written as its octets go over the wire (R251). -/
def stationBytes (env : Env) (x : Nat × Nat × Nat) : List Byte :=
  natBe 6 x.1 ++ natLe 1 x.2.1 ++ natLe 1 0 ++ natLe 4 ((env.tick - x.2.2) / Config.ms) ++ natLe 4 0

/-- The chain status page. -/
def chainPage (env : Env) (d : Dev) : List Byte :=
  let st := stationsNow env d
  natLe 4 (regBypass d) ++ natLe 4 (regRing env d) ++ natLe 4 (regPstat env d 0) ++ natLe 4 (regPstat env d 1) ++
  natLe 4 (regFlows d) ++ natLe 4 st.length ++ List.replicate 40 0 ++ slice (st.flatMap (stationBytes env)) 0 256

/-- A log page by LID, and the drive with any free value taken. -/
def logPage (env : Env) (lid : Nat) (d : Dev) : List Byte × Dev :=
  match lid with
  | 1 => (healthPage env d, d)
  | 2 => (deferredPage d, d)
  | 3 => if d.adm.test.isSome then (testPage ((takeFree d).1.toNat % 101) d, (takeFree d).2) else (testPage 0 d, d)
  | 4 => (eventPage d.evr.boot d.evr.bootDropped 0, d)
  | 5 => (eventPage d.evr.service d.evr.dropped d.evr.suppressed, d)
  | _ => (chainPage env d, d)

/-! ### LOG_READ (R395, R397) -/

/-- Entries a CONSUME read delivers whole, the oldest first; none when it does not begin at or before the oldest. -/
def consumed (d : Dev) (c : V512) : Nat :=
  if cap c 6 1 = 2 && bitOf c 56 && capOff c ≤ 32 then
    (min (capOff c + capLen c) (32 + 32 * d.hqe.deferred.length) - 32) / 32
  else 0

/-- A host command's completion reaches its queue (R56, R122). -/
def hostPosts (d : Dev) (t : Task) : Bool :=
  t.hostGen == d.hqe.hostGen && (match pairOf d t.source.toNat with | some p => !p.failed | none => false)

/-- A read has completed: its entries are removed, at once for a host command, with the acknowledgement of its RESP for a
chain flow (R397). `d0` is the drive before it. -/
def consumeAfter (env : Env) (t : Task) (n : Nat) (d0 d : Dev) : Dev :=
  let first := d0.hqe.defFirst
  if n = 0 then d
  else if t.kind == .act then
    let id := t.source.toNat
    if (inboundOf d0 id t.arrNo).isNone || env.pw.resetStep.isSome then d
    else
      let held (r : Response) : Bool := r.no == some t.arrNo
      match flowOf d id with
      | some fl =>
        if fl.outs.any held then
          updFlow id (fun fl => { fl with outs := fl.outs.map (fun r => if held r then { r with consume := some (first, n) } else r) }) d
        else noteConsume id (some (first, n)) d
      | none => d
  else if hostPosts d0 t then consumeErrors first n d
  else d

/-- LOG_READ (R395–R397). -/
def execLogRead (t : TaskRef) (f : Fetch) (s : State) : Host.Outcome State Fault Refusal :=
  serve t 0x41 (fun env t d =>
    let c := t.capsule
    let p := logPage env (cap c 6 1) d
    let n := min (capOff c + capLen c) p.1.length - capOff c
    let r := n + min p.1.length 0xFFFFFFFF * 2 ^ 32
    let d1 := giveBytes env t f ((p.1.drop (capOff c)).take n) r p.2
    let done := hostOnly f == .ok && (t.kind == .act || d.hqe.issues)
    if done then consumeAfter env t (consumed d c) d d1 else d1) s

/-! ### Features (R398, R399, R410) -/

/-- A feature's value in force; in RECOVERY the saved one. -/
def featureNow (d : Dev) (fid off : Nat) : Nat :=
  let r := d.sec.recovery
  match fid with
  | 1 => if r then savedOr d 1 240 else d.bgv.cap
  | 2 => if r then savedOr d 2 1 else d.adm.autoInsert
  | 3 => (ksOf d (off % 256)).tokenGen.toNat
  | 4 => d.sec.ownerGen.toNat
  | 5 => if r then savedOr d 5 2500 else regMeaCtrl d % 2 ^ 16
  | 6 => if r then savedOr d 6 0 else d.adm.selftestH
  | _ => if r then savedOr d 7 0 else d.adm.ledMgpio

/-- A feature takes a value, or a token generation advances. -/
def featureSet (env : Env) (fid v : Nat) (d : Dev) : Dev :=
  match fid with
  | 1 => setCap env v d
  | 2 => { d with adm := { d.adm with autoInsert := v } }
  | 3 => updKs (v % 256) (fun k => { k with tokenGen := k.tokenGen + 1 }) d
  | 4 => updSec (fun x => { x with ownerGen := x.ownerGen + 1 }) d
  | 5 => { d with mea := { d.mea with ctrl := setFld d.mea.ctrl 0 16 v } }
  | 6 => { d with adm := { d.adm with selftestH := v, lastPeriod := opsecNow env } }
  | _ => { d with adm := { d.adm with ledMgpio := v } }

/-- SAVE: the value is kept for every power-on; token generations are kept without it (R399). -/
def saveFeature (fid v : Nat) (d : Dev) : Dev :=
  if fid = 3 || fid = 4 then d else { d with adm := { d.adm with saved := tblSet d.adm.saved fid v } }

/-- FEATURE_SET (R398). -/
def execFeatureSet (t : TaskRef) (s : State) : Host.Outcome State Fault Refusal :=
  serve t 0x42 (fun env t d =>
    let c := t.capsule
    let fid := capOpts c
    let v := capOff c
    if !featureOk d true fid v then adminDone env t scInvalidField 0 d
    else
      let d1 := featureSet env fid v d
      let d2 := if bitOf c 256 then saveFeature fid v d1 else d1
      adminDone env t scOk (featureNow d2 fid v) d2) s

/-- FEATURE_GET (R398). -/
def execFeatureGet (t : TaskRef) (s : State) : Host.Outcome State Fault Refusal :=
  serve t 0x43 (fun env t d => adminDone env t scOk (featureNow d (capOpts t.capsule) (capOff t.capsule)) d) s

/-! ### Self-test (R400, R401) -/

/-- A start while a test runs is refused. -/
def startTest (kind : Nat) (env : Env) (t : Task) (d : Dev) : Dev :=
  if capOpts t.capsule ≠ kind then d
  else if d.adm.test.isSome then adminDone env t scExists 0 d
  else adminDone env t scOk 0 { d with adm := { d.adm with test := some (kind, env.tick) } }

/-- SELF_TEST with ACTION 1 (R400). -/
def execSelfTestShort (t : TaskRef) (s : State) : Host.Outcome State Fault Refusal := serve t 0x44 (startTest 1) s

/-- SELF_TEST with ACTION 2 (R400). -/
def execSelfTestExtended (t : TaskRef) (s : State) : Host.Outcome State Fault Refusal := serve t 0x44 (startTest 2) s

/-- The test under way, of a kind, ends with an outcome; the last 16 results are kept. -/
def endTest (env : Env) (kind outcome segment : Nat) (code : BitVec 16) (d : Dev) : Dev :=
  let r : TestRes := { kind := kind, outcome := outcome, segment := segment, opsec := opsecNow env, event := code }
  { d with adm := { d.adm with test := none, results := (r :: d.adm.results).take 16 } }

/-- SELF_TEST with ACTION 0xF (R400). -/
def execSelfTestAbort (t : TaskRef) (s : State) : Host.Outcome State Fault Refusal :=
  serve t 0x44 (fun env t d =>
    if capOpts t.capsule ≠ 15 then d
    else match d.adm.test with
      | none => adminDone env t scNotFound 0 d
      | some x => adminDone env t scOk 0 (endTest env x.1 2 0 0 d)) s

/-- Pages a self-test reads in segment 4: every programmed one, or the first 64 of every die from a place the manual leaves open
(R400; log 93). -/
def testPages (kind : Nat) (d : Dev) : List Nat :=
  let ps := pagesOf ((d.trl.sheets.map (·.1)).filter (psaOnMedia d))
  if kind = 2 then ps
  else
    let from_ := (takeFree d).1.toNat % (ps.length + 1)
    let order := ps.drop from_ ++ ps.take from_
    (order.zipIdx.filter (fun x => ((order.take x.2).filter (fun q => q / 2 ^ 27 == x.1 / 2 ^ 27)).length < 64)).map (·.1)

/-- The segments of a self-test: the media reads of the fourth count for their blocks and are charged to WC10, and the failure of
one writes the event of its unit, whose code the row brings and whose other fields are free values (R242, R362, R400, R401;
log 93). -/
def runSegments (env : Env) (kind failSegment : Nat) (code : BitVec 16) (d : Dev) : Dev :=
  let ps := testPages kind d
  let d1 := countReads ps (charge 10 (4 * readUnits d ps) { d with free := d.free + 1 })
  if failSegment = 0 then d1
  else
    let f := takeFree d1
    let g := takeFree f.2
    event env code (fld f.1 0 3) (fld f.1 3 5 % 6) (fld f.1 8 8) (fld f.1 16 32) (fld g.1 0 32) (fld g.1 32 32) g.2

/-- SELF_TEST_END: the last segment has ended, `failSegment` the first that failed with its event code, 0 for none; or the
test has starved for 24 hours (R401). The segments run in this step, so that no insertion starts while the fifth does. -/
def execSelfTestEnd (failSegment : Nat) (code : BitVec 16) (starved : Bool) (s : State) :
    Host.Outcome State Fault Refusal :=
  onDev s (fun env d =>
    match d.adm.test with
    | none => d
    | some x =>
      if starved then if x.2 + 86400 * Config.second ≤ env.tick then endTest env x.1 3 0 0 d else d
      else if env.pw.st != .active then d
      else if failSegment = 0 then endTest env x.1 0 0 0 (runSegments env x.1 0 0 d)
      else if failSegment ≤ 4 || (failSegment = 5 && d.cpt.bypass = 0) then
        endTest env x.1 1 failSegment code (runSegments env x.1 failSegment code d)
      else d)

/-- SELFTEST_PERIOD: the period of main-power-on time has passed: a short test starts, unless one runs (R398, FID 6); none
starts, and none goes on, in DORMANT (R448). -/
def execSelftestPeriod (s : State) : Host.Outcome State Fault Refusal :=
  onDev s (fun env d =>
    let on := env.pw.main && env.pw.st == .active && env.pw.trans == .none
    if !on || d.adm.selftestH = 0 || opsecNow env < d.adm.lastPeriod + 3600 * d.adm.selftestH then d
    else
      let test := match d.adm.test with | some x => some x | none => some (1, env.tick)
      { d with adm := { d.adm with test := test, lastPeriod := opsecNow env } })

end Sys2Proof.Machine
end

