-- ==== Sys2Proof/Machine/Keyspaces.lean ====
section
/-! DEFINITION. Keyspaces (13, R402–R404; 12, R377–R379): creation, deletion, erasure, unlocking and locking. -/

namespace Sys2Proof.Machine

/-! ### Creation (R402) -/

/-- A keyspace comes to exist, unlocked; its sequence, generations and marks go on (R136, R234, R399). -/
def createKs (k : Nat) (flags : Nat) (salt ksr : List Byte) (d : Dev) : Dev :=
  updKs k (fun x => { x with
    exist := true, encrypted := flags % 2 = 1, chainOpen := flags / 2 % 2 = 1, compress := flags / 4 % 4, locked := false,
    salt := salt, ksr := ksr, check := (if flags % 2 = 1 then checkOf k ksr else []), mismatches := 0, lockout := none }) d

/-- KEYSPACE_CREATE: an encrypted keyspace draws S_k and derives its root and check value (R376, R402). -/
def execKeyspaceCreate (t : TaskRef) (value : Rd) (s : State) : Host.Outcome State Fault Refusal :=
  serve t 0x4F (fun env t d =>
    let c := t.capsule
    let k := capKsid c
    let x := ksOf d k
    if x.exist || x.deleting then adminDone env t scExists 0 d
    else if !bitOf c 48 then adminDone env t scOk 0 (createKs k (cap c 6 1) [] [] d)
    else match fetchData d t 32 value with
      | .wait => d
      | .fail code => adminDone env t scAbortedHost 0 (bufferFail env t code d)
      | .data cred =>
        let salt := takeFreeBytes 32 (copied t 32 d)
        adminDone env t scOk 0 (createKs k (cap c 6 1) salt.1 (ksrOf k salt.1 cred) salt.2)) s

/-! ### Deletion and erasure (R379, R403) -/

/-- Every hook of a keyspace is unbound, and every program loses its grant of it. -/
def unbindKs (k : Nat) (d : Dev) : Dev :=
  let cut (p : Nat × Program) : Nat × Program :=
    (p.1, { p.2 with hooks := p.2.hooks.filter (fun h => h.2.1 != k), grants := setFld p.2.grants k 1 0 })
  { d with mea := { d.mea with programs := d.mea.programs.map cut } }

/-- The keyspace is gone from acceptance and its deletion journaled; what is dispatched runs to END, and then its slots and
footprint are reclaimed (R403; log 46). -/
def deleteKs (k : Nat) (d : Dev) : Dev :=
  addJournal .ksDelete k 0 0 (unbindKs k (updKs k (fun x => { x with exist := false, deleting := true }) d))

/-- KEYSPACE_DELETE (R403). -/
def execKeyspaceDelete (t : TaskRef) (s : State) : Host.Outcome State Fault Refusal :=
  serve t 0x50 (fun env t d =>
    let k := capKsid t.capsule
    if !(ksOf d k).exist then adminDone env t scNotFound 0 d else adminDone env t scOk 0 (deleteKs k d)) s

/-- KEYSPACE_ERASE: S_k is overwritten with a value the manual does not give, then the keyspace is deleted (R379, R403). -/
def execKeyspaceErase (t : TaskRef) (s : State) : Host.Outcome State Fault Refusal :=
  serve t 0x51 (fun env t d =>
    let k := capKsid t.capsule
    let x := ksOf d k
    if !x.exist then adminDone env t scNotFound 0 d
    else if !x.encrypted then adminDone env t scInvalidField 0 d
    else
      let f := takeFreeBytes 32 d
      adminDone env t scOk 0 (deleteKs k (updKs k (fun y => { y with salt := f.1 }) f.2))) s

/-! ### Unlocking and locking (R377, R378, R404) -/

/-- An unlock is refused without a comparison. -/
def lockedOut (env : Env) (x : Keyspace) : Bool := match x.lockout with | some t => decide (env.tick < t) | none => false

/-- The credential does not match: counted and reported; the eighth in a row locks further attempts out for 60 s. -/
def unlockFailed (env : Env) (k : Nat) (d : Dev) : Dev :=
  let x := ksOf d k
  let n := (if x.lockout.isSome then 0 else x.mismatches) + 1
  let out := if 8 ≤ n then some (env.tick + 60 * Config.second) else none
  event env 0x0E01 4 clsSecurity 0 k n 0
    (setCause env 14 2 (updKs k (fun y => { y with mismatches := n, lockout := out }) d))

/-- The credential matches: the keyspace is unlocked, its root is kept, and the count of mismatches returns to 0. -/
def unlockKs (k : Nat) (ksr : List Byte) (d : Dev) : Dev :=
  updKs k (fun y => { y with locked := false, ksr := ksr, mismatches := 0, lockout := none }) d

/-- KEYSPACE_UNLOCK (R377, R404). -/
def execKeyspaceUnlock (t : TaskRef) (value : Rd) (s : State) : Host.Outcome State Fault Refusal :=
  serve t 0x52 (fun env t d =>
    let k := capKsid t.capsule
    let x := ksOf d k
    if capOpts t.capsule ≠ 0 then d
    else if !x.exist || !x.encrypted then adminDone env t scInvalidField 0 d
    else if lockedOut env x then adminDone env t scAuthFail 0 d
    else match fetchData d t 32 value with
      | .wait => d
      | .fail code => adminDone env t scAbortedHost 0 (bufferFail env t code d)
      | .data cred =>
        let ksr := ksrOf k x.salt cred
        let d := copied t 32 d
        if checkOf k ksr == x.check then adminDone env t scOk 0 (unlockKs k ksr d)
        else adminDone env t scAuthFail 0 (unlockFailed env k d)) s

/-- KEYSPACE_LOCK: commands dispatched before keep their keys, which are zeroed when the last of them ends (R378). -/
def execKeyspaceLock (t : TaskRef) (s : State) : Host.Outcome State Fault Refusal :=
  serve t 0x52 (fun env t d =>
    let k := capKsid t.capsule
    let x := ksOf d k
    if capOpts t.capsule ≠ 1 then d
    else if !x.exist || !x.encrypted then adminDone env t scInvalidField 0 d
    else adminDone env t scOk 0 (updKs k (fun y => { y with locked := true }) d)) s

/-- UNLOCK_LOCKOUT_END: the 60 s are over and the count returns to 0 (R377). -/
def execUnlockLockoutEnd (ks : Byte) (s : State) : Host.Outcome State Fault Refusal :=
  onDev s (fun env d =>
    match (ksOf d ks.toNat).lockout with
    | some t => if t ≤ env.tick then updKs ks.toNat (fun y => { y with lockout := none, mismatches := 0 }) d else d
    | none => d)

end Sys2Proof.Machine
end

