-- ==== Sys2Proof/Machine/Shuan.lean ====
section
/-! DEFINITION. The integer, load and store, control, vector and atomic instructions (03). -/

namespace Sys2Proof.Machine

/-! ### Integer instructions -/

/-- ALU (03, R76). -/
def execAlu (e : Nat) (f : BitVec 10) (b a d : BitVec 5) (s : State) : Host.Outcome State Fault Refusal :=
  onDev s (fun env dev => shuan e (regOnly (fun t =>
    match aluOp f.toNat b (t.sreg a) (t.sreg b) with
    | .unassigned => .error fIllegal
    | .arith => .error fArith
    | .val x => .ok (t.setS d x)
    | .keep => .ok t)) env dev)

/-- sD from sA and IMM15 (03, Immediate forms). -/
def immForm (imm : BitVec 15) (a d : BitVec 5) (f : Word → BitVec 15 → Word) : Env → Task → Dev → Done :=
  regOnly (fun t => .ok (t.setS d (f (t.sreg a) imm)))

/-- ADDI (03, Immediate forms). -/
def execAddi (e : Nat) (imm : BitVec 15) (a d : BitVec 5) (s : State) : Host.Outcome State Fault Refusal :=
  onDev s (fun env dev => shuan e (immForm imm a d (fun x i => x + sext15 i)) env dev)

/-- ANDI (03, Immediate forms). -/
def execAndi (e : Nat) (imm : BitVec 15) (a d : BitVec 5) (s : State) : Host.Outcome State Fault Refusal :=
  onDev s (fun env dev => shuan e (immForm imm a d (fun x i => x &&& sext15 i)) env dev)

/-- ORI (03, Immediate forms). -/
def execOri (e : Nat) (imm : BitVec 15) (a d : BitVec 5) (s : State) : Host.Outcome State Fault Refusal :=
  onDev s (fun env dev => shuan e (immForm imm a d (fun x i => x ||| i.setWidth 64)) env dev)

/-- XORI (03, Immediate forms). -/
def execXori (e : Nat) (imm : BitVec 15) (a d : BitVec 5) (s : State) : Host.Outcome State Fault Refusal :=
  onDev s (fun env dev => shuan e (immForm imm a d (fun x i => x ^^^ sext15 i)) env dev)

/-- SLTI (03, Immediate forms). -/
def execSlti (e : Nat) (imm : BitVec 15) (a d : BitVec 5) (s : State) : Host.Outcome State Fault Refusal :=
  onDev s (fun env dev => shuan e (immForm imm a d (fun x i => wb (x.slt (sext15 i)))) env dev)

/-- SLTIU (03, Immediate forms). -/
def execSltiu (e : Nat) (imm : BitVec 15) (a d : BitVec 5) (s : State) : Host.Outcome State Fault Refusal :=
  onDev s (fun env dev => shuan e (immForm imm a d (fun x i => wb (x.ult (sext15 i)))) env dev)

/-- SHI: IMM15[5:0] the count, IMM15[7:6] the kind, IMM15[14:8] RES0 (03, Immediate forms). -/
def execShi (e : Nat) (imm : BitVec 15) (a d : BitVec 5) (s : State) : Host.Outcome State Fault Refusal :=
  onDev s (fun env dev => shuan e (regOnly (fun t =>
    let x := t.sreg a
    let n := fld imm 0 6
    if fld imm 8 7 ≠ 0 then .error fIllegal
    else .ok (t.setS d (match fld imm 6 2 with
      | 0 => x <<< n
      | 1 => x >>> n
      | 2 => x.sshiftRight n
      | _ => x.rotateRight n)))) env dev)

/-- LUI: sext(IMM20 << 12) from bit 31 (03, Immediate forms). -/
def execLui (e : Nat) (imm : BitVec 20) (d : BitVec 5) (s : State) : Host.Outcome State Fault Refusal :=
  onDev s (fun env dev => shuan e (regOnly (fun t =>
    .ok (t.setS d ((imm.setWidth 32 <<< 12).signExtend 64)))) env dev)

/-- SLORI (03, Immediate forms). -/
def execSlori (e : Nat) (imm : BitVec 15) (a d : BitVec 5) (s : State) : Host.Outcome State Fault Refusal :=
  onDev s (fun env dev => shuan e (immForm imm a d (fun x i => (x <<< 15) ||| i.setWidth 64)) env dev)

/-- RDSYS: selectors of 0x100 and above are vendor-only (R75); what the pace counter has counted is free (log 4). -/
def execRdsys (e : Nat) (f : BitVec 10) (b a d : BitVec 5) (s : State) : Host.Outcome State Fault Refusal :=
  onDev s (fun env dev => shuan e (fun env t dv =>
    if b ≠ 0 || a ≠ 0 then .fault fIllegal none
    else
      let give (x : Word) (dv : Dev) : Done := .ok (t.setS d x).next dv
      match f.toNat with
      | 0x000 => give (BitVec.ofNat 64 env.tick) dv
      | 0x001 => give (BitVec.ofNat 64 (taskId t.eng t.ctx)) dv
      | 0x002 => give (t.program.setWidth 64) dv
      | 0x003 => give (BitVec.ofNat 64 t.wclass) dv
      | 0x004 => give (BitVec.ofNat 64 (env.tick / 25000)) dv
      | 0x100 => if t.vendor then give (BitVec.ofNat 64 (setpointMv dv)) dv else .fault fPriv none
      | 0x101 => if t.vendor then give (readPace t.eng dv).1 (readPace t.eng dv).2 else .fault fPriv none
      | _ => .fault fIllegal none) env dev)

/-! ### Load and store (R77) -/

/-- Effective address (R77). -/
def ea (t : Task) (a : BitVec 5) (imm : BitVec 15) : Word := t.sreg a + sext15 imm

/-- A load of n bytes, `put` writing what was read. -/
def loadForm (n : Nat) (imm : BitVec 15) (a : BitVec 5) (ecc : LsEcc) (put : Task → Nat → Task) :
    Env → Task → Dev → Done := fun env t d =>
  let addr := ea t a imm
  match accessFault d t .load addr n n with
  | some code => .fault code (some addr)
  | none =>
    match lsCheck env t addr n ecc d with
    | none => .fault fLsecc (some addr)
    | some d' => .ok (put t (leNat (readSpace d' t (spaceOf addr) (offOf addr) n))).next d'

/-- A store of n bytes of a value. -/
def storeForm (n : Nat) (imm : BitVec 15) (a : BitVec 5) (val : Task → Nat) : Env → Task → Dev → Done := fun _ t d =>
  let addr := ea t a imm
  match accessFault d t .store addr n n with
  | some code => .fault code (some addr)
  | none =>
    let r := writeSpace d t (spaceOf addr) (offOf addr) (natLe n (val t))
    .ok r.1.next r.2

/-- LB: 1 byte, sign-extended (R77). -/
def execLb (e : Nat) (imm : BitVec 15) (a d : BitVec 5) (ecc : LsEcc) (s : State) : Host.Outcome State Fault Refusal :=
  onDev s (fun env dev => shuan e (loadForm 1 imm a ecc (fun t x => t.setS d ((BitVec.ofNat 8 x).signExtend 64))) env dev)

/-- LBU: 1 byte, zero-extended (R77). -/
def execLbu (e : Nat) (imm : BitVec 15) (a d : BitVec 5) (ecc : LsEcc) (s : State) : Host.Outcome State Fault Refusal :=
  onDev s (fun env dev => shuan e (loadForm 1 imm a ecc (fun t x => t.setS d (BitVec.ofNat 64 x))) env dev)

/-- LH: 2 bytes, sign-extended (R77). -/
def execLh (e : Nat) (imm : BitVec 15) (a d : BitVec 5) (ecc : LsEcc) (s : State) : Host.Outcome State Fault Refusal :=
  onDev s (fun env dev => shuan e (loadForm 2 imm a ecc (fun t x => t.setS d ((BitVec.ofNat 16 x).signExtend 64))) env dev)

/-- LHU: 2 bytes, zero-extended (R77). -/
def execLhu (e : Nat) (imm : BitVec 15) (a d : BitVec 5) (ecc : LsEcc) (s : State) : Host.Outcome State Fault Refusal :=
  onDev s (fun env dev => shuan e (loadForm 2 imm a ecc (fun t x => t.setS d (BitVec.ofNat 64 x))) env dev)

/-- LW: 4 bytes, sign-extended (R77). -/
def execLw (e : Nat) (imm : BitVec 15) (a d : BitVec 5) (ecc : LsEcc) (s : State) : Host.Outcome State Fault Refusal :=
  onDev s (fun env dev => shuan e (loadForm 4 imm a ecc (fun t x => t.setS d ((BitVec.ofNat 32 x).signExtend 64))) env dev)

/-- LWU: 4 bytes, zero-extended (R77). -/
def execLwu (e : Nat) (imm : BitVec 15) (a d : BitVec 5) (ecc : LsEcc) (s : State) : Host.Outcome State Fault Refusal :=
  onDev s (fun env dev => shuan e (loadForm 4 imm a ecc (fun t x => t.setS d (BitVec.ofNat 64 x))) env dev)

/-- LD: 8 bytes, zero-extended (R77). -/
def execLd (e : Nat) (imm : BitVec 15) (a d : BitVec 5) (ecc : LsEcc) (s : State) : Host.Outcome State Fault Refusal :=
  onDev s (fun env dev => shuan e (loadForm 8 imm a ecc (fun t x => t.setS d (BitVec.ofNat 64 x))) env dev)

/-- VLD: 64 bytes (R77). -/
def execVld (e : Nat) (imm : BitVec 15) (a d : BitVec 5) (ecc : LsEcc) (s : State) : Host.Outcome State Fault Refusal :=
  onDev s (fun env dev => shuan e (fun env t dv =>
    if vOk d then loadForm 64 imm a ecc (fun t x => t.setV d (BitVec.ofNat 512 x)) env t dv
    else .fault fIllegal none) env dev)

/-- SB: the low 1 byte of sD (R77). -/
def execSb (e : Nat) (imm : BitVec 15) (a d : BitVec 5) (s : State) : Host.Outcome State Fault Refusal :=
  onDev s (fun env dev => shuan e (storeForm 1 imm a (fun t => (t.sreg d).toNat)) env dev)

/-- SH: the low 2 bytes of sD (R77). -/
def execSh (e : Nat) (imm : BitVec 15) (a d : BitVec 5) (s : State) : Host.Outcome State Fault Refusal :=
  onDev s (fun env dev => shuan e (storeForm 2 imm a (fun t => (t.sreg d).toNat)) env dev)

/-- SW: the low 4 bytes of sD (R77). -/
def execSw (e : Nat) (imm : BitVec 15) (a d : BitVec 5) (s : State) : Host.Outcome State Fault Refusal :=
  onDev s (fun env dev => shuan e (storeForm 4 imm a (fun t => (t.sreg d).toNat)) env dev)

/-- SD: the low 8 bytes of sD (R77). -/
def execSd (e : Nat) (imm : BitVec 15) (a d : BitVec 5) (s : State) : Host.Outcome State Fault Refusal :=
  onDev s (fun env dev => shuan e (storeForm 8 imm a (fun t => (t.sreg d).toNat)) env dev)

/-- VST: 64 bytes of vD (R77). -/
def execVst (e : Nat) (imm : BitVec 15) (a d : BitVec 5) (s : State) : Host.Outcome State Fault Refusal :=
  onDev s (fun env dev => shuan e (fun env t dv =>
    if vOk d then storeForm 64 imm a (fun t => (t.vreg d).toNat) env t dv else .fault fIllegal none) env dev)

/-! ### Control (R78, R79) -/

/-- Go to a target, or fault with F_FETCH at the branch itself without effect (R79). -/
def goTo (d : Dev) (t t' : Task) (target : Int) : Done :=
  if pcOk d t target then .ok { t' with pc := BitVec.ofInt 32 target } d else .fault fFetch (some (psAddr target))

/-- pc + 4 × a signed immediate. -/
def pcRel (t : Task) (imm : Int) : Int := (t.pc.toNat : Int) + 4 * imm

/-- A conditional branch comparing sD with sA (R78). -/
def branchForm (imm : BitVec 15) (a d : BitVec 5) (cond : Word → Word → Bool) : Env → Task → Dev → Done := fun _ t dv =>
  if cond (t.sreg d) (t.sreg a) then goTo dv t t (pcRel t imm.toInt) else .ok t.next dv

/-- BEQ (R78). -/
def execBeq (e : Nat) (imm : BitVec 15) (a d : BitVec 5) (s : State) : Host.Outcome State Fault Refusal :=
  onDev s (fun env dev => shuan e (branchForm imm a d (fun x y => x == y)) env dev)

/-- BNE (R78). -/
def execBne (e : Nat) (imm : BitVec 15) (a d : BitVec 5) (s : State) : Host.Outcome State Fault Refusal :=
  onDev s (fun env dev => shuan e (branchForm imm a d (fun x y => x != y)) env dev)

/-- BLT (R78). -/
def execBlt (e : Nat) (imm : BitVec 15) (a d : BitVec 5) (s : State) : Host.Outcome State Fault Refusal :=
  onDev s (fun env dev => shuan e (branchForm imm a d (fun x y => x.slt y)) env dev)

/-- BGE (R78). -/
def execBge (e : Nat) (imm : BitVec 15) (a d : BitVec 5) (s : State) : Host.Outcome State Fault Refusal :=
  onDev s (fun env dev => shuan e (branchForm imm a d (fun x y => !x.slt y)) env dev)

/-- BLTU (R78). -/
def execBltu (e : Nat) (imm : BitVec 15) (a d : BitVec 5) (s : State) : Host.Outcome State Fault Refusal :=
  onDev s (fun env dev => shuan e (branchForm imm a d (fun x y => x.ult y)) env dev)

/-- BGEU (R78). -/
def execBgeu (e : Nat) (imm : BitVec 15) (a d : BitVec 5) (s : State) : Host.Outcome State Fault Refusal :=
  onDev s (fun env dev => shuan e (branchForm imm a d (fun x y => !x.ult y)) env dev)

/-- The link value pc + 4. -/
def link (t : Task) : Word := t.pc.setWidth 64 + 4

/-- JAL (R78). -/
def execJal (e : Nat) (imm : BitVec 20) (d : BitVec 5) (s : State) : Host.Outcome State Fault Refusal :=
  onDev s (fun env dev => shuan e (fun _ t dv => goTo dv t (t.setS d (link t)) (pcRel t imm.toInt)) env dev)

/-- JALR: a program store offset, or a Shuan address in space PS (R78). -/
def execJalr (e : Nat) (imm : BitVec 15) (a d : BitVec 5) (s : State) : Host.Outcome State Fault Refusal :=
  onDev s (fun env dev => shuan e (fun _ t dv =>
    let x := t.sreg a + sext15 imm
    let target := if spaceOf x = 3 then offOf x else x.toNat
    goTo dv t (t.setS d (link t)) (target : Int)) env dev)

/-- BP: D is the condition, A a predicate register (R78). -/
def execBp (e : Nat) (imm : BitVec 15) (a d : BitVec 5) (s : State) : Host.Outcome State Fault Refusal :=
  onDev s (fun env dev => shuan e (fun _ t dv =>
    if !pOk a || 3 < d.toNat then .fault fIllegal none
    else
      let x := t.preg a.toNat
      let holds := match d.toNat with
        | 0 => x != 0
        | 1 => x == 0
        | 2 => x == BitVec.allOnes 64
        | _ => x != BitVec.allOnes 64
      if holds then goTo dv t t (pcRel t imm.toInt) else .ok t.next dv) env dev)

/-- PCADD (03, Control). -/
def execPcadd (e : Nat) (imm : BitVec 20) (d : BitVec 5) (s : State) : Host.Outcome State Fault Refusal :=
  onDev s (fun env dev => shuan e (regOnly (fun t => .ok (t.setS d (BitVec.ofInt 64 (pcRel t imm.toInt))))) env dev)

/-! ### Vector instructions (R80–R84) -/

/-- The governing predicate a vector instruction names in F[9:7]. -/
def govern (t : Task) (f : BitVec 10) : Word := t.preg (fld f 7 3)

/-- F[4:0]. -/
def vfun (f : BitVec 10) : Nat := fld f 0 5

/-- VALU (03). -/
def execValu (e : Nat) (f : BitVec 10) (b a d : BitVec 5) (s : State) : Host.Outcome State Fault Refusal :=
  onDev s (fun env dev => shuan e (regOnly (fun t =>
    let L := laneBytes f
    if !(vOk a && vOk b && vOk d) || (valuOp (vfun f) L 0 0).isNone then .error fIllegal
    else .ok (t.setV d (masked (govern t f) L (t.vreg d) (fun k =>
      (valuOp (vfun f) L (lane (t.vreg a) L k) (lane (t.vreg b) L k)).getD 0))))) env dev)

/-- VCMP: all bits of the lane in pD set to the comparison, 0 where inactive (R81). -/
def execVcmp (e : Nat) (f : BitVec 10) (b a d : BitVec 5) (s : State) : Host.Outcome State Fault Refusal :=
  onDev s (fun env dev => shuan e (regOnly (fun t =>
    let L := laneBytes f
    if !(vOk a && vOk b && pOk d) || (vcmpOp (vfun f) L 0 0).isNone then .error fIllegal
    else
      let bits := (List.range 64).map (fun i =>
        let k := i / L
        if active (govern t f) L k && (vcmpOp (vfun f) L (lane (t.vreg a) L k) (lane (t.vreg b) L k)).getD false
        then 2 ^ i else 0)
      .ok (t.setP d.toNat (BitVec.ofNat 64 (bits.foldl (· + ·) 0))))) env dev)

/-- VSPLAT (R81). -/
def execVsplat (e : Nat) (f : BitVec 10) (b a d : BitVec 5) (s : State) : Host.Outcome State Fault Refusal :=
  onDev s (fun env dev => shuan e (regOnly (fun t =>
    if !vOk d || b ≠ 0 || vfun f ≠ 0 then .error fIllegal
    else .ok (t.setV d (masked (govern t f) (laneBytes f) (t.vreg d) (fun _ => (t.sreg a).toNat))))) env dev)

/-- VEXT (R81). -/
def execVext (e : Nat) (f : BitVec 10) (b a d : BitVec 5) (s : State) : Host.Outcome State Fault Refusal :=
  onDev s (fun env dev => shuan e (regOnly (fun t =>
    let L := laneBytes f
    if !vOk a || fld f 7 3 ≠ 0 || vfun f ≠ 0 then .error fIllegal
    else .ok (t.setS d (BitVec.ofNat 64 (lane (t.vreg a) L ((t.sreg b).toNat % (64 / L)))))) ) env dev)

/-- VINS (R81). -/
def execVins (e : Nat) (f : BitVec 10) (b a d : BitVec 5) (s : State) : Host.Outcome State Fault Refusal :=
  onDev s (fun env dev => shuan e (regOnly (fun t =>
    let L := laneBytes f
    if !vOk d || fld f 7 3 ≠ 0 || vfun f ≠ 0 then .error fIllegal
    else .ok (t.setV d (ofLanes L (fun k =>
      if k = (t.sreg b).toNat % (64 / L) then (t.sreg a).toNat else lane (t.vreg d) L k))))) env dev)

/-- VPERM (R81). -/
def execVperm (e : Nat) (f : BitVec 10) (b a d : BitVec 5) (s : State) : Host.Outcome State Fault Refusal :=
  onDev s (fun env dev => shuan e (regOnly (fun t =>
    if !(vOk a && vOk b && vOk d) || fld f 5 2 ≠ 0 || vfun f ≠ 0 then .error fIllegal
    else .ok (t.setV d (masked (govern t f) 1 (t.vreg d) (fun i =>
      let c := lane (t.vreg b) 1 i
      if 128 ≤ c then 0 else lane (t.vreg a) 1 (c % 64)))))) env dev)

/-- VCLMUL (R82). -/
def execVclmul (e : Nat) (f : BitVec 10) (b a d : BitVec 5) (s : State) : Host.Outcome State Fault Refusal :=
  onDev s (fun env dev => shuan e (regOnly (fun t =>
    if !(vOk a && vOk b && vOk d) || fld f 5 2 ≠ 3 || fld f 2 3 ≠ 0 then .error fIllegal
    else .ok (t.setV d (ofLanes 16 (fun j =>
      if bitOf (govern t f) (16 * j) then
        clmul (lane (t.vreg a) 8 (2 * j + fld f 0 1)) (lane (t.vreg b) 8 (2 * j + fld f 1 1)) 64 0
      else lane (t.vreg d) 16 j))))) env dev)

/-- VPOPC (R81). -/
def execVpopc (e : Nat) (f : BitVec 10) (b a d : BitVec 5) (s : State) : Host.Outcome State Fault Refusal :=
  onDev s (fun env dev => shuan e (regOnly (fun t =>
    let L := laneBytes f
    if !(vOk a && vOk d) || b ≠ 0 || vfun f ≠ 0 then .error fIllegal
    else .ok (t.setV d (masked (govern t f) L (t.vreg d) (fun k => popc (8 * L) (lane (t.vreg a) L k)))))) env dev)

/-- VRED (R83). -/
def execVred (e : Nat) (f : BitVec 10) (b a d : BitVec 5) (s : State) : Host.Outcome State Fault Refusal :=
  onDev s (fun env dev => shuan e (regOnly (fun t =>
    let L := laneBytes f
    let xs := ((List.range (64 / L)).filter (active (govern t f) L)).map (lane (t.vreg a) L)
    if !vOk a || b ≠ 0 then .error fIllegal
    else match vredOp (vfun f) L xs with
      | some x => .ok (t.setS d (BitVec.ofNat 64 x))
      | none => .error fIllegal)) env dev)

/-- PRED (R84). -/
def execPred (e : Nat) (f : BitVec 10) (b a d : BitVec 5) (s : State) : Host.Outcome State Fault Refusal :=
  onDev s (fun env dev => shuan e (regOnly (fun t =>
    let ppp (g : Word → Word → Word) : Except Byte Task :=
      if pOk d && pOk a && pOk b then .ok (t.setP d.toNat (g (t.preg a.toNat) (t.preg b.toNat))) else .error fIllegal
    let sp (g : Word → Word) : Except Byte Task :=
      if pOk a && b == 0 then .ok (t.setS d (g (t.preg a.toNat))) else .error fIllegal
    if fld f 5 5 ≠ 0 then .error fIllegal
    else match vfun f with
      | 0x01 => ppp (fun x y => x &&& y)
      | 0x02 => ppp (fun x y => x ||| y)
      | 0x03 => ppp (fun x y => x ^^^ y)
      | 0x04 => ppp (fun x y => x &&& ~~~y)
      | 0x05 => if pOk d && pOk a && b == 0 then .ok (t.setP d.toNat (~~~t.preg a.toNat)) else .error fIllegal
      | 0x06 => sp (fun x => x)
      | 0x07 => if pOk d && b == 0 then .ok (t.setP d.toNat (t.sreg a)) else .error fIllegal
      | 0x08 => sp (fun x => BitVec.ofNat 64 (popc 64 x.toNat))
      | 0x09 => sp (fun x => BitVec.ofNat 64 (ctz64 x))
      | _ => .error fIllegal)) env dev)

/-! ### Atomics and synchronisation (R85, R86) -/

/-- An atomic by the low three bits of its opcode (R85). -/
def amoForm (op : Nat) (f : BitVec 10) (b a d : BitVec 5) (ecc : LsEcc) : Env → Task → Dev → Done := fun env t dv =>
  if fld f 2 8 ≠ 0 || fld f 0 2 < 2 then .fault fIllegal none
  else
    let n := 2 ^ fld f 0 2
    let addr := t.sreg a
    match accessFault dv t .atomic addr n n with
    | some code => .fault code (some addr)
    | none =>
      match lsCheck env t addr n ecc dv with
      | none => .fault fLsecc (some addr)
      | some dw =>
        let old := leNat (readSpace dw t (spaceOf addr) (offOf addr) n)
        let m := 2 ^ (8 * n)
        let new := amoOp op (8 * n) old ((t.sreg b).toNat % m) ((t.sreg d).toNat % m)
        let r := writeSpace dw t (spaceOf addr) (offOf addr) (natLe n new)
        .ok (r.1.setS d (BitVec.ofNat 64 old)).next r.2

/-- AMOSWAP (R85). -/
def execAmoswap (e : EngLs) (f : BitVec 10) (b a d : BitVec 5) (s : State) :
    Host.Outcome State Fault Refusal :=
  onDev s (fun env dev => shuan e.eng (amoForm 0 f b a d e.ls) env dev)

/-- AMOADD (R85). -/
def execAmoadd (e : EngLs) (f : BitVec 10) (b a d : BitVec 5) (s : State) :
    Host.Outcome State Fault Refusal :=
  onDev s (fun env dev => shuan e.eng (amoForm 1 f b a d e.ls) env dev)

/-- AMOAND (R85). -/
def execAmoand (e : EngLs) (f : BitVec 10) (b a d : BitVec 5) (s : State) :
    Host.Outcome State Fault Refusal :=
  onDev s (fun env dev => shuan e.eng (amoForm 2 f b a d e.ls) env dev)

/-- AMOOR (R85). -/
def execAmoor (e : EngLs) (f : BitVec 10) (b a d : BitVec 5) (s : State) :
    Host.Outcome State Fault Refusal :=
  onDev s (fun env dev => shuan e.eng (amoForm 3 f b a d e.ls) env dev)

/-- AMOXOR (R85). -/
def execAmoxor (e : EngLs) (f : BitVec 10) (b a d : BitVec 5) (s : State) :
    Host.Outcome State Fault Refusal :=
  onDev s (fun env dev => shuan e.eng (amoForm 4 f b a d e.ls) env dev)

/-- AMOMINU (R85). -/
def execAmominu (e : EngLs) (f : BitVec 10) (b a d : BitVec 5) (s : State) :
    Host.Outcome State Fault Refusal :=
  onDev s (fun env dev => shuan e.eng (amoForm 5 f b a d e.ls) env dev)

/-- AMOMAXU (R85). -/
def execAmomaxu (e : EngLs) (f : BitVec 10) (b a d : BitVec 5) (s : State) :
    Host.Outcome State Fault Refusal :=
  onDev s (fun env dev => shuan e.eng (amoForm 6 f b a d e.ls) env dev)

/-- CAS: D is both the expected value and the destination (R85). -/
def execCasAtomic (e : EngLs) (f : BitVec 10) (b a d : BitVec 5) (s : State) :
    Host.Outcome State Fault Refusal :=
  onDev s (fun env dev => shuan e.eng (amoForm 7 f b a d e.ls) env dev)

/-- FENCE: every store is visible at once in a drive that runs one instruction at a time; every other field RES0
(R86). -/
def execFence (e : Nat) (f : BitVec 10) (b a d : BitVec 5) (s : State) : Host.Outcome State Fault Refusal :=
  onDev s (fun env dev => shuan e (regOnly (fun t =>
    if f = 0 && b = 0 && a = 0 && d = 0 then .ok t else .error fIllegal)) env dev)

end Sys2Proof.Machine
end

