-- ==== Sys2Proof/Machine/ShuanWord.lean ====
section
/-! DEFINITION. Shuan instruction words (03): the formats of R70, the opcode map of R73, which words are assigned (R71), which
are vendor-only (R75), and what a branch names: what a program image is checked against (13, R406). -/

namespace Sys2Proof.Machine

/-! ### Formats (R70) -/

/-- A word of format R. -/
def fmtR (f : BitVec 10) (b a d : BitVec 5) (op : BitVec 7) : W32 := f ++ b ++ a ++ d ++ op
/-- A word of format I. -/
def fmtI (imm : BitVec 15) (a d : BitVec 5) (op : BitVec 7) : W32 := imm ++ a ++ d ++ op
/-- A word of format J. -/
def fmtJ (imm : BitVec 20) (d : BitVec 5) (op : BitVec 7) : W32 := imm ++ d ++ op
/-- A word of format P. -/
def fmtP (pf : BitVec 6) (unit : BitVec 4) (b a d : BitVec 5) (op : BitVec 7) : W32 := pf ++ unit ++ b ++ a ++ d ++ op

/-- The fields of a word. -/
def wOp (w : W32) : BitVec 7 := w.extractLsb' 0 7
def wD (w : W32) : BitVec 5 := w.extractLsb' 7 5
def wA (w : W32) : BitVec 5 := w.extractLsb' 12 5
def wB (w : W32) : BitVec 5 := w.extractLsb' 17 5
def wF (w : W32) : BitVec 10 := w.extractLsb' 22 10
def wI (w : W32) : BitVec 15 := w.extractLsb' 17 15
def wJ (w : W32) : BitVec 20 := w.extractLsb' 12 20
def wU (w : W32) : BitVec 4 := w.extractLsb' 22 4
def wPF (w : W32) : BitVec 6 := w.extractLsb' 26 6

/-! ### The opcode map (R73) -/

/-- The instruction command a word stands for on an engine; none where OP is reserved. `ecc` is what local store reports
of what it reads. -/
def decodeWord (e : Nat) (ecc : LsEcc) (w : W32) : Option Instr :=
  match (wOp w).toNat with
  | 0x00 => some (.alu e (wF w) (wB w) (wA w) (wD w))
  | 0x02 => some (.addi e (wI w) (wA w) (wD w))
  | 0x03 => some (.andi e (wI w) (wA w) (wD w))
  | 0x04 => some (.ori e (wI w) (wA w) (wD w))
  | 0x05 => some (.xori e (wI w) (wA w) (wD w))
  | 0x06 => some (.slti e (wI w) (wA w) (wD w))
  | 0x07 => some (.sltiu e (wI w) (wA w) (wD w))
  | 0x08 => some (.shi e (wI w) (wA w) (wD w))
  | 0x09 => some (.lui e (wJ w) (wD w))
  | 0x0A => some (.slori e (wI w) (wA w) (wD w))
  | 0x0B => some (.rdsys e (wF w) (wB w) (wA w) (wD w))
  | 0x10 => some (.lb e (wI w) (wA w) (wD w) ecc)
  | 0x11 => some (.lbu e (wI w) (wA w) (wD w) ecc)
  | 0x12 => some (.lh e (wI w) (wA w) (wD w) ecc)
  | 0x13 => some (.lhu e (wI w) (wA w) (wD w) ecc)
  | 0x14 => some (.lw e (wI w) (wA w) (wD w) ecc)
  | 0x15 => some (.lwu e (wI w) (wA w) (wD w) ecc)
  | 0x16 => some (.ld e (wI w) (wA w) (wD w) ecc)
  | 0x17 => some (.vld e (wI w) (wA w) (wD w) ecc)
  | 0x18 => some (.sb e (wI w) (wA w) (wD w))
  | 0x19 => some (.sh e (wI w) (wA w) (wD w))
  | 0x1A => some (.sw e (wI w) (wA w) (wD w))
  | 0x1B => some (.sd e (wI w) (wA w) (wD w))
  | 0x1C => some (.vst e (wI w) (wA w) (wD w))
  | 0x20 => some (.beq e (wI w) (wA w) (wD w))
  | 0x21 => some (.bne e (wI w) (wA w) (wD w))
  | 0x22 => some (.blt e (wI w) (wA w) (wD w))
  | 0x23 => some (.bge e (wI w) (wA w) (wD w))
  | 0x24 => some (.bltu e (wI w) (wA w) (wD w))
  | 0x25 => some (.bgeu e (wI w) (wA w) (wD w))
  | 0x26 => some (.jal e (wJ w) (wD w))
  | 0x27 => some (.jalr e (wI w) (wA w) (wD w))
  | 0x28 => some (.bp e (wI w) (wA w) (wD w))
  | 0x29 => some (.pcadd e (wJ w) (wD w))
  | 0x30 => some (.valu e (wF w) (wB w) (wA w) (wD w))
  | 0x31 => some (.vcmp e (wF w) (wB w) (wA w) (wD w))
  | 0x32 => some (.vsplat e (wF w) (wB w) (wA w) (wD w))
  | 0x33 => some (.vext e (wF w) (wB w) (wA w) (wD w))
  | 0x34 => some (.vins e (wF w) (wB w) (wA w) (wD w))
  | 0x35 => some (.vperm e (wF w) (wB w) (wA w) (wD w))
  | 0x36 => some (.vclmul e (wF w) (wB w) (wA w) (wD w))
  | 0x37 => some (.vpopc e (wF w) (wB w) (wA w) (wD w))
  | 0x38 => some (.vred e (wF w) (wB w) (wA w) (wD w))
  | 0x39 => some (.pred e (wF w) (wB w) (wA w) (wD w))
  | 0x50 => some (.post ⟨e, ecc⟩ (wPF w) (wU w) (wB w) (wA w) (wD w))
  | 0x51 => some (.wait e (wPF w) (wU w) (wB w) (wA w) (wD w))
  | 0x52 => some (.test e (wPF w) (wU w) (wB w) (wA w) (wD w))
  | 0x53 => some (.yield e (wPF w) (wU w) (wB w) (wA w) (wD w))
  | 0x54 => some (.endTask e (wPF w) (wU w) (wB w) (wA w) (wD w))
  | 0x55 => some (.budget e (wPF w) (wU w) (wB w) (wA w) (wD w))
  | 0x56 => some (.charge e (wPF w) (wU w) (wB w) (wA w) (wD w))
  | 0x57 => some (.event e (wPF w) (wU w) (wB w) (wA w) (wD w))
  | 0x58 => some (.hash ⟨e, ecc⟩ (wPF w) (wU w) (wB w) (wA w) (wD w))
  | 0x59 => some (.crc ⟨e, ecc⟩ (wPF w) (wU w) (wB w) (wA w) (wD w))
  | 0x60 => some (.amoswap ⟨e, ecc⟩ (wF w) (wB w) (wA w) (wD w))
  | 0x61 => some (.amoadd ⟨e, ecc⟩ (wF w) (wB w) (wA w) (wD w))
  | 0x62 => some (.amoand ⟨e, ecc⟩ (wF w) (wB w) (wA w) (wD w))
  | 0x63 => some (.amoor ⟨e, ecc⟩ (wF w) (wB w) (wA w) (wD w))
  | 0x64 => some (.amoxor ⟨e, ecc⟩ (wF w) (wB w) (wA w) (wD w))
  | 0x65 => some (.amominu ⟨e, ecc⟩ (wF w) (wB w) (wA w) (wD w))
  | 0x66 => some (.amomaxu ⟨e, ecc⟩ (wF w) (wB w) (wA w) (wD w))
  | 0x67 => some (.casAtomic ⟨e, ecc⟩ (wF w) (wB w) (wA w) (wD w))
  | 0x68 => some (.fence e (wF w) (wB w) (wA w) (wD w))
  | _ => none

/-- The word of an instruction command; none for a command that is no instruction. -/
def encodeWord (i : Instr) : Option W32 :=
  match i with
  | .alu _ f b a d => some (fmtR f b a d 0x00#7)
  | .addi _ i a d => some (fmtI i a d 0x02#7)
  | .andi _ i a d => some (fmtI i a d 0x03#7)
  | .ori _ i a d => some (fmtI i a d 0x04#7)
  | .xori _ i a d => some (fmtI i a d 0x05#7)
  | .slti _ i a d => some (fmtI i a d 0x06#7)
  | .sltiu _ i a d => some (fmtI i a d 0x07#7)
  | .shi _ i a d => some (fmtI i a d 0x08#7)
  | .lui _ i d => some (fmtJ i d 0x09#7)
  | .slori _ i a d => some (fmtI i a d 0x0A#7)
  | .rdsys _ f b a d => some (fmtR f b a d 0x0B#7)
  | .lb _ i a d _ => some (fmtI i a d 0x10#7)
  | .lbu _ i a d _ => some (fmtI i a d 0x11#7)
  | .lh _ i a d _ => some (fmtI i a d 0x12#7)
  | .lhu _ i a d _ => some (fmtI i a d 0x13#7)
  | .lw _ i a d _ => some (fmtI i a d 0x14#7)
  | .lwu _ i a d _ => some (fmtI i a d 0x15#7)
  | .ld _ i a d _ => some (fmtI i a d 0x16#7)
  | .vld _ i a d _ => some (fmtI i a d 0x17#7)
  | .sb _ i a d => some (fmtI i a d 0x18#7)
  | .sh _ i a d => some (fmtI i a d 0x19#7)
  | .sw _ i a d => some (fmtI i a d 0x1A#7)
  | .sd _ i a d => some (fmtI i a d 0x1B#7)
  | .vst _ i a d => some (fmtI i a d 0x1C#7)
  | .beq _ i a d => some (fmtI i a d 0x20#7)
  | .bne _ i a d => some (fmtI i a d 0x21#7)
  | .blt _ i a d => some (fmtI i a d 0x22#7)
  | .bge _ i a d => some (fmtI i a d 0x23#7)
  | .bltu _ i a d => some (fmtI i a d 0x24#7)
  | .bgeu _ i a d => some (fmtI i a d 0x25#7)
  | .jal _ i d => some (fmtJ i d 0x26#7)
  | .jalr _ i a d => some (fmtI i a d 0x27#7)
  | .bp _ i a d => some (fmtI i a d 0x28#7)
  | .pcadd _ i d => some (fmtJ i d 0x29#7)
  | .valu _ f b a d => some (fmtR f b a d 0x30#7)
  | .vcmp _ f b a d => some (fmtR f b a d 0x31#7)
  | .vsplat _ f b a d => some (fmtR f b a d 0x32#7)
  | .vext _ f b a d => some (fmtR f b a d 0x33#7)
  | .vins _ f b a d => some (fmtR f b a d 0x34#7)
  | .vperm _ f b a d => some (fmtR f b a d 0x35#7)
  | .vclmul _ f b a d => some (fmtR f b a d 0x36#7)
  | .vpopc _ f b a d => some (fmtR f b a d 0x37#7)
  | .vred _ f b a d => some (fmtR f b a d 0x38#7)
  | .pred _ f b a d => some (fmtR f b a d 0x39#7)
  | .post _ pf u b a d => some (fmtP pf u b a d 0x50#7)
  | .wait _ pf u b a d => some (fmtP pf u b a d 0x51#7)
  | .test _ pf u b a d => some (fmtP pf u b a d 0x52#7)
  | .yield _ pf u b a d => some (fmtP pf u b a d 0x53#7)
  | .endTask _ pf u b a d => some (fmtP pf u b a d 0x54#7)
  | .budget _ pf u b a d => some (fmtP pf u b a d 0x55#7)
  | .charge _ pf u b a d => some (fmtP pf u b a d 0x56#7)
  | .event _ pf u b a d => some (fmtP pf u b a d 0x57#7)
  | .hash _ pf u b a d => some (fmtP pf u b a d 0x58#7)
  | .crc _ pf u b a d => some (fmtP pf u b a d 0x59#7)
  | .amoswap _ f b a d => some (fmtR f b a d 0x60#7)
  | .amoadd _ f b a d => some (fmtR f b a d 0x61#7)
  | .amoand _ f b a d => some (fmtR f b a d 0x62#7)
  | .amoor _ f b a d => some (fmtR f b a d 0x63#7)
  | .amoxor _ f b a d => some (fmtR f b a d 0x64#7)
  | .amominu _ f b a d => some (fmtR f b a d 0x65#7)
  | .amomaxu _ f b a d => some (fmtR f b a d 0x66#7)
  | .casAtomic _ f b a d => some (fmtR f b a d 0x67#7)
  | .fence _ f b a d => some (fmtR f b a d 0x68#7)
  | _ => none

/-! ### Assigned words (R71) -/

/-- A vector field names v0–v15; a predicate field p0–p7 (R71). -/
abbrev v3 (b a d : BitVec 5) : Bool := vOk b && vOk a && vOk d

/-- A unary ALU function takes B = 0 (03, ALU). -/
def aluOk (f b : Nat) : Bool := 1 ≤ f && f ≤ 0x20 && (!(0x18 ≤ f && f ≤ 0x1F) || b == 0)

/-- Register kinds of a PRED function (R84). -/
def predOk (f : BitVec 10) (b a d : BitVec 5) : Bool :=
  fld f 5 5 == 0 && match vfun f with
    | 1 | 2 | 3 | 4 => pOk d && pOk a && pOk b
    | 5 => pOk d && pOk a && b == 0
    | 6 | 8 | 9 => pOk a && b == 0
    | 7 => pOk d && b == 0
    | _ => false

/-- Format R words with their F, RES0 fields and register ranges. -/
def assignedR (op : Nat) (f : BitVec 10) (b a d : BitVec 5) : Bool :=
  let z := vfun f == 0
  match op with
  | 0x00 => aluOk f.toNat b.toNat
  | 0x0B => b == 0 && a == 0 && (f.toNat ≤ 4 || f == 0x100 || f == 0x101)
  | 0x30 => v3 b a d && 1 ≤ vfun f && vfun f ≤ 0x11
  | 0x31 => vOk b && vOk a && pOk d && 1 ≤ vfun f && vfun f ≤ 6
  | 0x32 => vOk d && b == 0 && z
  | 0x33 => vOk a && fld f 7 3 == 0 && z
  | 0x34 => vOk d && fld f 7 3 == 0 && z
  | 0x35 => v3 b a d && fld f 5 2 == 0 && z
  | 0x36 => v3 b a d && fld f 5 2 == 3 && fld f 2 3 == 0
  | 0x37 => vOk a && vOk d && b == 0 && z
  | 0x38 => vOk a && b == 0 && 1 ≤ vfun f && vfun f ≤ 6
  | 0x39 => predOk f b a d
  | 0x68 => f == 0 && b == 0 && a == 0 && d == 0
  | _ => fld f 2 8 == 0 && 2 ≤ fld f 0 2

/-- Format P words (03, Primitives). -/
def assignedP (op : Nat) (pf : BitVec 6) (unit : BitVec 4) (b a d : BitVec 5) : Bool :=
  let one := d != regE pf || d == 0
  match op with
  | 0x50 => b == 0 && pf.toNat < pfKinds unit.toNat
  | 0x51 => unit == 0 && !bitOf pf 5 && one
  | 0x52 => unit == 0 && !bitOf pf 5 && one && b == 0
  | 0x53 => pf == 0 && unit == 0 && b == 0 && a == 0 && d == 0
  | 0x54 => pf == 0 && unit == 0 && d == 0
  | 0x55 => pf.toNat ≤ 1 && unit == 0 && b == 0 && a == 0
  | 0x56 => unit == 0 && b == 0 && !bitOf pf 5 && (bitOf pf 4 || fld pf 0 4 == 0)
  | 0x57 => unit == 0 && d == 0 && !bitOf pf 5
  | 0x58 => unit == 0 && pf == 0
  | _ => unit == 0

/-- A word is an assigned encoding (R71). -/
def assignedWord (w : W32) : Bool :=
  let op := (wOp w).toNat
  (decodeWord 0 .clean w).isSome &&
  (if op = 0 || op = 0x0B || (0x30 ≤ op && op ≤ 0x39) || 0x60 ≤ op then assignedR op (wF w) (wB w) (wA w) (wD w)
   else if 0x50 ≤ op then assignedP op (wPF w) (wU w) (wB w) (wA w) (wD w)
   else if op = 0x08 then fld (wI w) 8 7 == 0
   else if op = 0x17 || op = 0x1C then vOk (wD w)
   else if op = 0x28 then pOk (wA w) && (wD w).toNat ≤ 3
   else true)

/-- A word is vendor-only, or a POST no user task may make (R60, R75). -/
def vendorWord (w : W32) : Bool :=
  match (wOp w).toNat with
  | 0x0B => 0x100 ≤ (wF w).toNat
  | 0x50 => !userMay (wU w).toNat (wPF w).toNat
  | 0x56 => bitOf (wPF w) 4
  | _ => false

/-- Byte distance of the target a branch or JAL word names; none for every other word (R78). -/
def wordTarget (w : W32) : Option Int :=
  let op := (wOp w).toNat
  if (0x20 ≤ op && op ≤ 0x25) || op = 0x28 then some (4 * (wI w).toInt)
  else if op = 0x26 then some (4 * (wJ w).toInt)
  else none

end Sys2Proof.Machine
end

