-- ==== Sys2Proof/Machine/Programs.lean ====
section
/-! DEFINITION. User programs (13, R405–R408, R520; 02, R40, R68): the checks of an image, placement and binding, and
unloading. -/

namespace Sys2Proof.Machine

/-! ### The image (R405) -/

/-- Header fields of an image. -/
def imgId (b : List Byte) : Nat := leAt b 6 2
def imgCodeLen (b : List Byte) : Nat := leAt b 8 4
def imgFe (b : List Byte) : Nat := leAt b 12 4
def imgDr (b : List Byte) : Nat := leAt b 16 8
def imgClass (b : List Byte) : Nat := leAt b 24 1
def imgBinds (b : List Byte) : Nat := leAt b 25 1
def imgHooks (b : List Byte) : Nat := leAt b 26 1
def imgGrants (b : List Byte) : BitVec 256 := BitVec.ofNat 256 (leAt b 32 32)

/-- Offsets of binding i, hook entry i, and code word i. -/
def bindAt (i : Nat) : Nat := 64 + 16 * i
def hookAt (b : List Byte) (i : Nat) : Nat := 64 + 16 * imgBinds b + 8 * i
def codeAt (b : List Byte) (i : Nat) : Nat := 64 + 16 * imgBinds b + 8 * imgHooks b + 4 * i

/-- Code word i. -/
def imgWord (b : List Byte) (i : Nat) : W32 := w32 (leAt b (codeAt b i) 4)

/-- The bytes the check value covers: the image with CRC taken as zero. -/
def imgNoCrc (b : List Byte) : List Byte := b.take 28 ++ natLe 4 0 ++ b.drop 32

/-- The first offset of a list of conditions that fails. -/
def firstBad (l : List (Bool × Nat)) : Option Nat := (l.find? (fun x => !x.1)).map (·.2)

/-- Reason 1, up to the header fields (R520 items 1–6). -/
def imgHeader (b : List Byte) : Option Nat :=
  let code := imgCodeLen b
  firstBad [(64 ≤ b.length, 0), (leAt b 0 4 == 0x50554B41, 0), (leAt b 4 2 == 1, 4),
    (b.length == 64 + 16 * imgBinds b + 8 * imgHooks b + code, 0),
    ((crcStd (imgNoCrc b)).toNat == leAt b 28 4, 28),
    (1 ≤ imgId b && imgId b ≤ 0xFFFE, 6), (code % 4 == 0 && 4 ≤ code && code ≤ 2 ^ 23, 8),
    (imgFe b % 4096 == 0 && imgFe b ≤ 2 ^ 22, 12), (imgDr b % 65536 == 0 && imgDr b ≤ 2 ^ 30, 16),
    (11 ≤ imgClass b && imgClass b ≤ 15, 24), (imgBinds b ≤ 128, 25), (imgHooks b ≤ 96, 26), (leAt b 27 1 == 0, 27)]

/-- Binding i against its ranges and the bindings before it. -/
def bindBad (b : List Byte) (i : Nat) : Option Nat :=
  let o := bindAt i
  let opc := leAt b o 1
  firstBad [(0x80 ≤ opc && (List.range i).all (fun j => leAt b (bindAt j) 1 != opc), o), (leAt b (o + 1) 1 ≤ 1, o + 1),
    (leAt b (o + 2) 2 == 0, o + 2), (leAt b (o + 12) 4 == 0, o + 12)]

/-- Hook entry i against its ranges and the entries before it. -/
def hookBad (b : List Byte) (i : Nat) : Option Nat :=
  let o := hookAt b i
  let hook := leAt b o 1
  firstBad [(1 ≤ hook && hook ≤ 3 && (List.range i).all (fun j => leAt b (hookAt b j) 2 != leAt b o 2), o),
    (leAt b (o + 2) 2 == 0, o + 2)]

/-- Reason 1 (R520). -/
def imgReason1 (b : List Byte) : Option Nat :=
  match imgHeader b with
  | some o => some o
  | none =>
    match (List.range (imgBinds b)).findSome? (bindBad b) with
    | some o => some o
    | none => (List.range (imgHooks b)).findSome? (hookBad b)

/-- The first code word that fails a test. -/
def firstWord (b : List Byte) (bad : Nat → W32 → Bool) : Option Nat :=
  ((List.range (imgCodeLen b / 4)).find? (fun i => bad i (imgWord b i))).map (codeAt b)

/-- A code offset lies inside CODE, at a word. -/
def inCode (b : List Byte) (x : Int) : Bool := 0 ≤ x && x < imgCodeLen b && x % 4 == 0

/-- Reason 4: entries first, then branch and JAL targets (R406). -/
def imgReason4 (b : List Byte) : Option Nat :=
  let entries := (List.range (imgBinds b)).map (fun i => bindAt i + 4) ++ (List.range (imgHooks b)).map (fun i => hookAt b i + 4)
  match entries.find? (fun o => !inCode b (leAt b o 4)) with
  | some o => some o
  | none => firstWord b (fun i w => match wordTarget w with | some x => !inCode b (4 * i + x) | none => false)

/-- The image checks in order; the first failure as reason and byte offset (R406). -/
def imgReject (b : List Byte) : Option (Nat × Nat) :=
  match imgReason1 b with
  | some o => some (1, o)
  | none =>
    match firstWord b (fun _ w => !assignedWord w) with
    | some o => some (2, o)
    | none =>
      match firstWord b (fun _ w => vendorWord w) with
      | some o => some (3, o)
      | none => (imgReason4 b).map (fun o => (4, o))

/-! ### Bindings, space and placement (R62, R406, R407) -/

/-- Hook number and keyspace of every hook entry. -/
def imgHookKeys (b : List Byte) : List (Nat × Nat) :=
  (List.range (imgHooks b)).map (fun i => (leAt b (hookAt b i) 1, leAt b (hookAt b i + 1) 1))

/-- Every hook's keyspace exists and is granted. -/
def hooksGranted (d : Dev) (b : List Byte) : Bool :=
  (imgHookKeys b).all (fun x => (ksOf d x.2).exist && bitOf (imgGrants b) x.2)

/-- Programs other than the one loaded. -/
def others (d : Dev) (id : Nat) : List (Nat × Program) := d.mea.programs.filter (fun p => p.1 != id)

/-- An opcode or hook of the image is held by another program. -/
def heldByOther (d : Dev) (b : List Byte) : Bool :=
  (List.range (imgBinds b)).any (fun i =>
    let e := tblGetD d.mea.dispatch (leAt b (bindAt i) 1) {}
    e.valid && e.program.toNat != imgId b) ||
  (imgHookKeys b).any (fun x =>
    (others d (imgId b)).any (fun p => !p.2.unloading && p.2.hooks.any (fun h => h.1 == x.1 && h.2.1 == x.2)))

/-- A range does not meet any of those taken. -/
def apart (taken : List (Nat × Nat)) (a n : Nat) : Bool := taken.all (fun x => a + n ≤ x.1 || x.1 + x.2 ≤ a)

/-- The lowest place for n bytes between lo and hi beside the ranges taken: the manual leaves it open (log 21). -/
def firstFit (lo hi n : Nat) (taken : List (Nat × Nat)) : Option Nat :=
  let cands := lo :: taken.map (fun x => x.1 + x.2)
  (cands.filter (fun a => lo ≤ a && a + n ≤ hi && apart taken a n)).foldl
    (fun acc a => match acc with | none => some a | some x => some (min x a)) none

/-- Where the image's code and regions go: PS, FE and DR offsets. -/
def placement (d : Dev) (b : List Byte) : Option (Nat × Nat × Nat) :=
  let o := (others d (imgId b)).map (·.2)
  match firstFit 0x1800000 0x2000000 (imgCodeLen b) (o.map (fun p => (p.psBase, p.psLen))),
        firstFit 0xA000000 0xB000000 (imgFe b) (o.map (fun p => (p.feOff, p.feLen))),
        firstFit (102 * 2 ^ 30) (110 * 2 ^ 30) (imgDr b) (o.map (fun p => (p.drOff, p.drLen))) with
  | some x, some y, some z => some (x, y, z)
  | _, _, _ => none

/-- The user shared region of every engine is zeroed (R40). -/
def zeroShared (d : Dev) : Dev :=
  let user (a : Nat) : Bool := 0x38000 ≤ a % 0x40000
  { d with mea := { d.mea with lsShared := d.mea.lsShared.filter (fun c => !user c.1),
                               badWords := d.mea.badWords.filter (fun w => !user (8 * w)) } }

/-- A program's opcodes answer SC_INVALID_OPCODE and its hooks are unbound (R68). -/
def unbindProgram (id : Nat) (d : Dev) : Dev :=
  let mark (p : Nat × Program) : Nat × Program := if p.1 == id then (p.1, { p.2 with unloading := true }) else p
  { d with mea := { d.mea with dispatch := d.mea.dispatch.filter (fun e => e.2.program.toNat != id),
                               programs := d.mea.programs.map mark } }

/-- A program leaves the store. -/
def dropProgram (id : Nat) (d : Dev) : Dev := { d with mea := { d.mea with programs := tblErase d.mea.programs id } }

/-- A task of a program is not yet FREE. -/
def programBusy (d : Dev) (id : Nat) : Bool := d.mea.tasks.any (fun t => t.program.toNat == id)

/-- The dispatch entry of binding i. -/
def bindEntry (b : List Byte) (ps i : Nat) : DEntry :=
  let o := bindAt i
  { valid := true, user := true, nokey := leAt b (o + 1) 1 = 1, wclass := imgClass b, entry := w32 (ps + leAt b (o + 4) 4),
    program := BitVec.ofNat 16 (imgId b), est := leAt b (o + 8) 4 }

/-- Code, regions, dispatch entries and hooks of a program take their places (R407). -/
def installProgram (env : Env) (b : List Byte) (at_ : Nat × Nat × Nat) (d : Dev) : Dev :=
  let ps := at_.1
  let hooks := (List.range (imgHooks b)).map (fun i =>
    (leAt b (hookAt b i) 1, leAt b (hookAt b i + 1) 1, ps + leAt b (hookAt b i + 4) 4))
  let p : Program :=
    { psBase := ps, psLen := imgCodeLen b, feOff := at_.2.1, feLen := imgFe b, drOff := at_.2.2, drLen := imgDr b,
      wclass := imgClass b, grants := imgGrants b, hooks := hooks, loadTick := env.tick, digest := shake256 b }
  let m := d.mea
  zeroShared { d with mea := { m with
    ps := memStore m.ps ps (b.drop (codeAt b 0)), fe := memZero m.fe at_.2.1 (imgFe b), dr := memZero m.dr at_.2.2 (imgDr b),
    programs := tblSet m.programs (imgId b) p,
    dispatch := (List.range (imgBinds b)).foldl (fun t i => tblSet t (leAt b (bindAt i) 1) (bindEntry b ps i)) m.dispatch } }

/-! ### The commands -/

/-- An activation is in progress or pending (R408, R418). -/
def fwBusy (d : Dev) : Bool := d.sec.pending || d.sec.activating.isSome

/-- One execution of PROGRAM_LOAD on the image's bytes: the checks, the unloading of the program it replaces, then the
binding (R406, R407). -/
def loadImage (env : Env) (t : Task) (b : List Byte) (d : Dev) : Dev :=
  let id := imgId b
  match imgReject b with
  | some x => adminDone env t scImageRejected (x.1 + x.2 * 2 ^ 32) d
  | none =>
    if !hooksGranted d b then adminDone env t scInvalidField 0 d
    else if heldByOther d b then adminDone env t scExists 0 d
    else match placement d b with
      | none => adminDone env t scTooLarge 0 d
      | some at_ =>
        let d1 := unbindProgram id d
        if (tblGet d.mea.programs id).isSome && programBusy d id then
          waitJob env t { t.job with phase := .waitDrive, data := b } d1
        else adminDone env t scOk (id + at_.1 * 2 ^ 32) (installProgram env b at_ d1)

/-- PROGRAM_LOAD (R405–R408). -/
def execProgramLoad (t : TaskRef) (value : Rd) (s : State) : Host.Outcome State Fault Refusal :=
  serve t 0x49 (fun env t d =>
    if t.job.phase == .waitDrive then loadImage env t t.job.data d
    else if fwBusy d then adminDone env t scBusyActivation 0 d
    else match fetchData d t (capLen t.capsule) value with
      | .wait => d
      | .fail code => adminDone env t scAbortedHost 0 (bufferFail env t code d)
      | .data b => loadImage env t b (copied t b.length d)) s

/-- The last task of an unbound program has reached FREE. -/
def endUnload (env : Env) (t : Task) (id : Nat) (d : Dev) : Dev :=
  let gone := match tblGet d.mea.programs id with | some p => p.unloading | none => false
  adminDone env t scOk 0 (if gone then zeroShared (dropProgram id d) else d)

/-- PROGRAM_UNLOAD (R68, R408). -/
def execProgramUnload (t : TaskRef) (s : State) : Host.Outcome State Fault Refusal :=
  serve t 0x4A (fun env t d =>
    let id := capOpts t.capsule
    let mine := match tblGet d.mea.programs id with | some p => !p.unloading | none => false
    if t.job.phase == .waitDrive then if programBusy d id then d else endUnload env t id d
    else if fwBusy d then adminDone env t scBusyActivation 0 d
    else if !mine then adminDone env t scNotFound 0 d
    else if programBusy d id then waitJob env t { t.job with phase := .waitDrive } (unbindProgram id d)
    else endUnload env t id (unbindProgram id d)) s

end Sys2Proof.Machine
end

