-- ==== Sys2Proof/Machine/Firmware.lean ====
section
/-! DEFINITION. Firmware update (14, R411–R424): download, commit, activation with its swap and its abandonment,
confirmation, and the fall-back at the end of a trial's seconds. -/

namespace Sys2Proof.Machine

/-! ### Download (R413) -/

/-- The download buffer with one piece copied in. -/
def download (restart : Bool) (off : Nat) (bs : List Byte) (d : Dev) : Dev :=
  updSec (fun s =>
    let words := if restart then [] else s.bufWords
    let new := (List.range (bs.length / 4)).map (fun i => off / 4 + i)
    { s with buf := memStore (if restart then [] else s.buf) off bs,
             bufWords := words.filter (fun w => w < off / 4 || off / 4 + bs.length / 4 ≤ w) ++ new }) d

/-- FW_DOWNLOAD (R413, R418). -/
def execFwDownload (t : TaskRef) (value : Rd) (s : State) : Host.Outcome State Fault Refusal :=
  serve t 0x45 (fun env t d =>
    if fwBusy d then adminDone env t scBusyActivation 0 d
    else match fetchData d t (capLen t.capsule) value with
      | .wait => d
      | .fail code => adminDone env t scAbortedHost 0 (bufferFail env t code d)
      | .data bs =>
        let d1 := download (bitOf t.capsule 48) (capOff t.capsule) bs (copied t bs.length d)
        adminDone env t scOk (4 * d1.sec.bufWords.length) d1) s

/-! ### Commit (R411, R414) -/

/-- Header fields of the image in the download buffer. -/
def hdr (d : Dev) (off n : Nat) : Nat := leNat (memBytes d.sec.buf off n)
def hdrVendorLen (d : Dev) : Nat := hdr d 36 4
def hdrLoaderLen (d : Dev) : Nat := hdr d 40 4
def hdrBodyLen (d : Dev) : Nat := hdr d 32 4
def hdrLoader (d : Dev) : Bool := hdr d 6 2 / 2 % 2 = 1

/-- The first n bytes of the buffer have been written. -/
def written (d : Dev) (n : Nat) : Bool := (List.range ((n + 3) / 4)).all (fun w => d.sec.bufWords.contains w)

/-- Reason 1 of R414: the offset of the first field that fails. -/
def headerBad (d : Dev) : Option Nat :=
  let total := 256 + hdrBodyLen d + 9893
  firstBad [(written d 256, 0), (hdr d 0 4 == 0x49464B41, 0), (hdr d 4 2 == 1, 4), (hdr d 6 2 ≤ 3, 6), (hdr d 16 4 ≤ 64, 16),
    (hdrLoader d || hdr d 20 4 == 0, 20), (hdr d 24 2 ≤ hdr d 28 2, 28),
    (hdrBodyLen d == hdrVendorLen d + 4096 + hdrLoaderLen d && total ≤ 2 ^ 25, 32),
    (hdrVendorLen d % 4 == 0 && hdrVendorLen d ≤ 25165824, 36),
    (if hdrLoader d then 4 ≤ hdrLoaderLen d && hdrLoaderLen d ≤ 2 ^ 20 && hdrLoaderLen d % 4 == 0
     else hdrLoaderLen d == 0, 40),
    (hdr d 44 1 ≤ 3, 44), (hdr d 45 211 == 0, 45), (written d total, 0)]

/-- The level the image in the buffer writes on trial beside a confirmed image (R419). -/
def trialLevel (d : Dev) (conf : Image) : Nat := max (hdr d 26 2) (min (hdr d 24 2) conf.fmtWrite)

/-- Reason 4 of R414: the offset of the field that fails. -/
def formatBad (d : Dev) : Option Nat :=
  if d.sec.driveFmt < hdr d 26 2 then some 26
  else if hdr d 28 2 < d.sec.driveFmt then some 28
  else match slotImage d d.sec.conf with
    | some c => if c.fmtReadMin ≤ trialLevel d c && trialLevel d c ≤ c.fmtReadMax then none else some 24
    | none => none

/-- The first of checks 1–4 of R414 that fails: its reason and the offset of the field. -/
def imageBad (d : Dev) (sigOk : Bool) : Option (Nat × Nat) :=
  match headerBad d with
  | some off => some (1, off)
  | none =>
    if bitOf d.sec.revoked (hdr d 44 1) then some (2, 44)
    else if !sigOk then some (2, 0)
    else if hdr d 16 4 < d.sec.minSvn then some (3, 16)
    else (formatBad d).map (fun off => (4, off))

/-- The image the buffer holds (R411). -/
def bufImage (d : Dev) : Image :=
  let v := hdrVendorLen d
  let loader := memBytes d.sec.buf (256 + v + 4096) (hdrLoaderLen d)
  { valid := true, version := BitVec.ofNat 64 (hdr d 8 8), svn := hdr d 16 4, immediateOk := hdr d 6 2 % 2 = 1,
    loader := hdrLoader d, loaderVersion := w32 (hdr d 20 4), loaderDigest := (if hdrLoader d then shake256 loader else []),
    fmtWrite := hdr d 24 2, fmtReadMin := hdr d 26 2, fmtReadMax := hdr d 28 2, userAbi := hdr d 30 2, keyIndex := hdr d 44 1,
    vendor := memBytes d.sec.buf 256 v, table := memBytes d.sec.buf (256 + v) 4096, digest := shake256 (memBytes d.sec.buf 0 (256 + hdrBodyLen d)) }

/-- A slot holds an image that did not verify when last checked. -/
def slotFailed (d : Dev) (s : Nat) : Bool := match slotImage d s with | some i => !i.valid | none => false

/-- The target slot: the one not confirmed; in RECOVERY the one that failed verification, slot 0 when both did
(R414, R424). -/
def targetSlot (d : Dev) : Nat :=
  if d.sec.recovery then (if slotFailed d 1 && !slotFailed d 0 then 1 else 0) else 1 - d.sec.conf

/-- A slot is written. -/
def putSlot (slot : Nat) (i : Image) (d : Dev) : Dev := updSec (fun s => { s with slots := vset s.slots slot (some i) }) d

/-- A rejection is reported. -/
def rejectImage (env : Env) (t : Task) (why : Nat × Nat) (d : Dev) : Dev :=
  adminDone env t scImageRejected (why.1 + why.2 * 2 ^ 32) (event env 0x0E38 3 clsSecurity 0 why.1 why.2 0 d)

/-- Reason 5 begins: the target slot is written, and holds no valid image until it has been read back. -/
def writeSlot (env : Env) (t : Task) (d : Dev) : Dev :=
  let slot := targetSlot d
  waitJob env t { t.job with phase := .pieces slot }
    (updSec (fun s => { s with committed := none }) (putSlot slot { bufImage d with valid := false, torn := true } d))

/-- The slot has been read back: it holds the image, committed, or it is invalid. -/
def readSlot (env : Env) (t : Task) (slot : Nat) (slotOk : Bool) (d : Dev) : Dev :=
  match slotImage d slot with
  | none => rejectImage env t (5, 0) d
  | some i =>
    if !slotOk then rejectImage env t (5, 0) d
    else
      let d1 := updSec (fun s => { s with committed := some slot }) (putSlot slot { i with valid := true, torn := false } d)
      adminDone env t scOk (slot + i.svn * 256)
        (event env 0x0E30 1 clsSecurity 0 slot (i.version.toNat % 2 ^ 32) i.svn d1)

/-- FW_COMMIT (R414, R418, R424): `sigOk` the signature verifies, `slotOk` the slot reads back as it was written. The row is sent
once for the checks and the write, and once for the reading back; a loss of power between leaves the slot invalid. -/
def execFwCommit (t : TaskRef) (sigOk slotOk : Bool) (s : State) : Host.Outcome State Fault Refusal :=
  serve t 0x46 (fun env t d =>
    match t.job.phase with
    | .pieces slot => readSlot env t slot slotOk d
    | _ =>
      if fwBusy d || d.sec.trial.isSome then adminDone env t scBusyActivation 0 d
      else match imageBad d sigOk with
        | some why => rejectImage env t why d
        | none => writeSlot env t d) s

/-! ### Activation (R415–R418, R424) -/

/-- TRIAL_S, 600 when zero. -/
def trialSecs (c : V512) : Nat := if cap c 24 4 = 0 then 600 else cap c 24 4

/-- What answers an FW_ACTIVATE at once (R415). -/
def activateRefused (d : Dev) (immediate : Bool) : Option Byte :=
  match d.sec.committed with
  | none => some scNotFound
  | some slot =>
    let bad := match slotImage d slot with | some i => !i.immediateOk || i.loader | none => true
    if immediate && bad then some scInvalidField
    else if fwBusy d then some scBusyActivation
    else none

/-- FW_ACTIVATE with MODE 0 (R415, R416). -/
def execFwActivateDeferred (t : TaskRef) (s : State) : Host.Outcome State Fault Refusal :=
  serve t 0x47 (fun env t d =>
    if cap t.capsule 6 1 ≠ 0 then d
    else match activateRefused d false with
      | some st => adminDone env t st 0 d
      | none =>
        adminDone env t scOk 0
          (updSec (fun s => { s with pending := true, pendTrialS := trialSecs t.capsule }) d)) s

/-- Step 1 of R417: fetching pauses, and no new credit is granted. -/
def activationPause (d : Dev) : Dev :=
  { d with hqe := { d.hqe with fetchPaused := true }, xpt := { d.xpt with creditHeld := true } }

/-- The end of an activation: fetching and credit resume, unless a power-state entry holds the credit, and the chain commands held
meanwhile go first (R417). -/
def activationResume (env : Env) (d : Dev) : Dev :=
  grantAll { d with
    hqe := { d.hqe with fetchPaused := false }
    xpt := { d.xpt with creditHeld := env.pw.trans != .none || env.pw.st == .dormant }
    mea := { d.mea with heldFirst := (d.mea.arrivals.filter (fun a => a.kind == .act)).map (·.no) }
    sec := { d.sec with activating := none, fallingBack := false } }

/-- FW_ACTIVATE with MODE 1: the swap begins and the command waits for it (R417, R424). -/
def execFwActivateImmediate (t : TaskRef) (s : State) : Host.Outcome State Fault Refusal :=
  serve t 0x47 (fun env t d =>
    if cap t.capsule 6 1 ≠ 1 || t.job.phase == .waitDrive then d
    else match activateRefused d true with
      | some st => adminDone env t st 0 d
      | none =>
        waitJob env t { t.job with phase := .waitDrive }
          (updSec (fun s => { s with activating := some (some t.ref, env.tick, trialSecs t.capsule) }) (activationPause d))) s

/-- Tasks outside FREE that the swap waits for: all but the FW_ACTIVATE's own. -/
def oldTasks (d : Dev) (who : Option TaskRef) : List Task := d.mea.tasks.filter (fun t => some t.ref != who)

/-- Step 3 of R417: every task of the old table is FREE, and no accepted command waits for one. -/
def swapReady (d : Dev) (who : Option TaskRef) : Bool :=
  (oldTasks d who).isEmpty && d.mea.arrivals.all (fun a => !activationOk d a)

/-- A state in which firmware is swapped: not while a device reset or a power-state entry is under way. -/
def swapState (env : Env) : Bool :=
  env.pw.resetStep.isNone && env.pw.trans == .none &&
  (env.pw.st == .active || env.pw.st == .dormant || env.pw.st == .recovery)

/-- The FW_ACTIVATE that waits completes. -/
def answerActivate (env : Env) (who : Option TaskRef) (status : Byte) (result : Nat) (d : Dev) : Dev :=
  match who with
  | none => d
  | some r => match serving d r 0x47 with | some t => adminDone env t status result d | none => d

/-- A user program is unloaded because the interface level differs (R418). -/
def dropForAbi (env : Env) (old new : Nat) (d : Dev) (id : Nat) : Dev :=
  event env 0x0E35 3 clsUser 0 id old new (zeroShared (dropProgram id (unbindProgram id d)))

/-- User programs stay loaded when the interface level is the same (R418). -/
def keepPrograms (env : Env) (old new : Nat) (d : Dev) : Dev :=
  if old = new then d else (d.mea.programs.map (·.1)).foldl (dropForAbi env old new) d

/-- USER_ABI of an image, 0 of none. -/
def abiOf (i : Option Image) : Nat := match i with | some x => x.userAbi | none => 0

/-- The code of a slot takes the place of the running image. -/
def swapTo (env : Env) (slot : Nat) (d : Dev) : Dev :=
  keepPrograms env (abiOf d.sec.run) (abiOf (slotImage d slot)) (runImage slot d)

/-- The fall-back to the confirmed image, by the steps of R417 (R421). Where the loader's verification of it fails the manual does not
say what runs: the failure is reported, and the fall-back stays owed (DESIGN CHOICE, log 151). -/
def swapBack (env : Env) (slotOk : Bool) (d : Dev) : Dev :=
  let c := d.sec.conf
  if candidateOk d c slotOk then event env 0x0E33 5 clsSecurity 0 c 1 0 (activationResume env (swapTo env c (setValid c true d)))
  else passOver env c slotOk d

/-- The verified image begins its trial and runs (R417 steps 4–6; in RECOVERY a boot of it has begun, and bring-up goes on
behind the loader, R424, R447). -/
def swapIn (env : Env) (who : Option TaskRef) (slot secs : Nat) (d : Dev) : Env × Dev :=
  let boot := d.sec.recovery
  let d1 := startTrial env slot secs (setValid slot true d)
  let d2 := activationResume env (swapTo env slot (if boot then updSec (fun s => { s with trialBoots := 1 }) d1 else d1))
  let ver := match slotImage d slot with | some i => i.version.toNat | none => 0
  let d3 := event env 0x0E31 1 clsSecurity 0 slot (slotVer32 d slot) (b2n who.isSome) d2
  let d4 := answerActivate env who scOk ver d3
  if boot then toState .bringup 6 ({ env with pw := { restartBringup 6 env.pw with bringStep := 4 } }, d4) else (env, d4)

/-- ACTIVATION_SWAP: `slotOk` the loader verifies the slot again (R417, R421, R424; log 24). -/
def execActivationSwap (slotOk : Bool) (s : State) : Host.Outcome State Fault Refusal :=
  onEnv s (fun env d =>
    match d.sec.activating with
    | none => (env, d)
    | some (who, _, secs) =>
      if !swapState env || !swapReady d who then (env, d)
      else if d.sec.fallingBack then (env, swapBack env slotOk d)
      else match d.sec.committed with
        | none => (env, activationResume env d)
        | some slot =>
          if candidateOk d slot slotOk then swapIn env who slot secs d
          else
            let d1 := updSec (fun s => { s with pending := false, committed := none }) (passOver env slot slotOk d)
            (env, answerActivate env who scImageRejected 0 (activationResume env d1)))

/-- FW_ACTIVATION_ABANDONED: tasks of the old table are not all FREE 1.5 s after acceptance (R417); a fall-back waits on
(R421). -/
def execFwActivationAbandoned (s : State) : Host.Outcome State Fault Refusal :=
  onDev s (fun env d =>
    match d.sec.activating with
    | none => d
    | some (who, t0, _) =>
      if d.sec.fallingBack || env.tick < t0 + 37500000 || (oldTasks d who).isEmpty then d
      else
        let n := (oldTasks d who).length
        let d1 := activationResume env (updSec (fun s => { s with pending := false }) d)
        answerActivate env who scBusyActivation 0 (event env 0x0E34 3 clsSecurity 0 n 0 0 d1))

/-! ### Trial and confirmation (R420–R423) -/

/-- FW_CONFIRM: step 1 of R422 at once, its other steps each time the row is sent again, and the answer with the last. -/
def execFwConfirm (t : TaskRef) (s : State) : Host.Outcome State Fault Refusal :=
  serve t 0x48 (fun env t d =>
    if t.job.phase == .waitDrive then
      let d1 := confirmStep env d
      if d1.sec.confirming.isNone then adminDone env t scOk 0 d1 else d1
    else match d.sec.trial with
      | none => adminDone env t scNotFound 0 d
      | some slot =>
        if (slotImage d slot).isNone then adminDone env t scNotFound 0 d
        else waitJob env t { t.job with phase := .waitDrive } (confirmSlot slot d)) s

/-- FW_TRIAL_EXPIRY: the trial's seconds have passed; the fall-back begins by the steps of R417 (R420, R421). -/
def execFwTrialExpiry (s : State) : Host.Outcome State Fault Refusal :=
  onDev s (fun env d =>
    if d.sec.trial.isNone || trialLeftNow env d ≠ 0 || d.sec.activating.isSome || env.pw.resetStep.isSome ||
       !(env.pw.st == .active || env.pw.st == .dormant) then d
    else
      updSec (fun s => { s with trial := none, trialBoots := 0, trialLeft := 0, fallingBack := true,
                                activating := some (none, env.tick, 0) }) (activationPause d))

end Sys2Proof.Machine
end

