-- ==== Sys2Proof/Machine/HostEvents.lean ====
section
/-! DEFINITION. What reaches the drive from the PCI Express side beside queues and registers (04, R97, R122, R126, R127;
16, R453): configuration requests, completions of its own reads, and uncorrectable errors in protected felt (04, R517). -/

namespace Sys2Proof.Machine

/-! ### Configuration space (R96, R453) -/

/-- MSI-X enable and function mask; pending vectors that may go out do (R124). -/
def setMsix (on mask : Bool) (d : Dev) : Dev :=
  let d1 := { d with hqe := { d.hqe with msixOn := on, msixMask := mask } }
  d.hqe.pba.foldl (fun d v => deliverPending v d) d1

/-- An AER register takes a write: the status registers clear the bits written as 1 (R96). -/
def writeAer (reg : Nat) (v : W32) (d : Dev) : Dev :=
  let a := d.hqe.aer
  let a' : Aer := match reg with
    | 0 => { a with uncorrStatus := a.uncorrStatus &&& ~~~v }
    | 1 => { a with uncorrMask := v }
    | 2 => { a with uncorrSeverity := v }
    | 3 => { a with corrStatus := a.corrStatus &&& ~~~v }
    | 4 => { a with corrMask := v }
    | _ => a
  { d with hqe := { d.hqe with aer := a' } }

/-- What a read of the configuration header returns, where R96 and the PCI Express Base Specification fix it: the Command
register's Bus Master Enable, the class code 0x0180 and BAR0's type, 64-bit and non-prefetchable. Where the capability
structures lie the manual does not say: what a register of one returns is `capRead` (log 87). -/
def configRead (d : Dev) (off : Nat) : Option W32 :=
  match off with
  | 0x04 => some (w32 (4 * b2n d.hqe.busMaster))
  | 0x08 => some (w32 (0x01800000 + d.adm.step.toNat))
  | 0x10 => some 4
  | _ => none

/-- A power of two that is at most `v`, as Device Control codes a size from 128 bytes on. -/
def sizeCode (v : Nat) : Nat := ((List.range 6).filter (fun k => 128 * 2 ^ (k + 1) ≤ v)).length

/-- The fields R96 gives the capability structures, by capability ID and register offset of the PCI Express Base Specification:
MSI-X (0x11), Power Management (0x01), PCI Express (0x10) and Advanced Error Reporting (extended, 0x0001 as 0x101); fields the
manual says nothing of are left out (PRESUMED from that specification, log 87). -/
def capRead (d : Dev) (id off : Nat) : Option W32 :=
  match id, off with
  | 0x11, 0x00 => some (w32 (0x11 + 2047 * 2 ^ 16 + b2n d.hqe.msixMask * 2 ^ 30 + b2n d.hqe.msixOn * 2 ^ 31))
  | 0x01, 0x04 => some (if d.hqe.d3hot then 3 else 0)
  | 0x10, 0x08 => some (w32 (b2n d.hqe.relaxed * 2 ^ 4 + sizeCode d.hqe.mps * 2 ^ 5 + sizeCode d.hqe.mrrs * 2 ^ 12))
  | 0x10, 0x12 => some (w32 (d.hqe.linkSpeed + d.hqe.linkWidth * 2 ^ 4))
  | 0x10, 0x28 => some (w32 d.hqe.cto)
  | 0x101, 0x04 => some d.hqe.aer.uncorrStatus
  | 0x101, 0x08 => some d.hqe.aer.uncorrMask
  | 0x101, 0x0C => some d.hqe.aer.uncorrSeverity
  | 0x101, 0x10 => some d.hqe.aer.corrStatus
  | 0x101, 0x14 => some d.hqe.aer.corrMask
  | _, _ => none

/-- A configuration request that is answered. A read changes nothing; what it returns is `configRead`. -/
def configure (r : CfgReq) (env : Env) (d : Dev) : Dev :=
  match r with
  | .read _ => d
  | .aer reg v => writeAer reg v d
  | .busMaster on => if on then busMasterOn env d else busMasterOff env d
  | .msix on mask => setMsix on mask d
  | .deviceControl relaxed mps mrrs => { d with hqe := { d.hqe with relaxed := relaxed, mps := min 512 mps, mrrs := min 4096 mrrs } }
  | .deviceControl2 v => { d with hqe := { d.hqe with cto := v % 16 } }
  | .power d3 => setD3hot env d3 d

/-- CONFIGURATION_REQUEST: before step 2 of bring-up has ended it gets Configuration Request Retry Status (R453). -/
def execConfigurationRequest (r : CfgReq) (s : State) : Host.Outcome State Fault Refusal :=
  onDev s (fun env d => if hostAlive env && !d.hqe.perst then configure r env d else d)

/-! ### The map lease's pages (R126, R127, R219) -/

/-- The checks of R126 a page fails: CRC bit 0, generation bit 1, map address bit 2. -/
def pageChecks (gen page : Nat) (bs : List Byte) : Nat :=
  boolBits [(crcStd (bs.take 2060)).toNat != leAt bs 2060 4, leAt bs 2056 4 != gen, leAt bs 2048 8 != page]

/-- Every sheet a page's entries name carries the object's id and the number it has there in its tag (R126, R209). -/
def pageTagsOk (d : Dev) (page : Nat) (bs : List Byte) : Bool :=
  match pageOwner d page with
  | none => true
  | some (o, e) => (List.range 256).all (fun i =>
    let w := leAt bs (8 * i) 8
    let kind := w / 2 ^ 62
    if kind = 1 || kind = 2 then
      (match tblGet d.trl.sheets (w % 2 ^ 40) with
       | some sh => tagObj sh.tag == o.objId && tagNo sh.tag == 256 * e + i
       | none => false)
    else true)

/-- A page fails: it is rebuilt from the journal; more than 16 in one lease within 1 s end the lease (R127). -/
def badPage (env : Env) (page bits : Nat) (d : Dev) : Dev :=
  let l := d.hqe.lease
  let ticks := env.tick :: l.badTicks.filter (fun t => env.tick < t + Config.second)
  let d1 := event env 0x0109 2 clsProtocol 0 page bits 0 { d with hqe := { d.hqe with lease := { l with badTicks := ticks } } }
  if 16 < ticks.length then loseLease env 4 d1 else d1

/-- A read of a page has come back well. -/
def leaseReadEnds (page : Nat) (d : Dev) : Dev :=
  { d with hqe := { d.hqe with lease := { d.hqe.lease with reads := d.hqe.lease.reads.filter (fun x => x.1 != page) } } }

/-- A failed page is discarded and rebuilt, and the read is repeated through the rebuilt page (R126); without a lease the
journal answers it, and so it does for a page changed since, whose rebuilt form is not in the lease yet. -/
def repeatRead (env : Env) (page : Nat) (d : Dev) : Dev :=
  if !d.hqe.lease.active then d
  else if !leaseHolds d page then leaseReadEnds page d
  else
    let d1 := writeLeased page d
    { d1 with hqe := { d1.hqe with lease := { d1.hqe.lease with
        reads := d1.hqe.lease.reads.map (fun x => if x.1 = page then (page, env.tick) else x) } } }

/-- A read of a leased page returns: one past its completion timeout has failed (R97). A failed access to leased memory ends the
lease and is not counted in HQE_DMA_ERRORS: R122's table has no row for it (R127; DESIGN CHOICE, log 127). -/
def leaseRead (env : Env) (page : Nat) (data : Rd) (d : Dev) : Dev :=
  match d.hqe.lease.reads.find? (fun x => x.1 == page) with
  | none => d
  | some r =>
    if r.2 + ctoTicks d ≤ env.tick then loseLease env 2 (noteAer 0x11 d)
    else match data with
    | .fail e => loseLease env 2 (noteAer (errCode e) d)
    | .ok bs =>
      let b := slice bs 0 2112
      let bits := pageChecks d.hqe.lease.gen.toNat page b
      if bits = 0 && pageTagsOk d page b then leaseReadEnds page d else repeatRead env page (badPage env page bits d)

/-- HOST_READ_COMPLETION: data, or UR, CA or poison, for a read the drive made (R126, R326). -/
def execHostReadCompletion (r : HostReq) (data : Rd) (s : State) : Host.Outcome State Fault Refusal :=
  onDev s (fun env d =>
    match r with
    | .couch c pos => couchReadDone env c pos data d
    | .lease page => leaseRead env page data d)

/-- COMPLETION_TIMEOUT: a read of the drive has gone unanswered: an access failure (R97). -/
def execCompletionTimeout (r : HostReq) (s : State) : Host.Outcome State Fault Refusal :=
  onDev s (fun env d =>
    match r with
    | .couch c pos => couchReadTimeout env c pos d
    | .lease page => match d.hqe.lease.reads.find? (fun x => x.1 == page) with
      | some r => if r.2 + ctoTicks d ≤ env.tick then loseLease env 2 (noteAer 0x11 d) else d
      | none => d)

/-! ### Protected felt (R517, R120) -/

/-- The stretch of a held write's data an uncorrectable error touches: which one the manual leaves open (log 4). -/
def touchedRun (h : Held) (d : Dev) : Option Run × Dev :=
  if h.runs.isEmpty then (none, d)
  else
    let f := takeFree d
    (h.runs[f.1.toNat % h.runs.length]?, f.2)

/-- PROT_ECC_UNCORR: an uncorrectable error in protected felt, in the data of a held write; an acknowledged write's becomes
a deferred error with CAUSE 1 (R120, R464, R517). -/
def execProtEccUncorr (held : Nat) (drOff : Nat) (s : State) : Host.Outcome State Fault Refusal :=
  onDev s (fun env d =>
    match d.flt.held.find? (fun h => h.id == held) with
    | none => d
    | some h =>
      let x := touchedRun h d
      match x.1 with
      | none => d
      | some r =>
        let d1 := event env 0x0A01 5 clsHardware 0 (drOff / 64) h.ksid.toNat h.version.toNat
          (setCause env 10 2 (loseRun h r x.2))
        if h.acked.isSome then deferError env h 1 d1 else d1)

end Sys2Proof.Machine
end

