-- ==== Sys2Proof/Machine/Mgmt.lean ====
section
/-! DEFINITION. The management bus (18, R498–R501; 19, R507–R510). -/

namespace Sys2Proof.Machine

/-- A port of the management bus: 0 the slot's, 1 the header's. -/
def mgPort (d : Dev) (port : Nat) : MgPort := vget d.mg port {}

/-- Change a port. -/
def updMg (port : Nat) (f : MgPort → MgPort) (d : Dev) : Dev := { d with mg := vupd d.mg port f }

/-- The transaction is acknowledged, with the bytes of its response. -/
def mgAck (port : Nat) (bs : List Byte) (d : Dev) : Dev := updMg port (fun m => { m with resp := bs, nack := false }) d

/-- The transaction is not acknowledged, and what it would have written is discarded. -/
def mgNack (port : Nat) (d : Dev) : Dev := updMg port (fun m => { m with resp := [], nack := true }) d

/-- A transaction on a port that RDM answers; a wrong packet error code is not acknowledged (R499). -/
def transact (port : Nat) (pec : Bool) (f : Env → Dev → Env × Dev) (s : State) : Host.Outcome State Fault Refusal :=
  onEnv s (fun env d =>
    if !rdmOn env || 2 ≤ port then (env, d) else if !pec then (env, mgNack port d) else f env d)

/-- The 7-bit address the drive answers (R498). -/
def mgAddress (env : Env) : Nat := 0x68 + 2 * b2n env.pw.m3 + b2n env.pw.m2

/-! ### STATUS and pages (R500) -/

/-- The 16 bytes of STATUS. -/
def statusBytes (env : Env) (d : Dev) : List Byte :=
  natLe 1 (pstateCode env.pw.st) ++ natLe 1 (boolBits [vcoreOn env, env.pw.main, env.pw.auxAlt, env.pw.aux33]) ++ natLe 2 0 ++
  natLe 4 (seenSummary env d).toNat ++ natLe 8 env.tick

/-- STATUS (R500). -/
def execStatus (port : Nat) (s : State) : Host.Outcome State Fault Refusal :=
  transact port true (fun env d => (env, mgAck port (statusBytes env d) d)) s

/-- PAGE_SET (R500). -/
def execPageSet (port : Nat) (page : Byte) (pec : Bool) (s : State) : Host.Outcome State Fault Refusal :=
  transact port pec (fun env d => (env, mgAck port [] (updMg port (fun m => { m with page := page }) d))) s

/-- PAGE_GET (R500). -/
def execPageGet (port : Nat) (s : State) : Host.Outcome State Fault Refusal :=
  transact port true (fun env d => (env, mgAck port [(mgPort d port).page] d)) s

/-! ### Registers (R501, R507–R510) -/

/-- The bus is restricted: VCORE off, or DRAIN (R501). -/
def restricted (env : Env) : Bool := !vcoreOn env || env.pw.st == .drain

/-- What is read while the bus is restricted: ATTN_SUMMARY, RDM_CAUSE and RDM_TICK. -/
def readAlways (a : Nat) : Bool := a == 0x1000 || a == 0x1210 || a == 0x21000 || a == 0x21004

/-- Registers that set up what the local host uses (R508). -/
def hostOwned (a : Nat) : Bool := a == 0x10 || (0x1C ≤ a && a < 0x30) || a == 0x1004

/-- RSTAT of an access at a BAR0 offset, `always` telling whether it is served while the bus is restricted; before step 2
of R452 has ended no access is carried out (R509). -/
def rstat (env : Env) (d : Dev) (page a : Nat) (always : Bool) : Nat :=
  if env.pw.st == .bringup && env.pw.bringStep < 2 then 1
  else if restricted env && !always then 1
  else if a % 4 ≠ 0 || 2 < page || (regRead env d none a).isNone then 2
  else 0

/-- BAR0 offset a port's page and an offset within it reach (R507). -/
def mgOffset (d : Dev) (port off : Nat) : Nat := (mgPort d port).page.toNat * 65536 + off

/-- The value a 4-byte read returns, and the port's latch of RDM_TICK after it (R348). -/
def mgRead (env : Env) (port a : Nat) (d : Dev) : Nat × Dev :=
  let v := if a = 0x1000 then (seenSummary env d).toNat else (regRead env d (mgPort d port).latch a).getD 0
  let d1 := if a = 0x21000 then latchTick port env d
    else if a = 0x21004 then updMg port (fun m => { m with latch := none }) d
    else d
  (v, d1)

/-- REG_READ (R500, R501, R507). -/
def execRegRead (port : Nat) (off : BitVec 16) (pec : Bool) (s : State) : Host.Outcome State Fault Refusal :=
  transact port pec (fun env d =>
    let a := mgOffset d port off.toNat
    let st := rstat env d (mgPort d port).page.toNat a (readAlways a)
    if st ≠ 0 then (env, mgAck port (natLe 1 st ++ natLe 4 0) d)
    else
      let r := mgRead env port a d
      (env, mgAck port (natLe 1 0 ++ natLe 4 r.1) r.2)) s

/-- REG_WRITE (R500, R501, R507, R508). -/
def execRegWrite (port : Nat) (off : BitVec 16) (v : W32) (pec : Bool) (s : State) : Host.Outcome State Fault Refusal :=
  transact port pec (fun env d =>
    let a := mgOffset d port off.toNat
    let st := rstat env d (mgPort d port).page.toNat a (a == 0x1210)
    if st ≠ 0 then (env, mgAck port (natLe 1 st) d)
    else if hostOwned a then (env, mgAck port (natLe 1 2) d)
    else
      let x := regWrite a v env d
      (x.1, mgAck port (natLe 1 0) x.2)) s

/-! ### Reset and wake (R500, R501) -/

/-- DEVICE_RESET: 0x5D requests a device reset (R455); any other value is not acknowledged. -/
def execDeviceReset (port : Nat) (v : Byte) (pec : Bool) (s : State) : Host.Outcome State Fault Refusal :=
  transact port pec (fun env d =>
    if v ≠ 0x5D then (env, mgNack port d) else requestDeviceReset env (mgAck port [] d)) s

/-- WAKE: a wake cause of DORMANT and RETENTION (R448, R449); a value other than 0x01 is not acknowledged. -/
def execWake (port : Nat) (v : Byte) (pec : Bool) (s : State) : Host.Outcome State Fault Refusal :=
  transact port pec (fun env d =>
    let d1 := mgAck port [] d
    if v ≠ 0x01 then (env, mgNack port d)
    else if env.pw.st == .retention || enteringRetention env.pw then retentionCause 5 env d1
    else wakeDormant 5 env d1) s

/-- SMBUS_TIMEOUT: SCL has stayed low for 25 ms: the port drops the transaction in hand; its page and its latch stay
(R499; log 25). -/
def execSmbusTimeout (port : Nat) (s : State) : Host.Outcome State Fault Refusal :=
  transact port true (fun env d => (env, mgAck port [] d)) s

end Sys2Proof.Machine
end

