-- ==== Sys2Proof/Machine/QueueAdmin.lean ====
section
/-! DEFINITION. Queue pairs, the map lease, event clearing and attestation (04, R105–R107, R123, R125; 15, R435, R436;
12, R388, R389). -/

namespace Sys2Proof.Machine

/-! ### Queue pairs (R105–R107, R123) -/

/-- The pair a QUEUE_CREATE describes (R105). -/
def newPair (c : V512) : Pair :=
  { sqBase := BitVec.ofNat 64 (cap c 8 8), cqBase := BitVec.ofNat 64 (cap c 16 8), size := cap c 24 4,
    vector := cap c 28 2, cls := fld c 240 2, ien := bitOf c 242, group := cap c 32 2, aggTime := cap c 34 2,
    aggCount := cap c 36 2 }

/-- A pair comes to exist. -/
def addPair (q : Nat) (p : Pair) (d : Dev) : Dev :=
  { d with hqe := { d.hqe with pairs := tblSet d.hqe.pairs q p } }

/-- QUEUE_CREATE (R105, R106). -/
def execQueueCreate (t : TaskRef) (s : State) : Host.Outcome State Fault Refusal :=
  serve t 0x4B (fun env t d =>
    let c := t.capsule
    let q := capOpts c
    if (pairOf d q).isSome then adminDone env t scExists 0 d
    else adminDone env t scOk q (addPair q { newPair c with born := d.mea.nextArrival } d)) s

/-- Commands of a pair fetched and not dispatched. -/
def undispatched (d : Dev) (q : Nat) : List Arrival :=
  d.mea.arrivals.filter (fun a => a.kind == .host && a.source.toNat == q && a.hostGen == d.hqe.hostGen)

/-- A dispatched task of a pair is not FREE, or a completion of it waits for Bus Master Enable (R107, R123). -/
def pairBusy (d : Dev) (q : Nat) : Bool :=
  d.mea.tasks.any (fun t => t.kind == .host && t.source.toNat == q && t.hostGen == d.hqe.hostGen) ||
  d.hqe.heldCqes.any (fun x => x.1 == q)

/-- The pair whose deletion a task has accepted is gone; one created under its QID since stays. -/
def erasePair (t : Task) (q : Nat) (d : Dev) : Dev :=
  match pairOf d q with
  | some p => if p.deleting = some t.ref then { d with hqe := { d.hqe with pairs := tblErase d.hqe.pairs q } } else d
  | none => d

/-- The pair is gone, and its QUEUE_DELETE completes with the number of commands aborted. -/
def endDelete (env : Env) (t : Task) (q : Nat) (aborted : Nat) (d : Dev) : Dev :=
  adminDone env t scOk aborted (erasePair t q d)

/-- Deletion is accepted: fetching stops, undispatched commands are aborted, dispatched tasks go on (R107). -/
def acceptDelete (env : Env) (t : Task) (q : Nat) (p : Pair) (d : Dev) : Dev :=
  let gone := undispatched d q
  let n := if p.failed then 0 else gone.length
  let d1 := gone.foldl (fun d a => rejectArrival env a (scAbortedHost, 0) d)
    (updPair q (fun p => { p with deleting := some t.ref }) d)
  if pairBusy d1 q then waitJob env t { t.job with phase := .waitDrive, total := n } d1 else endDelete env t q n d1

/-- QUEUE_DELETE (R107, R123). -/
def execQueueDelete (t : TaskRef) (s : State) : Host.Outcome State Fault Refusal :=
  serve t 0x4C (fun env t d =>
    let q := capOpts t.capsule
    if t.job.phase == .waitDrive then if pairBusy d q then d else endDelete env t q t.job.total d
    else match pairOf d q with
      | none => adminDone env t scNotFound 0 d
      | some p => if p.deleting.isSome then adminDone env t scNotFound 0 d else acceptDelete env t q p d) s

/-! ### Map lease (R125, R127) -/

/-- 2 MiB. -/
abbrev mib2 : Nat := 2097152

/-- Bytes of the regions of a GRANT. -/
def leaseBytes (l : List (Nat × Nat)) : Nat := (l.map (·.2)).foldl (· + ·) 0

/-- The limits of R125 on the list of a GRANT. -/
def leaseOk (n : Nat) (bs : List Byte) : Bool :=
  let l := sglEntries n bs
  l.all (fun x => x.1 % mib2 = 0 && x.2 % mib2 = 0) && (List.range n).all (fun i => leAt bs (16 * i + 12) 4 == 0) &&
  2 ^ 30 ≤ leaseBytes l && leaseBytes l ≤ 2 ^ 38

/-- A lease comes into force under the next generation (R126). -/
def grantLease (l : List (Nat × Nat)) (d : Dev) : Dev :=
  let x := d.hqe.lease
  { d with hqe := { d.hqe with lease :=
    { active := true, sizeMib := leaseBytes l / 2 ^ 20, gen := x.gen + 1, lastReason := x.lastReason, regions := l } } }

/-- MAP_LEASE GRANT (R125). -/
def execMapLeaseGrant (t : TaskRef) (value : Rd) (s : State) : Host.Outcome State Fault Refusal :=
  serve t 0x4D (fun env t d =>
    if capOpts t.capsule ≠ 0 then d
    else if d.hqe.lease.active then adminDone env t scExists 0 d
    else match fetchData d t (capLen t.capsule) value with
      | .wait => d
      | .fail code => adminDone env t scAbortedHost 0 (bufferFail env t code d)
      | .data bs =>
        let d := copied t bs.length d
        let n := capLen t.capsule / 16
        if !leaseOk n bs then adminDone env t scInvalidField 0 d
        else
          let l := sglEntries n bs
          adminDone env t scOk (leaseBytes l / 2 ^ 20) (grantLease l d)) s

/-- MAP_LEASE REVOKE: no access starts from its acceptance on, and it completes once those issued have completed (R125). A
lease lost meanwhile leaves nothing to wait for, be there a new one since. -/
def execMapLeaseRevoke (t : TaskRef) (s : State) : Host.Outcome State Fault Refusal :=
  serve t 0x4D (fun env t d =>
    let l := d.hqe.lease
    let accepted := t.job.phase == .waitDrive
    let mine := l.active && (!accepted || t.job.asked == l.gen.toNat)
    if capOpts t.capsule ≠ 1 then d
    else if !mine then adminDone env t (if accepted then scOk else scNotFound) 0 d
    else if l.reads.isEmpty then adminDone env t scOk 0 { d with hqe := { d.hqe with lease := { gen := l.gen } } }
    else if accepted then d
    else waitJob env t { t.job with phase := .waitDrive, asked := l.gen.toNat }
      { d with hqe := { d.hqe with lease := { l with revoking := true } } }) s

/-- MAP_LEASE QUERY (R125, R127). -/
def execMapLeaseQuery (t : TaskRef) (s : State) : Host.Outcome State Fault Refusal :=
  serve t 0x4D (fun env t d =>
    if capOpts t.capsule ≠ 2 then d
    else adminDone env t scOk (d.hqe.lease.sizeMib + d.hqe.lease.lastReason * 2 ^ 32) d) s

/-! ### EVENT_CLEAR (R435, R436) -/

/-- A record is selected by UPTO, 0 for every record. -/
def upTo (upto : Nat) (r : Rec) : Bool := upto = 0 || r.run ≤ upto

/-- Records a clear removes, each once however many of the selected logs hold it. -/
def cleared (logs upto : Nat) (d : Dev) : List Rec :=
  let boot := if logs % 2 = 1 then d.evr.boot.filter (upTo upto) else []
  let service := if 2 ≤ logs then d.evr.service.filter (upTo upto) else []
  boot ++ service.filter (fun r => !boot.any (fun b => b.run == r.run))

/-- The selected records leave their logs, which accept again with their counts zeroed. -/
def removeRecords (logs upto : Nat) (d : Dev) : Dev :=
  let e := d.evr
  let e1 := if logs % 2 = 1 then
      { e with boot := e.boot.filter (fun r => !upTo upto r), bootFull := false, bootDropped := 0 } else e
  let e2 := if 2 ≤ logs then
      { e1 with service := e1.service.filter (fun r => !upTo upto r), dropped := 0, suppressed := 0 } else e1
  { d with evr := e2 }

/-- The SQID of a command, or its flow id with bit 15 set (R436). -/
def clearSource (t : Task) : Nat := if t.kind == .act then t.source.toNat % 2 ^ 15 + 2 ^ 15 else t.source.toNat

/-- Everything an accepted EVENT_CLEAR does: removal, its own record, made durable, and EVR_CAUSE.CLEARED (R436, R445). -/
def clearLogs (env : Env) (t : Task) (logs upto : Nat) (d : Dev) : Dev :=
  let gone := cleared logs upto d
  let d1 := removeRecords logs upto d
  let r : Rec :=
    { code := 0x0F01, sev := 3, cls := clsSecurity, p0 := w32 (logs + clearSource t * 2 ^ 16),
      p1 := w32 gone.length, p2 := w32 ((gone.map (·.sev)).foldl max 0) }
  let d2 := (enterRec env (logs % 2 = 1 || bootLogging env) r d1).1
  setCause env 0x0F 8 { d2 with evr := { d2.evr with durable := d2.evr.running - 1 } }

/-- EVENT_CLEAR (R435, R436). -/
def execEventClear (t : TaskRef) (s : State) : Host.Outcome State Fault Refusal :=
  serve t 0x4E (fun env t d =>
    let logs := cap t.capsule 6 1
    let upto := capOff t.capsule
    adminDone env t scOk (cleared logs upto d).length (clearLogs env t logs upto d)) s

/-! ### ATTEST (R388, R389) -/

/-- Leaves of the identity key. -/
abbrev leaves : Nat := 2 ^ 40

/-- The next leaf is taken below a durable mark; few leaves left are reported (R388). -/
def takeLeaf (env : Env) (d : Dev) : Dev :=
  let s := d.sec
  let s1 := if s.leaf = durableMark s then writeMark (s.leaf + 1024) s else s
  let d1 := { d with sec := { s1 with leaf := s.leaf + 1 } }
  let left := leaves - d1.sec.leaf
  if left < 2 ^ 30 then setCause env 14 4 (event env 0x0E05 4 clsSecurity 0 (left / 2 ^ 20) 0 0 d1) else d1

/-- USER_DIGEST: over the id and digest of each loaded program, in order of id. -/
def userDigest (d : Dev) : List Byte :=
  if d.mea.programs.isEmpty then List.replicate 32 0
  else shake256 (d.mea.programs.flatMap (fun p => natLe 2 p.1 ++ slice p.2.digest 0 32))

/-- Bytes 0–255 of the report. -/
def attestBody (env : Env) (d : Dev) (nonce : List Byte) (leaf : Nat) : List Byte :=
  let svn := match d.sec.run with | some i => i.svn | none => 0
  let fw := match d.sec.run with | some i => slice i.digest 0 32 | none => List.replicate 32 0
  natLe 4 0x54414B41 ++ natLe 2 1 ++ natLe 2 0 ++ natLe 8 env.tick ++ slice nonce 0 32 ++ textPad 16 d.adm.serial ++
  slice d.sec.loader.2 0 32 ++ fw ++ userDigest d ++ natLe 4 svn ++
  natLe 4 (boolBits [d.sec.trial.isSome, d.trl.worn, d.sec.tamperSeen]) ++ natLe 8 leaf ++ List.replicate 80 0

/-- ATTEST: the report with its signature over bytes 0–255; the leaf is used whether or not the report is delivered. -/
def execAttest (t : TaskRef) (f : Fetch) (s : State) : Host.Outcome State Fault Refusal :=
  serve t 0x53 (fun env t d =>
    if leaves ≤ d.sec.leaf then adminDone env t scAuthFail 0 d
    else
      let body := attestBody env d ((v512Bytes t.capsule).drop 32) d.sec.leaf
      let sig := (List.range 9893).map (Config.signature d.sec.leaf body)
      giveBytes env t f ((body ++ sig).take (capLen t.capsule)) 0 (takeLeaf env d)) s

end Sys2Proof.Machine
end

