-- ==== Sys2Proof/Machine/Units.lean ====
section
/-! DEFINITION. Posts to EVR (15, R434) and TIMER (03, R89), loopback capsules (02, R61, R522), and the end of a rate
window (15, R429). -/

namespace Sys2Proof.Machine

/-- RECORD: requests a record (R428, R434). -/
def execRecord (p : PostRef) (s : State) : Host.Outcome State Fault Refusal :=
  unitStep p 5 0 (fun env t x d =>
    let c := x.desc
    let r : Rec :=
      { code := c.setWidth 16, sev := fld c 20 4, cls := fld c 16 4, src := BitVec.ofNat 8 (cap c 11 1),
        p0 := w32 (cap c 16 4), p1 := w32 (cap c 20 4), p2 := w32 (cap c 24 4) }
    let q := request env r d
    endPost p t (postCost d) 0 (BitVec.ofNat 64 q.2) q.1) s

/-- SYNC: completes when every record entered before the post is durable; the records it waits for are written to
media (R433, R434). -/
def execSync (p : PostRef) (s : State) : Host.Outcome State Fault Refusal :=
  unitStep p 5 1 (fun _ t _ d =>
    let n := max d.evr.durable (d.evr.running - 1)
    endPost p t (postCost d) 0 (BitVec.ofNat 64 n) { d with evr := { d.evr with durable := n } }) s

/-- What the checks of a loopback capsule need of its parent (R61, R522). -/
def loopSrc (t : Task) : Src :=
  { kind := .loop, id := t.source.toNat, program := t.program, hookParent := t.kind == .hook,
    bufLen := if hasHv t then segsLen t.sgl else 0 }

/-- The bus address ranges of the parent's value buffer a loopback command names. -/
def loopSegs (t : Task) (c : V512) : List (Nat × Nat) :=
  if hasBuffer c && hasHv t then sliceSegs t.sgl (capPtr c) (capLen c) else []

/-- LOOPBACK_CAPSULE: the capsule is checked before dispatch and joins the arrivals of the parent's group, as on a queue
of its own (R61, R173, R522). Its key, where it is not inline, is read from the parent's value buffer. -/
def execLoopbackCapsule (p : PostRef) (key : Rd) (s : State) : Host.Outcome State Fault Refusal :=
  unitStep p 6 0 (fun env t x d =>
    let c := x.desc
    match checkEntry d (loopSrc t) c with
    | some v => endPost p t (postCost d) v.1 v.2 d
    | none =>
      match (if needsKey d c then hostRead d key else .data (inlineKey c)) with
      | .wait => d
      | .fail code => endPost p t (postCost d) scAbortedHost 0 (dataDmaFail env t.opSrc.toNat (capCid c) code d)
      | .data k =>
        joinArrival
          { no := 0, kind := .loop, capsule := c, source := BitVec.ofNat 16 (taskId t.eng t.ctx), group := t.group,
            prio := capPrio c,
            tick := env.tick, key := slice k 0 (capKlen c), sgl := loopSegs t c, hostGen := t.hostGen,
            ordered := capOrdered c, parent := some p, opSrc := t.opSrc, opFlow := t.opFlow, program := t.program }
          (workPost p d)) s

/-- TIMER_DELAY: falls due at the tick of the POST plus sA (R89). -/
def execTimerDelay (p : PostRef) (s : State) : Host.Outcome State Fault Refusal :=
  unitStep p 7 0 (fun _ _ x d =>
    updPost p (fun y => { y with st := .working, due := some (x.tick + x.addr.toNat) }) d) s

/-- TIMER_ABSOLUTE: a tick at or before that of the POST falls due at the POST; a later one at that tick (R89). -/
def execTimerAbsolute (p : PostRef) (s : State) : Host.Outcome State Fault Refusal :=
  unitStep p 7 1 (fun _ t x d =>
    if x.addr.toNat ≤ x.tick then endPost p t (postCost d) 0 (BitVec.ofNat 64 x.tick) d
    else updPost p (fun x => { x with st := .working, due := some x.addr.toNat }) d) s

/-- TIMER_DUE: a timer's tick has come; it completes with that tick (R89). -/
def execTimerDue (p : PostRef) (s : State) : Host.Outcome State Fault Refusal :=
  onDev s (fun env d =>
    match taskAt d p.eng p.ctx with
    | none => d
    | some t =>
      match t.posts.find? (fun x => x.tag == p.tag && x.unit == 7 && x.st == .working) with
      | none => d
      | some x =>
        match x.due with
        | some n => if n ≤ env.tick then endPost p t (postCost d) 0 (BitVec.ofNat 64 n) d else d
        | none => d)

/-- RATE_WINDOW_CLOSE: a code's window has run out (R429). -/
def execRateWindowClose (code : BitVec 16) (s : State) : Host.Outcome State Fault Refusal :=
  onDev s (fun env d =>
    match tblGet d.evr.windows code.toNat with
    | some w => if w.start + w.secs * Config.second ≤ env.tick then closeWindow env code w d else d
    | none => d)

end Sys2Proof.Machine
end

