-- ==== Sys2Proof/Machine/Dispatch.lean ====
section
/-! DEFINITION. The dispatch of a command to its meaning: one arm for each row of the table. -/

namespace Sys2Proof.Machine

def exec (i : Instr) (s : State) : Host.Outcome State Fault Refusal :=
  match i with
  | .alu e f b a d => Sys2Proof.Machine.execAlu e f b a d s
  | .addi e imm a d => Sys2Proof.Machine.execAddi e imm a d s
  | .andi e imm a d => Sys2Proof.Machine.execAndi e imm a d s
  | .ori e imm a d => Sys2Proof.Machine.execOri e imm a d s
  | .xori e imm a d => Sys2Proof.Machine.execXori e imm a d s
  | .slti e imm a d => Sys2Proof.Machine.execSlti e imm a d s
  | .sltiu e imm a d => Sys2Proof.Machine.execSltiu e imm a d s
  | .shi e imm a d => Sys2Proof.Machine.execShi e imm a d s
  | .lui e imm d => Sys2Proof.Machine.execLui e imm d s
  | .slori e imm a d => Sys2Proof.Machine.execSlori e imm a d s
  | .rdsys e f b a d => Sys2Proof.Machine.execRdsys e f b a d s
  | .lb e imm a d ecc => Sys2Proof.Machine.execLb e imm a d ecc s
  | .lbu e imm a d ecc => Sys2Proof.Machine.execLbu e imm a d ecc s
  | .lh e imm a d ecc => Sys2Proof.Machine.execLh e imm a d ecc s
  | .lhu e imm a d ecc => Sys2Proof.Machine.execLhu e imm a d ecc s
  | .lw e imm a d ecc => Sys2Proof.Machine.execLw e imm a d ecc s
  | .lwu e imm a d ecc => Sys2Proof.Machine.execLwu e imm a d ecc s
  | .ld e imm a d ecc => Sys2Proof.Machine.execLd e imm a d ecc s
  | .vld e imm a d ecc => Sys2Proof.Machine.execVld e imm a d ecc s
  | .sb e imm a d => Sys2Proof.Machine.execSb e imm a d s
  | .sh e imm a d => Sys2Proof.Machine.execSh e imm a d s
  | .sw e imm a d => Sys2Proof.Machine.execSw e imm a d s
  | .sd e imm a d => Sys2Proof.Machine.execSd e imm a d s
  | .vst e imm a d => Sys2Proof.Machine.execVst e imm a d s
  | .beq e imm a d => Sys2Proof.Machine.execBeq e imm a d s
  | .bne e imm a d => Sys2Proof.Machine.execBne e imm a d s
  | .blt e imm a d => Sys2Proof.Machine.execBlt e imm a d s
  | .bge e imm a d => Sys2Proof.Machine.execBge e imm a d s
  | .bltu e imm a d => Sys2Proof.Machine.execBltu e imm a d s
  | .bgeu e imm a d => Sys2Proof.Machine.execBgeu e imm a d s
  | .jal e imm d => Sys2Proof.Machine.execJal e imm d s
  | .jalr e imm a d => Sys2Proof.Machine.execJalr e imm a d s
  | .bp e imm a d => Sys2Proof.Machine.execBp e imm a d s
  | .pcadd e imm d => Sys2Proof.Machine.execPcadd e imm d s
  | .valu e f b a d => Sys2Proof.Machine.execValu e f b a d s
  | .vcmp e f b a d => Sys2Proof.Machine.execVcmp e f b a d s
  | .vsplat e f b a d => Sys2Proof.Machine.execVsplat e f b a d s
  | .vext e f b a d => Sys2Proof.Machine.execVext e f b a d s
  | .vins e f b a d => Sys2Proof.Machine.execVins e f b a d s
  | .vperm e f b a d => Sys2Proof.Machine.execVperm e f b a d s
  | .vclmul e f b a d => Sys2Proof.Machine.execVclmul e f b a d s
  | .vpopc e f b a d => Sys2Proof.Machine.execVpopc e f b a d s
  | .vred e f b a d => Sys2Proof.Machine.execVred e f b a d s
  | .pred e f b a d => Sys2Proof.Machine.execPred e f b a d s
  | .amoswap e f b a d => Sys2Proof.Machine.execAmoswap e f b a d s
  | .amoadd e f b a d => Sys2Proof.Machine.execAmoadd e f b a d s
  | .amoand e f b a d => Sys2Proof.Machine.execAmoand e f b a d s
  | .amoor e f b a d => Sys2Proof.Machine.execAmoor e f b a d s
  | .amoxor e f b a d => Sys2Proof.Machine.execAmoxor e f b a d s
  | .amominu e f b a d => Sys2Proof.Machine.execAmominu e f b a d s
  | .amomaxu e f b a d => Sys2Proof.Machine.execAmomaxu e f b a d s
  | .casAtomic e f b a d => Sys2Proof.Machine.execCasAtomic e f b a d s
  | .fence e f b a d => Sys2Proof.Machine.execFence e f b a d s
  | .post e pf unit b a d => Sys2Proof.Machine.execPost e pf unit b a d s
  | .wait e pf unit b a d => Sys2Proof.Machine.execWait e pf unit b a d s
  | .test e pf unit b a d => Sys2Proof.Machine.execTest e pf unit b a d s
  | .yield e pf unit b a d => Sys2Proof.Machine.execYield e pf unit b a d s
  | .endTask e pf unit b a d => Sys2Proof.Machine.execEndTask e pf unit b a d s
  | .budget e pf unit b a d => Sys2Proof.Machine.execBudget e pf unit b a d s
  | .charge e pf unit b a d => Sys2Proof.Machine.execCharge e pf unit b a d s
  | .event e pf unit b a d => Sys2Proof.Machine.execEvent e pf unit b a d s
  | .hash e pf unit b a d => Sys2Proof.Machine.execHash e pf unit b a d s
  | .crc e pf unit b a d => Sys2Proof.Machine.execCrc e pf unit b a d s
  | .fRunlimit e => Sys2Proof.Machine.execFRunlimit e s
  | .fHooktime t => Sys2Proof.Machine.execFHooktime t s
  | .waitTimeout t => Sys2Proof.Machine.execWaitTimeout t s
  | .unitCompletion p => Sys2Proof.Machine.execUnitCompletion p s
  | .arrivalDispatch arrival t => Sys2Proof.Machine.execArrivalDispatch arrival t s
  | .groupDrained group => Sys2Proof.Machine.execGroupDrained group s
  | .frameParser t hook off value => Sys2Proof.Machine.execFrameParser t hook off value s
  | .sqTailDoorbell q v => Sys2Proof.Machine.execSqTailDoorbell q v s
  | .cqHeadDoorbell q v => Sys2Proof.Machine.execCqHeadDoorbell q v s
  | .entryFetch entry key sgl => Sys2Proof.Machine.execEntryFetch entry key sgl s
  | .aggTimeExpiry q => Sys2Proof.Machine.execAggTimeExpiry q s
  | .enable v => Sys2Proof.Machine.execEnable v s
  | .controllerReset v => Sys2Proof.Machine.execControllerReset v s
  | .resetBusyClear => Sys2Proof.Machine.execResetBusyClear s
  | .shutdown v => Sys2Proof.Machine.execShutdown v s
  | .shutdownDone => Sys2Proof.Machine.execShutdownDone s
  | .devrst v => Sys2Proof.Machine.execDevrst v s
  | .deviceResetStep => Sys2Proof.Machine.execDeviceResetStep s
  | .functionLevelReset => Sys2Proof.Machine.execFunctionLevelReset s
  | .perst asserted => Sys2Proof.Machine.execPerst asserted s
  | .pcieLinkDown => Sys2Proof.Machine.execPcieLinkDown s
  | .pcieLinkUp speed width => Sys2Proof.Machine.execPcieLinkUp speed width s
  | .completionTimeout r => Sys2Proof.Machine.execCompletionTimeout r s
  | .hostReadCompletion r data => Sys2Proof.Machine.execHostReadCompletion r data s
  | .busMasterDisable => Sys2Proof.Machine.execBusMasterDisable s
  | .bmeHoldExpiry => Sys2Proof.Machine.execBmeHoldExpiry s
  | .protEccUncorr held drOff => Sys2Proof.Machine.execProtEccUncorr held drOff s
  | .barAccessInvalid off size write => Sys2Proof.Machine.execBarAccessInvalid off size write s
  | .registerWrite off eight v => Sys2Proof.Machine.execRegisterWrite off eight v s
  | .attnMaskWrite v => Sys2Proof.Machine.execAttnMaskWrite v s
  | .attnSignal => Sys2Proof.Machine.execAttnSignal s
  | .rdmTickLowRead port => Sys2Proof.Machine.execRdmTickLowRead port s
  | .put t value => Sys2Proof.Machine.execPut t value s
  | .get t f => Sys2Proof.Machine.execGet t f s
  | .delete t => Sys2Proof.Machine.execDelete t s
  | .exist t f => Sys2Proof.Machine.execExist t f s
  | .append t value => Sys2Proof.Machine.execAppend t value s
  | .rangeRead t f => Sys2Proof.Machine.execRangeRead t f s
  | .rangeWrite t value => Sys2Proof.Machine.execRangeWrite t value s
  | .punch t => Sys2Proof.Machine.execPunch t s
  | .cas t value => Sys2Proof.Machine.execCas t value s
  | .list t f budget => Sys2Proof.Machine.execList t f budget s
  | .flush t => Sys2Proof.Machine.execFlush t s
  | .framePut t value tiles => Sys2Proof.Machine.execFramePut t value tiles s
  | .roiRead t f => Sys2Proof.Machine.execRoiRead t f s
  | .batch t members ins f => Sys2Proof.Machine.execBatch t members ins f s
  | .userCommand arrival t stage => Sys2Proof.Machine.execUserCommand arrival t stage s
  | .slotLockGrant slot => Sys2Proof.Machine.execSlotLockGrant slot s
  | .slotLockTimeout t => Sys2Proof.Machine.execSlotLockTimeout t s
  | .protectedFeltAdmit t => Sys2Proof.Machine.execProtectedFeltAdmit t s
  | .streamedPortionAdmit t => Sys2Proof.Machine.execStreamedPortionAdmit t s
  | .identify t f => Sys2Proof.Machine.execIdentify t f s
  | .logRead t f => Sys2Proof.Machine.execLogRead t f s
  | .featureSet t => Sys2Proof.Machine.execFeatureSet t s
  | .featureGet t => Sys2Proof.Machine.execFeatureGet t s
  | .selfTestShort t => Sys2Proof.Machine.execSelfTestShort t s
  | .selfTestExtended t => Sys2Proof.Machine.execSelfTestExtended t s
  | .selfTestAbort t => Sys2Proof.Machine.execSelfTestAbort t s
  | .selfTestEnd failSegment event starved => Sys2Proof.Machine.execSelfTestEnd failSegment event starved s
  | .selftestPeriod => Sys2Proof.Machine.execSelftestPeriod s
  | .keyspaceCreate t value => Sys2Proof.Machine.execKeyspaceCreate t value s
  | .keyspaceDelete t => Sys2Proof.Machine.execKeyspaceDelete t s
  | .keyspaceErase t => Sys2Proof.Machine.execKeyspaceErase t s
  | .keyspaceUnlock t value => Sys2Proof.Machine.execKeyspaceUnlock t value s
  | .keyspaceLock t => Sys2Proof.Machine.execKeyspaceLock t s
  | .unlockLockoutEnd ks => Sys2Proof.Machine.execUnlockLockoutEnd ks s
  | .programLoad t value => Sys2Proof.Machine.execProgramLoad t value s
  | .programUnload t => Sys2Proof.Machine.execProgramUnload t s
  | .queueCreate t => Sys2Proof.Machine.execQueueCreate t s
  | .queueDelete t => Sys2Proof.Machine.execQueueDelete t s
  | .mapLeaseGrant t value => Sys2Proof.Machine.execMapLeaseGrant t value s
  | .mapLeaseRevoke t => Sys2Proof.Machine.execMapLeaseRevoke t s
  | .mapLeaseQuery t => Sys2Proof.Machine.execMapLeaseQuery t s
  | .eventClear t => Sys2Proof.Machine.execEventClear t s
  | .attest t f => Sys2Proof.Machine.execAttest t f s
  | .chainControlInsert t => Sys2Proof.Machine.execChainControlInsert t s
  | .chainControlBypass t => Sys2Proof.Machine.execChainControlBypass t s
  | .portReset t => Sys2Proof.Machine.execPortReset t s
  | .fwDownload t value => Sys2Proof.Machine.execFwDownload t value s
  | .fwCommit t sigOk slotOk => Sys2Proof.Machine.execFwCommit t sigOk slotOk s
  | .fwActivateDeferred t => Sys2Proof.Machine.execFwActivateDeferred t s
  | .fwActivateImmediate t => Sys2Proof.Machine.execFwActivateImmediate t s
  | .activationSwap slotOk => Sys2Proof.Machine.execActivationSwap slotOk s
  | .fwActivationAbandoned => Sys2Proof.Machine.execFwActivationAbandoned s
  | .fwConfirm t => Sys2Proof.Machine.execFwConfirm t s
  | .fwTrialExpiry => Sys2Proof.Machine.execFwTrialExpiry s
  | .encodeTile p lane verify => Sys2Proof.Machine.execEncodeTile p lane verify s
  | .decodeTile p lane good => Sys2Proof.Machine.execDecodeTile p lane good s
  | .encodeBytes p lane => Sys2Proof.Machine.execEncodeBytes p lane s
  | .decodeBytes p lane good => Sys2Proof.Machine.execDecodeBytes p lane good s
  | .stagingGrant => Sys2Proof.Machine.execStagingGrant s
  | .copy p => Sys2Proof.Machine.execCopy p s
  | .channelTakePost channel => Sys2Proof.Machine.execChannelTakePost channel s
  | .linkedDescriptorRead channel => Sys2Proof.Machine.execLinkedDescriptorRead channel s
  | .beatGrant eccBad => Sys2Proof.Machine.execBeatGrant eccBad s
  | .ageTicksExpiry channel => Sys2Proof.Machine.execAgeTicksExpiry channel s
  | .descTimeout channel => Sys2Proof.Machine.execDescTimeout channel s
  | .lateCompletion channel pos => Sys2Proof.Machine.execLateCompletion channel pos s
  | .lookup p => Sys2Proof.Machine.execLookup p s
  | .lock p => Sys2Proof.Machine.execLock p s
  | .commit p => Sys2Proof.Machine.execCommit p s
  | .unlock p => Sys2Proof.Machine.execUnlock p s
  | .remove p => Sys2Proof.Machine.execRemove p s
  | .seq p => Sys2Proof.Machine.execSeq p s
  | .scan p => Sys2Proof.Machine.execScan p s
  | .mediaRead p ends => Sys2Proof.Machine.execMediaRead p ends s
  | .mediaWrite p => Sys2Proof.Machine.execMediaWrite p s
  | .mediaErase p good => Sys2Proof.Machine.execMediaErase p good s
  | .readRaw p => Sys2Proof.Machine.execReadRaw p s
  | .quireProgrammed ream quire => Sys2Proof.Machine.execQuireProgrammed ream quire s
  | .programFail psa status => Sys2Proof.Machine.execProgramFail psa status s
  | .eraseFail psa status => Sys2Proof.Machine.execEraseFail psa status s
  | .dieFailed channel die => Sys2Proof.Machine.execDieFailed channel die s
  | .quireClose => Sys2Proof.Machine.execQuireClose s
  | .broke => Sys2Proof.Machine.execBroke s
  | .fold => Sys2Proof.Machine.execFold s
  | .refresh => Sys2Proof.Machine.execRefresh s
  | .patrol psa e => Sys2Proof.Machine.execPatrol psa e s
  | .wearLevel => Sys2Proof.Machine.execWearLevel s
  | .checkpointRound => Sys2Proof.Machine.execCheckpointRound s
  | .journalMax => Sys2Proof.Machine.execJournalMax s
  | .recoveryDone r => Sys2Proof.Machine.execRecoveryDone r s
  | .fwd p => Sys2Proof.Machine.execFwd p s
  | .inv p => Sys2Proof.Machine.execInv p s
  | .derive p => Sys2Proof.Machine.execDerive p s
  | .tagCheck p => Sys2Proof.Machine.execTagCheck p s
  | .free p => Sys2Proof.Machine.execFree p s
  | .sealFree p => Sys2Proof.Machine.execSealFree p s
  | .record p => Sys2Proof.Machine.execRecord p s
  | .sync p => Sys2Proof.Machine.execSync p s
  | .loopbackCapsule p key => Sys2Proof.Machine.execLoopbackCapsule p key s
  | .sendData p => Sys2Proof.Machine.execSendData p s
  | .recvData p => Sys2Proof.Machine.execRecvData p s
  | .timerDelay p => Sys2Proof.Machine.execTimerDelay p s
  | .timerAbsolute p => Sys2Proof.Machine.execTimerAbsolute p s
  | .timerDue p => Sys2Proof.Machine.execTimerDue p s
  | .rateWindowClose code => Sys2Proof.Machine.execRateWindowClose code s
  | .frameReceive port f => Sys2Proof.Machine.execFrameReceive port f s
  | .egressFrameStart port => Sys2Proof.Machine.execEgressFrameStart port s
  | .pauseExpiry port prio => Sys2Proof.Machine.execPauseExpiry port prio s
  | .pfcXoffRefresh port prio => Sys2Proof.Machine.execPfcXoffRefresh port prio s
  | .pfcStorm port prio => Sys2Proof.Machine.execPfcStorm port prio s
  | .pfcStormEnd port prio => Sys2Proof.Machine.execPfcStormEnd port prio s
  | .linkDown port cause => Sys2Proof.Machine.execLinkDown port cause s
  | .linkUp port ms => Sys2Proof.Machine.execLinkUp port ms s
  | .preemptVerifyFailed port => Sys2Proof.Machine.execPreemptVerifyFailed port s
  | .heldFrameExpiry => Sys2Proof.Machine.execHeldFrameExpiry s
  | .ringProbe => Sys2Proof.Machine.execRingProbe s
  | .ringOpened => Sys2Proof.Machine.execRingOpened s
  | .ringClosed => Sys2Proof.Machine.execRingClosed s
  | .insertSelftestDone good lanes => Sys2Proof.Machine.execInsertSelftestDone good lanes s
  | .bypassChanged => Sys2Proof.Machine.execBypassChanged s
  | .insertDecision => Sys2Proof.Machine.execInsertDecision s
  | .bypassFault => Sys2Proof.Machine.execBypassFault s
  | .aux12vLoss => Sys2Proof.Machine.execAux12vLoss s
  | .aux12vPresent => Sys2Proof.Machine.execAux12vPresent s
  | .senseChange sense0 sense1 => Sys2Proof.Machine.execSenseChange sense0 sense1 s
  | .actOpen => Sys2Proof.Machine.execActOpen s
  | .actClose => Sys2Proof.Machine.execActClose s
  | .closeAck flow => Sys2Proof.Machine.execCloseAck flow s
  | .actCmd => Sys2Proof.Machine.execActCmd s
  | .actData => Sys2Proof.Machine.execActData s
  | .actAck => Sys2Proof.Machine.execActAck s
  | .actReset => Sys2Proof.Machine.execActReset s
  | .ackDelay flow => Sys2Proof.Machine.execAckDelay flow s
  | .retransmitTimeout flow => Sys2Proof.Machine.execRetransmitTimeout flow s
  | .idleTimeout flow => Sys2Proof.Machine.execIdleTimeout flow s
  | .streamTimeout flow => Sys2Proof.Machine.execStreamTimeout flow s
  | .attn flow => Sys2Proof.Machine.execAttn flow s
  | .windowBoundary m => Sys2Proof.Machine.execWindowBoundary m s
  | .bgvCapWrite v => Sys2Proof.Machine.execBgvCapWrite v s
  | .vcoreStep => Sys2Proof.Machine.execVcoreStep s
  | .bgvGroupMove v => Sys2Proof.Machine.execBgvGroupMove v s
  | .thermalCritical sensor temp => Sys2Proof.Machine.execThermalCritical sensor temp s
  | .sensorFail sensor => Sys2Proof.Machine.execSensorFail sensor s
  | .blowerBudget => Sys2Proof.Machine.execBlowerBudget s
  | .mainPowerGood => Sys2Proof.Machine.execMainPowerGood s
  | .bringupStep b => Sys2Proof.Machine.execBringupStep b s
  | .mainPowerLost rail => Sys2Proof.Machine.execMainPowerLost rail s
  | .drainDone ms energyMj complete => Sys2Proof.Machine.execDrainDone ms energyMj complete s
  | .reqActive => Sys2Proof.Machine.execReqActive s
  | .reqDormant => Sys2Proof.Machine.execReqDormant s
  | .reqRetention => Sys2Proof.Machine.execReqRetention s
  | .dormantEntered => Sys2Proof.Machine.execDormantEntered s
  | .retentionEntered => Sys2Proof.Machine.execRetentionEntered s
  | .wakePin => Sys2Proof.Machine.execWakePin s
  | .perstRisingEdge => Sys2Proof.Machine.execPerstRisingEdge s
  | .dormantExit => Sys2Proof.Machine.execDormantExit s
  | .thermalWakeHoldEnd => Sys2Proof.Machine.execThermalWakeHoldEnd s
  | .vauxLoss => Sys2Proof.Machine.execVauxLoss s
  | .selfrefreshLost => Sys2Proof.Machine.execSelfrefreshLost s
  | .timebaseRestart m2 m3 aux33 auxAlt => Sys2Proof.Machine.execTimebaseRestart m2 m3 aux33 auxAlt s
  | .holdupMeasureStart => Sys2Proof.Machine.execHoldupMeasureStart s
  | .holdupMeasured v0mv v1mv => Sys2Proof.Machine.execHoldupMeasured v0mv v1mv s
  | .tamperOpen => Sys2Proof.Machine.execTamperOpen s
  | .glitchTrip detector => Sys2Proof.Machine.execGlitchTrip detector s
  | .blowerStart onMa offMa busMv => Sys2Proof.Machine.execBlowerStart onMa offMa busMv s
  | .windmill rpm reverse caught => Sys2Proof.Machine.execWindmill rpm reverse caught s
  | .brakeDone timedOut rpm => Sys2Proof.Machine.execBrakeDone timedOut rpm s
  | .alignDone => Sys2Proof.Machine.execAlignDone s
  | .handover rpm conf => Sys2Proof.Machine.execHandover rpm conf s
  | .startFailed cause => Sys2Proof.Machine.execStartFailed cause s
  | .startRetry => Sys2Proof.Machine.execStartRetry s
  | .observerLost rpm conf busMv => Sys2Proof.Machine.execObserverLost rpm conf busMv s
  | .reacquired rpm conf => Sys2Proof.Machine.execReacquired rpm conf s
  | .reacquireFailed rpm => Sys2Proof.Machine.execReacquireFailed rpm s
  | .overvoltage busMv rpm => Sys2Proof.Machine.execOvervoltage busMv rpm s
  | .ov2AscLimit => Sys2Proof.Machine.execOv2AscLimit s
  | .speedDeficit rpm phaseMa => Sys2Proof.Machine.execSpeedDeficit rpm phaseMa s
  | .blowerHealthy rpm conf => Sys2Proof.Machine.execBlowerHealthy rpm conf s
  | .status port => Sys2Proof.Machine.execStatus port s
  | .pageSet port page pec => Sys2Proof.Machine.execPageSet port page pec s
  | .pageGet port => Sys2Proof.Machine.execPageGet port s
  | .regRead port off pec => Sys2Proof.Machine.execRegRead port off pec s
  | .regWrite port off v pec => Sys2Proof.Machine.execRegWrite port off v pec s
  | .deviceReset port v pec => Sys2Proof.Machine.execDeviceReset port v pec s
  | .wake port v pec => Sys2Proof.Machine.execWake port v pec s
  | .smbusTimeout port => Sys2Proof.Machine.execSmbusTimeout port s
  | .lsScrubError eng off => Sys2Proof.Machine.execLsScrubError eng off s
  | .internalEcc => Sys2Proof.Machine.execInternalEcc s
  | .xtalFault ppm => Sys2Proof.Machine.execXtalFault ppm s
  | .supplyFault => Sys2Proof.Machine.execSupplyFault s
  | .configurationRequest r => Sys2Proof.Machine.execConfigurationRequest r s
  | .portResetTimeout => Sys2Proof.Machine.execPortResetTimeout s
  | .respAckWaitExpiry => Sys2Proof.Machine.execRespAckWaitExpiry s
  | .coastReturn rpm => Sys2Proof.Machine.execCoastReturn rpm s
  | .ascRelease rpm busMv => Sys2Proof.Machine.execAscRelease rpm busMv s

end Sys2Proof.Machine
end

