-- ==== Sys2Proof/Machine/Step.lean ====
section
/-! DEFINITION. One step: the command at the front of the queue takes effect; with nothing waiting a tick passes. -/

namespace Sys2Proof.Machine

/-- One tick of the 40 ns time base (R5): what happens while no command waits (log 1). -/
def idleTick (s : State) : State := { s with env := { s.env with tick := s.env.tick + 1 } }

/-- Take the command at the front of the queue and run it with the queue's rest; idle for one tick on an empty queue. -/
def step (s : State) : Host.Outcome State Fault Refusal :=
  match s.pending with
  | [] => .next (idleTick s)
  | c :: rest => exec c { s with pending := rest }

/-- The state with the command a word spells at the front of its queue; unchanged where it spells none. -/
def State.withFetchWord (s : State) (nbits w : Nat) : State :=
  match Sys2Proof.decodeTableWord nbits w with
  | some c => { s with pending := c :: s.pending }
  | none => s

end Sys2Proof.Machine
end

