-- ==== Sys2Proof/Laws/Memory.lean ====
section
/-! SUPPORT. Memory keeps its canonical form under every operation, a byte written reads back, and every other byte
stays. -/

namespace Sys2Proof.Laws

open Sys2Proof.Machine

/-- Every address of a memory lies above a bound. -/
def Above (a : Nat) (m : Mem) : Prop := ∀ c ∈ m, a < c.1

/-- The canonical form, unrolled at the front. -/
theorem memWf_cons (a : Nat) (b : Byte) (m : Mem) : memWf ((a, b) :: m) = true ↔ b ≠ 0 ∧ Above a m ∧ memWf m = true := by
  induction m generalizing a b with
  | nil => simp [memWf, Above]
  | cons c m ih =>
    obtain ⟨a', b'⟩ := c
    have h := ih a' b'
    simp only [memWf, Bool.and_eq_true, bne_iff_ne, decide_eq_true_eq, ne_eq]
    constructor
    · rintro ⟨⟨h1, h2⟩, h3⟩
      refine ⟨h1, ?_, h3⟩
      intro x hx
      rcases List.mem_cons.1 hx with rfl | hx
      · exact h2
      · exact Nat.lt_trans h2 ((h.1 h3).2.1 x hx)
    · rintro ⟨h1, h2, h3⟩
      exact ⟨⟨h1, h2 (a', b') (List.mem_cons_self ..)⟩, h3⟩

/-- Nothing is listed at or below a bound that everything lies above. -/
theorem memRead_above (m : Mem) (a : Nat) (h : Above a m) : memRead m a = 0 := by
  induction m with
  | nil => rfl
  | cons c m ih =>
    obtain ⟨x, y⟩ := c
    have hx : a < x := h (x, y) (List.mem_cons_self ..)
    simp only [memRead]
    rw [if_neg (by omega)]
    exact ih (fun c hc => h c (List.mem_cons_of_mem _ hc))

/-- A write of zero leaves out the cells of its address. -/
theorem memWrite_zero (m : Mem) (a : Nat) : memWrite m a 0 = m.filter (fun c => c.1 != a) := by
  induction m with
  | nil => rfl
  | cons c m ih =>
    obtain ⟨x, y⟩ := c
    simp only [memWrite, ↓reduceIte, ih, List.filter_cons]
    by_cases h : x = a <;> simp [h]

theorem memWrite_above (m : Mem) (a k : Nat) (b : Byte) (h : Above k m) (hk : k < a) : Above k (memWrite m a b) := by
  by_cases hb : b = 0
  · subst hb; rw [memWrite_zero]; exact fun c hc => h c (List.mem_filter.1 hc).1
  induction m with
  | nil =>
    simp only [memWrite, hb, ↓reduceIte]
    intro c hc; rcases List.mem_cons.1 hc with rfl | hc
    · exact hk
    · cases hc
  | cons c m ih =>
    obtain ⟨x, y⟩ := c
    have hm : Above k m := fun c hc => h c (List.mem_cons_of_mem _ hc)
    have hx : k < x := h (x, y) (List.mem_cons_self ..)
    simp only [memWrite, hb, ↓reduceIte]
    split
    · intro c hc; rcases List.mem_cons.1 hc with rfl | hc
      · exact hk
      · exact h c hc
    · split
      · intro c hc; rcases List.mem_cons.1 hc with rfl | hc
        · exact hk
        · exact hm c hc
      · intro c hc; rcases List.mem_cons.1 hc with rfl | hc
        · exact hx
        · exact ih hm c hc

/-- Leaving cells out keeps the canonical form. -/
theorem memWf_filter (p : Host.Cell → Bool) (m : Mem) (h : memWf m = true) : memWf (m.filter p) = true := by
  induction m with
  | nil => rfl
  | cons c m ih =>
    obtain ⟨x, y⟩ := c
    obtain ⟨h1, h2, h3⟩ := (memWf_cons x y m).1 h
    rw [List.filter_cons]
    split
    · exact (memWf_cons x y _).2 ⟨h1, fun c hc => h2 c (List.mem_filter.1 hc).1, ih h3⟩
    · exact ih h3

/-- A write keeps the canonical form. -/
theorem memWf_write (m : Mem) (a : Nat) (b : Byte) (h : memWf m = true) : memWf (memWrite m a b) = true := by
  by_cases hb : b = 0
  · subst hb; rw [memWrite_zero]; exact memWf_filter _ m h
  induction m with
  | nil => simp only [memWrite, hb, ↓reduceIte, memWf, bne_iff_ne, ne_eq, not_false_eq_true]
  | cons c m ih =>
    obtain ⟨x, y⟩ := c
    obtain ⟨h1, h2, h3⟩ := (memWf_cons x y m).1 h
    simp only [memWrite, hb, ↓reduceIte]
    split
    · rename_i hlt
      refine (memWf_cons a b _).2 ⟨hb, ?_, h⟩
      intro c hc; rcases List.mem_cons.1 hc with rfl | hc
      · exact hlt
      · exact Nat.lt_trans hlt (h2 c hc)
    · rename_i hge
      split
      · rename_i he
        exact (memWf_cons a b _).2 ⟨hb, by subst he; exact h2, h3⟩
      · rename_i hne
        exact (memWf_cons x y _).2 ⟨h1, memWrite_above m a x b h2 (by omega), ih h3⟩

/-- Storing bytes keeps the canonical form. -/
theorem memWf_store (bs : List Byte) (m : Mem) (a : Nat) (h : memWf m = true) : memWf (memStore m a bs) = true := by
  induction bs generalizing m a with
  | nil => exact h
  | cons b bs ih => exact ih (memWrite m a b) (a + 1) (memWf_write m a b h)

/-- Zeroing a range keeps the canonical form. -/
theorem memWf_zero (m : Mem) (a n : Nat) (h : memWf m = true) : memWf (memZero m a n) = true := memWf_filter _ m h

/-- A byte written reads back. -/
theorem memRead_write (m : Mem) (a : Nat) (b : Byte) : memRead (memWrite m a b) a = b := by
  by_cases hb : b = 0
  · subst hb
    induction m with
    | nil => rfl
    | cons c m ih =>
      obtain ⟨x, y⟩ := c
      by_cases h : x = a <;> simp only [memWrite, memRead, h, ih, ↓reduceIte]
  induction m with
  | nil => simp only [memWrite, hb, ↓reduceIte, memRead]
  | cons c m ih =>
    obtain ⟨x, y⟩ := c
    simp only [memWrite, hb, ↓reduceIte]
    split
    · simp [memRead]
    · split
      · simp [memRead]
      · simp only [memRead]
        rw [if_neg (by omega)]
        exact ih

/-- A write leaves every other byte. -/
theorem memRead_write_ne (m : Mem) (a a' : Nat) (b : Byte) (hne : a' ≠ a) :
    memRead (memWrite m a b) a' = memRead m a' := by
  induction m with
  | nil =>
    simp only [memWrite]
    split
    · rfl
    · simp only [memRead]; rw [if_neg (by omega)]
  | cons c m ih =>
    obtain ⟨x, y⟩ := c
    simp only [memWrite]
    split
    · split
      · simp only [memRead]; rw [if_neg (by omega), ih]
      · simp only [memRead]; rw [ih]
    · split
      · simp only [memRead]; rw [if_neg (by omega)]
      · split
        · simp only [memRead]; rw [if_neg (by omega), if_neg (by omega)]
        · simp only [memRead]; rw [ih]

/-- Storing bytes leaves every byte outside them. -/
theorem memRead_store_out (bs : List Byte) (m : Mem) (a a' : Nat) (h : a' < a ∨ a + bs.length ≤ a') :
    memRead (memStore m a bs) a' = memRead m a' := by
  induction bs generalizing m a with
  | nil => rfl
  | cons b bs ih =>
    simp only [memStore]
    rw [ih _ _ (by simp at h; omega), memRead_write_ne _ _ _ _ (by simp at h; omega)]

/-- Bytes stored read back. -/
theorem memRead_store (bs : List Byte) (m : Mem) (a i : Nat) (hi : i < bs.length) :
    memRead (memStore m a bs) (a + i) = bs.getD i 0 := by
  induction bs generalizing m a i with
  | nil => simp at hi
  | cons b bs ih =>
    simp only [memStore]
    cases i with
    | zero =>
      rw [memRead_store_out _ _ _ _ (Or.inl (by omega))]
      simpa using memRead_write m a b
    | succ i =>
      have := ih (memWrite m a b) (a + 1) i (by simpa using hi)
      rw [show a + (i + 1) = a + 1 + i by omega, this]
      simp

end Sys2Proof.Laws
end

