-- ==== Sys2Proof/Machine/Pins.lean ====
section
/-! DEFINITION. What the module shows outward as functions of the state: attention pins, INTx, the LEDs, the J-MGT
outputs and the optical map (15, R442, R443; 08, R281; 18, R484–R487, R491). -/

namespace Sys2Proof.Machine

/-- INTx is asserted: MSI-X is disabled and an unmasked summary bit is 1 (R119, R442). -/
def intxLevel (env : Env) (d : Dev) : Bool := hostAlive env && !d.hqe.msixOn && attnHost d.attn != 0

/-- ATTN# is driven low (R443). -/
def attnPinLow (env : Env) (d : Dev) : Bool :=
  rdmOn env && (if vcoreOn env then attnSummary d.attn &&& ~~~d.attn.pinMask != 0 else seenSummary env d != 0)

/-- Patterns of the LEDs; a blink is given in tenths of a hertz. -/
inductive Led where
  | off
  | on
  | blink (deciHz : Nat)
  /-- 0.1 s every 4 s. -/
  | flash
  /-- Twice every 2 s. -/
  | doubleFlash
  deriving DecidableEq, Repr

/-- The STATE LED (R484). -/
def stateLed (env : Env) : Led :=
  match env.pw.st with
  | .active => .on
  | .bringup => .blink 10
  | .recovery => .blink 20
  | .drain => .blink 40
  | .dormant => .blink 5
  | .retention => .flash
  | .off => .off

/-- The fault indication (R484). -/
def faultShown (d : Dev) : Led :=
  if bitOf (attnSummary d.attn) 0 || d.trl.worn then .on
  else if d.bgv.blowerFault || d.bgv.tg.toList.any (·.atHard) || d.cpt.bypass = 3 then .blink 10
  else .off

/-- MGPIO0 serves as LED_FAULT (FID 0x0007), WAKE_OUT not being enabled (R281, R484). -/
def faultOnPin (d : Dev) : Bool := d.adm.ledMgpio = 1 && !d.cpt.wakeOutEn

/-- The bracket's FAULT LED (R484). -/
def faultLed (d : Dev) : Led := if faultOnPin d then .off else faultShown d

/-- The CHAIN LED (R484). -/
def chainLed (d : Dev) : Led :=
  let c := d.cpt
  if c.op != .none || c.bypass = 2 then .blink 40
  else if c.ringOpen then .doubleFlash
  else if c.bypass ≠ 1 then .off
  else match (vget c.ports 0 {}).link, (vget c.ports 1 {}).link with
    | true, true => .on
    | false, false => .off
    | _, _ => .blink 10

/-- WAKE_OUT is low: from a match until ACTIVE, and for 1 ms at least (R281). -/
def wakeOutLow (env : Env) (d : Dev) : Bool :=
  d.cpt.wakeOutEn &&
  (match d.cpt.wakeOutAt with | some t => !d.cpt.wakeOutDone || env.tick < t + Config.ms | none => false)

/-- What MGPIO0 shows while low: WAKE_OUT, LED_FAULT, or nothing (R281, R491); with RDM off no pin of J-MGT is driven. -/
def mgpio0 (env : Env) (d : Dev) : Led :=
  if !rdmOn env then .off
  else if d.cpt.wakeOutEn then (if wakeOutLow env d then .on else .off) else if faultOnPin d then faultShown d else .off

/-- MGPIO1 is low while the STATE LED is lit (R491). -/
def mgpio1 (env : Env) : Led := if rdmOn env then stateLed env else .off

/-- An end of an optical path: a receptacle's position, or a lane of a port's receiver. -/
inductive Optic where
  | jcp (port pos : Nat)
  | rx (port lane : Nat)
  deriving DecidableEq, Repr

/-- The switch rests in BYPASSED: by its state, or in FAULT by construction with the hold supply off (R252, R255). -/
def atBypass (d : Dev) : Bool := d.cpt.bypass == 0 || (d.cpt.bypass == 3 && !d.cpt.hold)

/-- Where light entering a receptacle at a receive position goes: across when BYPASSED, to the port when INSERTED
(R485, R486). -/
def lightIn (d : Dev) (port k : Nat) : Option Optic :=
  if atBypass d then some (.jcp (1 - port) (1 + k)) else if d.cpt.bypass = 1 then some (.rx port k) else none

/-- Where a port's transmit lane goes (R485, R486). -/
def lightOut (d : Dev) (port k : Nat) : Option Optic :=
  if atBypass d then some (.rx port k) else if d.cpt.bypass = 1 then some (.jcp port (1 + k)) else none

/-- The far position of a Type B trunk (R487). -/
def trunk (p : Nat) : Nat := 17 - p

end Sys2Proof.Machine
end

