-- ==== Sys2Proof/Laws/State.lean ====
section
/-! SUPPORT. What each named update of the drive leaves alone, one lemma per part of the drive and update, all true by
unfolding; and what the two ways of lifting a meaning answer. -/

namespace Sys2Proof.Laws

open Sys2Proof.Machine

/-! ### updTask -/

@[simp] theorem updTask_attn (e c : Nat) (f : Task → Task) (d : Dev) : (updTask e c f d).attn = d.attn := rfl
@[simp] theorem updTask_evr (e c : Nat) (f : Task → Task) (d : Dev) : (updTask e c f d).evr = d.evr := rfl
@[simp] theorem updTask_mea (e c : Nat) (f : Task → Task) (d : Dev) : (updTask e c f d).mea = { d.mea with tasks := d.mea.tasks.map (fun t => if t.eng == e && t.ctx == c then f t else t) } := rfl
@[simp] theorem updTask_hqe (e c : Nat) (f : Task → Task) (d : Dev) : (updTask e c f d).hqe = d.hqe := rfl
@[simp] theorem updTask_kdr (e c : Nat) (f : Task → Task) (d : Dev) : (updTask e c f d).kdr = d.kdr := rfl
@[simp] theorem updTask_flt (e c : Nat) (f : Task → Task) (d : Dev) : (updTask e c f d).flt = d.flt := rfl
@[simp] theorem updTask_cal (e c : Nat) (f : Task → Task) (d : Dev) : (updTask e c f d).cal = d.cal := rfl
@[simp] theorem updTask_cch (e c : Nat) (f : Task → Task) (d : Dev) : (updTask e c f d).cch = d.cch := rfl
@[simp] theorem updTask_trl (e c : Nat) (f : Task → Task) (d : Dev) : (updTask e c f d).trl = d.trl := rfl
@[simp] theorem updTask_cpt (e c : Nat) (f : Task → Task) (d : Dev) : (updTask e c f d).cpt = d.cpt := rfl
@[simp] theorem updTask_xpt (e c : Nat) (f : Task → Task) (d : Dev) : (updTask e c f d).xpt = d.xpt := rfl
@[simp] theorem updTask_bgv (e c : Nat) (f : Task → Task) (d : Dev) : (updTask e c f d).bgv = d.bgv := rfl
@[simp] theorem updTask_ccl (e c : Nat) (f : Task → Task) (d : Dev) : (updTask e c f d).ccl = d.ccl := rfl
@[simp] theorem updTask_sec (e c : Nat) (f : Task → Task) (d : Dev) : (updTask e c f d).sec = d.sec := rfl
@[simp] theorem updTask_adm (e c : Nat) (f : Task → Task) (d : Dev) : (updTask e c f d).adm = d.adm := rfl
@[simp] theorem updTask_bld (e c : Nat) (f : Task → Task) (d : Dev) : (updTask e c f d).bld = d.bld := rfl
@[simp] theorem updTask_mg (e c : Nat) (f : Task → Task) (d : Dev) : (updTask e c f d).mg = d.mg := rfl
@[simp] theorem updTask_lastReset (e c : Nat) (f : Task → Task) (d : Dev) : (updTask e c f d).lastReset = d.lastReset := rfl
@[simp] theorem updTask_tickLatch (e c : Nat) (f : Task → Task) (d : Dev) : (updTask e c f d).tickLatch = d.tickLatch := rfl
@[simp] theorem updTask_free (e c : Nat) (f : Task → Task) (d : Dev) : (updTask e c f d).free = d.free := rfl

/-! ### putTask -/

@[simp] theorem putTask_attn (t : Task) (d : Dev) : (putTask t d).attn = d.attn := rfl
@[simp] theorem putTask_evr (t : Task) (d : Dev) : (putTask t d).evr = d.evr := rfl
@[simp] theorem putTask_hqe (t : Task) (d : Dev) : (putTask t d).hqe = d.hqe := rfl
@[simp] theorem putTask_kdr (t : Task) (d : Dev) : (putTask t d).kdr = d.kdr := rfl
@[simp] theorem putTask_flt (t : Task) (d : Dev) : (putTask t d).flt = d.flt := rfl
@[simp] theorem putTask_cal (t : Task) (d : Dev) : (putTask t d).cal = d.cal := rfl
@[simp] theorem putTask_cch (t : Task) (d : Dev) : (putTask t d).cch = d.cch := rfl
@[simp] theorem putTask_trl (t : Task) (d : Dev) : (putTask t d).trl = d.trl := rfl
@[simp] theorem putTask_cpt (t : Task) (d : Dev) : (putTask t d).cpt = d.cpt := rfl
@[simp] theorem putTask_xpt (t : Task) (d : Dev) : (putTask t d).xpt = d.xpt := rfl
@[simp] theorem putTask_bgv (t : Task) (d : Dev) : (putTask t d).bgv = d.bgv := rfl
@[simp] theorem putTask_ccl (t : Task) (d : Dev) : (putTask t d).ccl = d.ccl := rfl
@[simp] theorem putTask_sec (t : Task) (d : Dev) : (putTask t d).sec = d.sec := rfl
@[simp] theorem putTask_adm (t : Task) (d : Dev) : (putTask t d).adm = d.adm := rfl
@[simp] theorem putTask_bld (t : Task) (d : Dev) : (putTask t d).bld = d.bld := rfl
@[simp] theorem putTask_mg (t : Task) (d : Dev) : (putTask t d).mg = d.mg := rfl
@[simp] theorem putTask_lastReset (t : Task) (d : Dev) : (putTask t d).lastReset = d.lastReset := rfl
@[simp] theorem putTask_tickLatch (t : Task) (d : Dev) : (putTask t d).tickLatch = d.tickLatch := rfl
@[simp] theorem putTask_free (t : Task) (d : Dev) : (putTask t d).free = d.free := rfl

/-! ### updArrival -/

@[simp] theorem updArrival_attn (no : Nat) (f : Arrival → Arrival) (d : Dev) : (updArrival no f d).attn = d.attn := rfl
@[simp] theorem updArrival_evr (no : Nat) (f : Arrival → Arrival) (d : Dev) : (updArrival no f d).evr = d.evr := rfl
@[simp] theorem updArrival_hqe (no : Nat) (f : Arrival → Arrival) (d : Dev) : (updArrival no f d).hqe = d.hqe := rfl
@[simp] theorem updArrival_kdr (no : Nat) (f : Arrival → Arrival) (d : Dev) : (updArrival no f d).kdr = d.kdr := rfl
@[simp] theorem updArrival_flt (no : Nat) (f : Arrival → Arrival) (d : Dev) : (updArrival no f d).flt = d.flt := rfl
@[simp] theorem updArrival_cal (no : Nat) (f : Arrival → Arrival) (d : Dev) : (updArrival no f d).cal = d.cal := rfl
@[simp] theorem updArrival_cch (no : Nat) (f : Arrival → Arrival) (d : Dev) : (updArrival no f d).cch = d.cch := rfl
@[simp] theorem updArrival_trl (no : Nat) (f : Arrival → Arrival) (d : Dev) : (updArrival no f d).trl = d.trl := rfl
@[simp] theorem updArrival_cpt (no : Nat) (f : Arrival → Arrival) (d : Dev) : (updArrival no f d).cpt = d.cpt := rfl
@[simp] theorem updArrival_xpt (no : Nat) (f : Arrival → Arrival) (d : Dev) : (updArrival no f d).xpt = d.xpt := rfl
@[simp] theorem updArrival_bgv (no : Nat) (f : Arrival → Arrival) (d : Dev) : (updArrival no f d).bgv = d.bgv := rfl
@[simp] theorem updArrival_ccl (no : Nat) (f : Arrival → Arrival) (d : Dev) : (updArrival no f d).ccl = d.ccl := rfl
@[simp] theorem updArrival_sec (no : Nat) (f : Arrival → Arrival) (d : Dev) : (updArrival no f d).sec = d.sec := rfl
@[simp] theorem updArrival_adm (no : Nat) (f : Arrival → Arrival) (d : Dev) : (updArrival no f d).adm = d.adm := rfl
@[simp] theorem updArrival_bld (no : Nat) (f : Arrival → Arrival) (d : Dev) : (updArrival no f d).bld = d.bld := rfl
@[simp] theorem updArrival_mg (no : Nat) (f : Arrival → Arrival) (d : Dev) : (updArrival no f d).mg = d.mg := rfl
@[simp] theorem updArrival_lastReset (no : Nat) (f : Arrival → Arrival) (d : Dev) : (updArrival no f d).lastReset = d.lastReset := rfl
@[simp] theorem updArrival_tickLatch (no : Nat) (f : Arrival → Arrival) (d : Dev) : (updArrival no f d).tickLatch = d.tickLatch := rfl
@[simp] theorem updArrival_free (no : Nat) (f : Arrival → Arrival) (d : Dev) : (updArrival no f d).free = d.free := rfl

/-! ### updGroup -/

@[simp] theorem updGroup_attn (g : Nat) (f : Group → Group) (d : Dev) : (updGroup g f d).attn = d.attn := rfl
@[simp] theorem updGroup_evr (g : Nat) (f : Group → Group) (d : Dev) : (updGroup g f d).evr = d.evr := rfl
@[simp] theorem updGroup_hqe (g : Nat) (f : Group → Group) (d : Dev) : (updGroup g f d).hqe = d.hqe := rfl
@[simp] theorem updGroup_kdr (g : Nat) (f : Group → Group) (d : Dev) : (updGroup g f d).kdr = d.kdr := rfl
@[simp] theorem updGroup_flt (g : Nat) (f : Group → Group) (d : Dev) : (updGroup g f d).flt = d.flt := rfl
@[simp] theorem updGroup_cal (g : Nat) (f : Group → Group) (d : Dev) : (updGroup g f d).cal = d.cal := rfl
@[simp] theorem updGroup_cch (g : Nat) (f : Group → Group) (d : Dev) : (updGroup g f d).cch = d.cch := rfl
@[simp] theorem updGroup_trl (g : Nat) (f : Group → Group) (d : Dev) : (updGroup g f d).trl = d.trl := rfl
@[simp] theorem updGroup_cpt (g : Nat) (f : Group → Group) (d : Dev) : (updGroup g f d).cpt = d.cpt := rfl
@[simp] theorem updGroup_xpt (g : Nat) (f : Group → Group) (d : Dev) : (updGroup g f d).xpt = d.xpt := rfl
@[simp] theorem updGroup_bgv (g : Nat) (f : Group → Group) (d : Dev) : (updGroup g f d).bgv = d.bgv := rfl
@[simp] theorem updGroup_ccl (g : Nat) (f : Group → Group) (d : Dev) : (updGroup g f d).ccl = d.ccl := rfl
@[simp] theorem updGroup_sec (g : Nat) (f : Group → Group) (d : Dev) : (updGroup g f d).sec = d.sec := rfl
@[simp] theorem updGroup_adm (g : Nat) (f : Group → Group) (d : Dev) : (updGroup g f d).adm = d.adm := rfl
@[simp] theorem updGroup_bld (g : Nat) (f : Group → Group) (d : Dev) : (updGroup g f d).bld = d.bld := rfl
@[simp] theorem updGroup_mg (g : Nat) (f : Group → Group) (d : Dev) : (updGroup g f d).mg = d.mg := rfl
@[simp] theorem updGroup_lastReset (g : Nat) (f : Group → Group) (d : Dev) : (updGroup g f d).lastReset = d.lastReset := rfl
@[simp] theorem updGroup_tickLatch (g : Nat) (f : Group → Group) (d : Dev) : (updGroup g f d).tickLatch = d.tickLatch := rfl
@[simp] theorem updGroup_free (g : Nat) (f : Group → Group) (d : Dev) : (updGroup g f d).free = d.free := rfl

/-! ### updSec -/

@[simp] theorem updSec_attn (f : Sec → Sec) (d : Dev) : (updSec f d).attn = d.attn := rfl
@[simp] theorem updSec_evr (f : Sec → Sec) (d : Dev) : (updSec f d).evr = d.evr := rfl
@[simp] theorem updSec_mea (f : Sec → Sec) (d : Dev) : (updSec f d).mea = d.mea := rfl
@[simp] theorem updSec_hqe (f : Sec → Sec) (d : Dev) : (updSec f d).hqe = d.hqe := rfl
@[simp] theorem updSec_kdr (f : Sec → Sec) (d : Dev) : (updSec f d).kdr = d.kdr := rfl
@[simp] theorem updSec_flt (f : Sec → Sec) (d : Dev) : (updSec f d).flt = d.flt := rfl
@[simp] theorem updSec_cal (f : Sec → Sec) (d : Dev) : (updSec f d).cal = d.cal := rfl
@[simp] theorem updSec_cch (f : Sec → Sec) (d : Dev) : (updSec f d).cch = d.cch := rfl
@[simp] theorem updSec_trl (f : Sec → Sec) (d : Dev) : (updSec f d).trl = d.trl := rfl
@[simp] theorem updSec_cpt (f : Sec → Sec) (d : Dev) : (updSec f d).cpt = d.cpt := rfl
@[simp] theorem updSec_xpt (f : Sec → Sec) (d : Dev) : (updSec f d).xpt = d.xpt := rfl
@[simp] theorem updSec_bgv (f : Sec → Sec) (d : Dev) : (updSec f d).bgv = d.bgv := rfl
@[simp] theorem updSec_ccl (f : Sec → Sec) (d : Dev) : (updSec f d).ccl = d.ccl := rfl
@[simp] theorem updSec_sec (f : Sec → Sec) (d : Dev) : (updSec f d).sec = f d.sec := rfl
@[simp] theorem updSec_adm (f : Sec → Sec) (d : Dev) : (updSec f d).adm = d.adm := rfl
@[simp] theorem updSec_bld (f : Sec → Sec) (d : Dev) : (updSec f d).bld = d.bld := rfl
@[simp] theorem updSec_mg (f : Sec → Sec) (d : Dev) : (updSec f d).mg = d.mg := rfl
@[simp] theorem updSec_lastReset (f : Sec → Sec) (d : Dev) : (updSec f d).lastReset = d.lastReset := rfl
@[simp] theorem updSec_tickLatch (f : Sec → Sec) (d : Dev) : (updSec f d).tickLatch = d.tickLatch := rfl
@[simp] theorem updSec_free (f : Sec → Sec) (d : Dev) : (updSec f d).free = d.free := rfl

/-! ### updCpt -/

@[simp] theorem updCpt_attn (f : Cpt → Cpt) (d : Dev) : (updCpt f d).attn = d.attn := rfl
@[simp] theorem updCpt_evr (f : Cpt → Cpt) (d : Dev) : (updCpt f d).evr = d.evr := rfl
@[simp] theorem updCpt_mea (f : Cpt → Cpt) (d : Dev) : (updCpt f d).mea = d.mea := rfl
@[simp] theorem updCpt_hqe (f : Cpt → Cpt) (d : Dev) : (updCpt f d).hqe = d.hqe := rfl
@[simp] theorem updCpt_kdr (f : Cpt → Cpt) (d : Dev) : (updCpt f d).kdr = d.kdr := rfl
@[simp] theorem updCpt_flt (f : Cpt → Cpt) (d : Dev) : (updCpt f d).flt = d.flt := rfl
@[simp] theorem updCpt_cal (f : Cpt → Cpt) (d : Dev) : (updCpt f d).cal = d.cal := rfl
@[simp] theorem updCpt_cch (f : Cpt → Cpt) (d : Dev) : (updCpt f d).cch = d.cch := rfl
@[simp] theorem updCpt_trl (f : Cpt → Cpt) (d : Dev) : (updCpt f d).trl = d.trl := rfl
@[simp] theorem updCpt_cpt (f : Cpt → Cpt) (d : Dev) : (updCpt f d).cpt = f d.cpt := rfl
@[simp] theorem updCpt_xpt (f : Cpt → Cpt) (d : Dev) : (updCpt f d).xpt = d.xpt := rfl
@[simp] theorem updCpt_bgv (f : Cpt → Cpt) (d : Dev) : (updCpt f d).bgv = d.bgv := rfl
@[simp] theorem updCpt_ccl (f : Cpt → Cpt) (d : Dev) : (updCpt f d).ccl = d.ccl := rfl
@[simp] theorem updCpt_sec (f : Cpt → Cpt) (d : Dev) : (updCpt f d).sec = d.sec := rfl
@[simp] theorem updCpt_adm (f : Cpt → Cpt) (d : Dev) : (updCpt f d).adm = d.adm := rfl
@[simp] theorem updCpt_bld (f : Cpt → Cpt) (d : Dev) : (updCpt f d).bld = d.bld := rfl
@[simp] theorem updCpt_mg (f : Cpt → Cpt) (d : Dev) : (updCpt f d).mg = d.mg := rfl
@[simp] theorem updCpt_lastReset (f : Cpt → Cpt) (d : Dev) : (updCpt f d).lastReset = d.lastReset := rfl
@[simp] theorem updCpt_tickLatch (f : Cpt → Cpt) (d : Dev) : (updCpt f d).tickLatch = d.tickLatch := rfl
@[simp] theorem updCpt_free (f : Cpt → Cpt) (d : Dev) : (updCpt f d).free = d.free := rfl

/-! ### updPort -/

@[simp] theorem updPort_attn (p : Nat) (f : Port → Port) (d : Dev) : (updPort p f d).attn = d.attn := rfl
@[simp] theorem updPort_evr (p : Nat) (f : Port → Port) (d : Dev) : (updPort p f d).evr = d.evr := rfl
@[simp] theorem updPort_mea (p : Nat) (f : Port → Port) (d : Dev) : (updPort p f d).mea = d.mea := rfl
@[simp] theorem updPort_hqe (p : Nat) (f : Port → Port) (d : Dev) : (updPort p f d).hqe = d.hqe := rfl
@[simp] theorem updPort_kdr (p : Nat) (f : Port → Port) (d : Dev) : (updPort p f d).kdr = d.kdr := rfl
@[simp] theorem updPort_flt (p : Nat) (f : Port → Port) (d : Dev) : (updPort p f d).flt = d.flt := rfl
@[simp] theorem updPort_cal (p : Nat) (f : Port → Port) (d : Dev) : (updPort p f d).cal = d.cal := rfl
@[simp] theorem updPort_cch (p : Nat) (f : Port → Port) (d : Dev) : (updPort p f d).cch = d.cch := rfl
@[simp] theorem updPort_trl (p : Nat) (f : Port → Port) (d : Dev) : (updPort p f d).trl = d.trl := rfl
@[simp] theorem updPort_cpt (p : Nat) (f : Port → Port) (d : Dev) : (updPort p f d).cpt = { d.cpt with ports := vupd d.cpt.ports p f } := rfl
@[simp] theorem updPort_xpt (p : Nat) (f : Port → Port) (d : Dev) : (updPort p f d).xpt = d.xpt := rfl
@[simp] theorem updPort_bgv (p : Nat) (f : Port → Port) (d : Dev) : (updPort p f d).bgv = d.bgv := rfl
@[simp] theorem updPort_ccl (p : Nat) (f : Port → Port) (d : Dev) : (updPort p f d).ccl = d.ccl := rfl
@[simp] theorem updPort_sec (p : Nat) (f : Port → Port) (d : Dev) : (updPort p f d).sec = d.sec := rfl
@[simp] theorem updPort_adm (p : Nat) (f : Port → Port) (d : Dev) : (updPort p f d).adm = d.adm := rfl
@[simp] theorem updPort_bld (p : Nat) (f : Port → Port) (d : Dev) : (updPort p f d).bld = d.bld := rfl
@[simp] theorem updPort_mg (p : Nat) (f : Port → Port) (d : Dev) : (updPort p f d).mg = d.mg := rfl
@[simp] theorem updPort_lastReset (p : Nat) (f : Port → Port) (d : Dev) : (updPort p f d).lastReset = d.lastReset := rfl
@[simp] theorem updPort_tickLatch (p : Nat) (f : Port → Port) (d : Dev) : (updPort p f d).tickLatch = d.tickLatch := rfl
@[simp] theorem updPort_free (p : Nat) (f : Port → Port) (d : Dev) : (updPort p f d).free = d.free := rfl

/-! ### updBld -/

@[simp] theorem updBld_attn (f : Bld → Bld) (d : Dev) : (updBld f d).attn = d.attn := rfl
@[simp] theorem updBld_evr (f : Bld → Bld) (d : Dev) : (updBld f d).evr = d.evr := rfl
@[simp] theorem updBld_mea (f : Bld → Bld) (d : Dev) : (updBld f d).mea = d.mea := rfl
@[simp] theorem updBld_hqe (f : Bld → Bld) (d : Dev) : (updBld f d).hqe = d.hqe := rfl
@[simp] theorem updBld_kdr (f : Bld → Bld) (d : Dev) : (updBld f d).kdr = d.kdr := rfl
@[simp] theorem updBld_flt (f : Bld → Bld) (d : Dev) : (updBld f d).flt = d.flt := rfl
@[simp] theorem updBld_cal (f : Bld → Bld) (d : Dev) : (updBld f d).cal = d.cal := rfl
@[simp] theorem updBld_cch (f : Bld → Bld) (d : Dev) : (updBld f d).cch = d.cch := rfl
@[simp] theorem updBld_trl (f : Bld → Bld) (d : Dev) : (updBld f d).trl = d.trl := rfl
@[simp] theorem updBld_cpt (f : Bld → Bld) (d : Dev) : (updBld f d).cpt = d.cpt := rfl
@[simp] theorem updBld_xpt (f : Bld → Bld) (d : Dev) : (updBld f d).xpt = d.xpt := rfl
@[simp] theorem updBld_bgv (f : Bld → Bld) (d : Dev) : (updBld f d).bgv = d.bgv := rfl
@[simp] theorem updBld_ccl (f : Bld → Bld) (d : Dev) : (updBld f d).ccl = d.ccl := rfl
@[simp] theorem updBld_sec (f : Bld → Bld) (d : Dev) : (updBld f d).sec = d.sec := rfl
@[simp] theorem updBld_adm (f : Bld → Bld) (d : Dev) : (updBld f d).adm = d.adm := rfl
@[simp] theorem updBld_bld (f : Bld → Bld) (d : Dev) : (updBld f d).bld = f d.bld := rfl
@[simp] theorem updBld_mg (f : Bld → Bld) (d : Dev) : (updBld f d).mg = d.mg := rfl
@[simp] theorem updBld_lastReset (f : Bld → Bld) (d : Dev) : (updBld f d).lastReset = d.lastReset := rfl
@[simp] theorem updBld_tickLatch (f : Bld → Bld) (d : Dev) : (updBld f d).tickLatch = d.tickLatch := rfl
@[simp] theorem updBld_free (f : Bld → Bld) (d : Dev) : (updBld f d).free = d.free := rfl

/-! ### updMg -/

@[simp] theorem updMg_attn (p : Nat) (f : MgPort → MgPort) (d : Dev) : (updMg p f d).attn = d.attn := rfl
@[simp] theorem updMg_evr (p : Nat) (f : MgPort → MgPort) (d : Dev) : (updMg p f d).evr = d.evr := rfl
@[simp] theorem updMg_mea (p : Nat) (f : MgPort → MgPort) (d : Dev) : (updMg p f d).mea = d.mea := rfl
@[simp] theorem updMg_hqe (p : Nat) (f : MgPort → MgPort) (d : Dev) : (updMg p f d).hqe = d.hqe := rfl
@[simp] theorem updMg_kdr (p : Nat) (f : MgPort → MgPort) (d : Dev) : (updMg p f d).kdr = d.kdr := rfl
@[simp] theorem updMg_flt (p : Nat) (f : MgPort → MgPort) (d : Dev) : (updMg p f d).flt = d.flt := rfl
@[simp] theorem updMg_cal (p : Nat) (f : MgPort → MgPort) (d : Dev) : (updMg p f d).cal = d.cal := rfl
@[simp] theorem updMg_cch (p : Nat) (f : MgPort → MgPort) (d : Dev) : (updMg p f d).cch = d.cch := rfl
@[simp] theorem updMg_trl (p : Nat) (f : MgPort → MgPort) (d : Dev) : (updMg p f d).trl = d.trl := rfl
@[simp] theorem updMg_cpt (p : Nat) (f : MgPort → MgPort) (d : Dev) : (updMg p f d).cpt = d.cpt := rfl
@[simp] theorem updMg_xpt (p : Nat) (f : MgPort → MgPort) (d : Dev) : (updMg p f d).xpt = d.xpt := rfl
@[simp] theorem updMg_bgv (p : Nat) (f : MgPort → MgPort) (d : Dev) : (updMg p f d).bgv = d.bgv := rfl
@[simp] theorem updMg_ccl (p : Nat) (f : MgPort → MgPort) (d : Dev) : (updMg p f d).ccl = d.ccl := rfl
@[simp] theorem updMg_sec (p : Nat) (f : MgPort → MgPort) (d : Dev) : (updMg p f d).sec = d.sec := rfl
@[simp] theorem updMg_adm (p : Nat) (f : MgPort → MgPort) (d : Dev) : (updMg p f d).adm = d.adm := rfl
@[simp] theorem updMg_bld (p : Nat) (f : MgPort → MgPort) (d : Dev) : (updMg p f d).bld = d.bld := rfl
@[simp] theorem updMg_mg (p : Nat) (f : MgPort → MgPort) (d : Dev) : (updMg p f d).mg = vupd d.mg p f := rfl
@[simp] theorem updMg_lastReset (p : Nat) (f : MgPort → MgPort) (d : Dev) : (updMg p f d).lastReset = d.lastReset := rfl
@[simp] theorem updMg_tickLatch (p : Nat) (f : MgPort → MgPort) (d : Dev) : (updMg p f d).tickLatch = d.tickLatch := rfl
@[simp] theorem updMg_free (p : Nat) (f : MgPort → MgPort) (d : Dev) : (updMg p f d).free = d.free := rfl

/-! ### updTg -/

@[simp] theorem updTg_attn (g : Nat) (f : TGroup → TGroup) (d : Dev) : (updTg g f d).attn = d.attn := rfl
@[simp] theorem updTg_evr (g : Nat) (f : TGroup → TGroup) (d : Dev) : (updTg g f d).evr = d.evr := rfl
@[simp] theorem updTg_mea (g : Nat) (f : TGroup → TGroup) (d : Dev) : (updTg g f d).mea = d.mea := rfl
@[simp] theorem updTg_hqe (g : Nat) (f : TGroup → TGroup) (d : Dev) : (updTg g f d).hqe = d.hqe := rfl
@[simp] theorem updTg_kdr (g : Nat) (f : TGroup → TGroup) (d : Dev) : (updTg g f d).kdr = d.kdr := rfl
@[simp] theorem updTg_flt (g : Nat) (f : TGroup → TGroup) (d : Dev) : (updTg g f d).flt = d.flt := rfl
@[simp] theorem updTg_cal (g : Nat) (f : TGroup → TGroup) (d : Dev) : (updTg g f d).cal = d.cal := rfl
@[simp] theorem updTg_cch (g : Nat) (f : TGroup → TGroup) (d : Dev) : (updTg g f d).cch = d.cch := rfl
@[simp] theorem updTg_trl (g : Nat) (f : TGroup → TGroup) (d : Dev) : (updTg g f d).trl = d.trl := rfl
@[simp] theorem updTg_cpt (g : Nat) (f : TGroup → TGroup) (d : Dev) : (updTg g f d).cpt = d.cpt := rfl
@[simp] theorem updTg_xpt (g : Nat) (f : TGroup → TGroup) (d : Dev) : (updTg g f d).xpt = d.xpt := rfl
@[simp] theorem updTg_ccl (g : Nat) (f : TGroup → TGroup) (d : Dev) : (updTg g f d).ccl = d.ccl := rfl
@[simp] theorem updTg_sec (g : Nat) (f : TGroup → TGroup) (d : Dev) : (updTg g f d).sec = d.sec := rfl
@[simp] theorem updTg_adm (g : Nat) (f : TGroup → TGroup) (d : Dev) : (updTg g f d).adm = d.adm := rfl
@[simp] theorem updTg_bld (g : Nat) (f : TGroup → TGroup) (d : Dev) : (updTg g f d).bld = d.bld := rfl
@[simp] theorem updTg_mg (g : Nat) (f : TGroup → TGroup) (d : Dev) : (updTg g f d).mg = d.mg := rfl
@[simp] theorem updTg_lastReset (g : Nat) (f : TGroup → TGroup) (d : Dev) : (updTg g f d).lastReset = d.lastReset := rfl
@[simp] theorem updTg_tickLatch (g : Nat) (f : TGroup → TGroup) (d : Dev) : (updTg g f d).tickLatch = d.tickLatch := rfl
@[simp] theorem updTg_free (g : Nat) (f : TGroup → TGroup) (d : Dev) : (updTg g f d).free = d.free := rfl

/-! ### updWc -/

@[simp] theorem updWc_attn (c : Nat) (f : Wc → Wc) (d : Dev) : (updWc c f d).attn = d.attn := rfl
@[simp] theorem updWc_evr (c : Nat) (f : Wc → Wc) (d : Dev) : (updWc c f d).evr = d.evr := rfl
@[simp] theorem updWc_mea (c : Nat) (f : Wc → Wc) (d : Dev) : (updWc c f d).mea = d.mea := rfl
@[simp] theorem updWc_hqe (c : Nat) (f : Wc → Wc) (d : Dev) : (updWc c f d).hqe = d.hqe := rfl
@[simp] theorem updWc_kdr (c : Nat) (f : Wc → Wc) (d : Dev) : (updWc c f d).kdr = d.kdr := rfl
@[simp] theorem updWc_flt (c : Nat) (f : Wc → Wc) (d : Dev) : (updWc c f d).flt = d.flt := rfl
@[simp] theorem updWc_cal (c : Nat) (f : Wc → Wc) (d : Dev) : (updWc c f d).cal = d.cal := rfl
@[simp] theorem updWc_cch (c : Nat) (f : Wc → Wc) (d : Dev) : (updWc c f d).cch = d.cch := rfl
@[simp] theorem updWc_trl (c : Nat) (f : Wc → Wc) (d : Dev) : (updWc c f d).trl = d.trl := rfl
@[simp] theorem updWc_cpt (c : Nat) (f : Wc → Wc) (d : Dev) : (updWc c f d).cpt = d.cpt := rfl
@[simp] theorem updWc_xpt (c : Nat) (f : Wc → Wc) (d : Dev) : (updWc c f d).xpt = d.xpt := rfl
@[simp] theorem updWc_ccl (c : Nat) (f : Wc → Wc) (d : Dev) : (updWc c f d).ccl = d.ccl := rfl
@[simp] theorem updWc_sec (c : Nat) (f : Wc → Wc) (d : Dev) : (updWc c f d).sec = d.sec := rfl
@[simp] theorem updWc_adm (c : Nat) (f : Wc → Wc) (d : Dev) : (updWc c f d).adm = d.adm := rfl
@[simp] theorem updWc_bld (c : Nat) (f : Wc → Wc) (d : Dev) : (updWc c f d).bld = d.bld := rfl
@[simp] theorem updWc_mg (c : Nat) (f : Wc → Wc) (d : Dev) : (updWc c f d).mg = d.mg := rfl
@[simp] theorem updWc_lastReset (c : Nat) (f : Wc → Wc) (d : Dev) : (updWc c f d).lastReset = d.lastReset := rfl
@[simp] theorem updWc_tickLatch (c : Nat) (f : Wc → Wc) (d : Dev) : (updWc c f d).tickLatch = d.tickLatch := rfl
@[simp] theorem updWc_free (c : Nat) (f : Wc → Wc) (d : Dev) : (updWc c f d).free = d.free := rfl

/-! ### updChan -/

@[simp] theorem updChan_attn (c : Nat) (f : Chan → Chan) (d : Dev) : (updChan c f d).attn = d.attn := rfl
@[simp] theorem updChan_evr (c : Nat) (f : Chan → Chan) (d : Dev) : (updChan c f d).evr = d.evr := rfl
@[simp] theorem updChan_mea (c : Nat) (f : Chan → Chan) (d : Dev) : (updChan c f d).mea = d.mea := rfl
@[simp] theorem updChan_hqe (c : Nat) (f : Chan → Chan) (d : Dev) : (updChan c f d).hqe = d.hqe := rfl
@[simp] theorem updChan_kdr (c : Nat) (f : Chan → Chan) (d : Dev) : (updChan c f d).kdr = d.kdr := rfl
@[simp] theorem updChan_flt (c : Nat) (f : Chan → Chan) (d : Dev) : (updChan c f d).flt = d.flt := rfl
@[simp] theorem updChan_cal (c : Nat) (f : Chan → Chan) (d : Dev) : (updChan c f d).cal = d.cal := rfl
@[simp] theorem updChan_trl (c : Nat) (f : Chan → Chan) (d : Dev) : (updChan c f d).trl = d.trl := rfl
@[simp] theorem updChan_cpt (c : Nat) (f : Chan → Chan) (d : Dev) : (updChan c f d).cpt = d.cpt := rfl
@[simp] theorem updChan_xpt (c : Nat) (f : Chan → Chan) (d : Dev) : (updChan c f d).xpt = d.xpt := rfl
@[simp] theorem updChan_bgv (c : Nat) (f : Chan → Chan) (d : Dev) : (updChan c f d).bgv = d.bgv := rfl
@[simp] theorem updChan_ccl (c : Nat) (f : Chan → Chan) (d : Dev) : (updChan c f d).ccl = d.ccl := rfl
@[simp] theorem updChan_sec (c : Nat) (f : Chan → Chan) (d : Dev) : (updChan c f d).sec = d.sec := rfl
@[simp] theorem updChan_adm (c : Nat) (f : Chan → Chan) (d : Dev) : (updChan c f d).adm = d.adm := rfl
@[simp] theorem updChan_bld (c : Nat) (f : Chan → Chan) (d : Dev) : (updChan c f d).bld = d.bld := rfl
@[simp] theorem updChan_mg (c : Nat) (f : Chan → Chan) (d : Dev) : (updChan c f d).mg = d.mg := rfl
@[simp] theorem updChan_lastReset (c : Nat) (f : Chan → Chan) (d : Dev) : (updChan c f d).lastReset = d.lastReset := rfl
@[simp] theorem updChan_tickLatch (c : Nat) (f : Chan → Chan) (d : Dev) : (updChan c f d).tickLatch = d.tickLatch := rfl
@[simp] theorem updChan_free (c : Nat) (f : Chan → Chan) (d : Dev) : (updChan c f d).free = d.free := rfl

/-! ### updKs -/

@[simp] theorem updKs_attn (k : Nat) (f : Keyspace → Keyspace) (d : Dev) : (updKs k f d).attn = d.attn := rfl
@[simp] theorem updKs_evr (k : Nat) (f : Keyspace → Keyspace) (d : Dev) : (updKs k f d).evr = d.evr := rfl
@[simp] theorem updKs_mea (k : Nat) (f : Keyspace → Keyspace) (d : Dev) : (updKs k f d).mea = d.mea := rfl
@[simp] theorem updKs_hqe (k : Nat) (f : Keyspace → Keyspace) (d : Dev) : (updKs k f d).hqe = d.hqe := rfl
@[simp] theorem updKs_flt (k : Nat) (f : Keyspace → Keyspace) (d : Dev) : (updKs k f d).flt = d.flt := rfl
@[simp] theorem updKs_cal (k : Nat) (f : Keyspace → Keyspace) (d : Dev) : (updKs k f d).cal = d.cal := rfl
@[simp] theorem updKs_cch (k : Nat) (f : Keyspace → Keyspace) (d : Dev) : (updKs k f d).cch = d.cch := rfl
@[simp] theorem updKs_trl (k : Nat) (f : Keyspace → Keyspace) (d : Dev) : (updKs k f d).trl = d.trl := rfl
@[simp] theorem updKs_cpt (k : Nat) (f : Keyspace → Keyspace) (d : Dev) : (updKs k f d).cpt = d.cpt := rfl
@[simp] theorem updKs_xpt (k : Nat) (f : Keyspace → Keyspace) (d : Dev) : (updKs k f d).xpt = d.xpt := rfl
@[simp] theorem updKs_bgv (k : Nat) (f : Keyspace → Keyspace) (d : Dev) : (updKs k f d).bgv = d.bgv := rfl
@[simp] theorem updKs_ccl (k : Nat) (f : Keyspace → Keyspace) (d : Dev) : (updKs k f d).ccl = d.ccl := rfl
@[simp] theorem updKs_sec (k : Nat) (f : Keyspace → Keyspace) (d : Dev) : (updKs k f d).sec = d.sec := rfl
@[simp] theorem updKs_adm (k : Nat) (f : Keyspace → Keyspace) (d : Dev) : (updKs k f d).adm = d.adm := rfl
@[simp] theorem updKs_bld (k : Nat) (f : Keyspace → Keyspace) (d : Dev) : (updKs k f d).bld = d.bld := rfl
@[simp] theorem updKs_mg (k : Nat) (f : Keyspace → Keyspace) (d : Dev) : (updKs k f d).mg = d.mg := rfl
@[simp] theorem updKs_lastReset (k : Nat) (f : Keyspace → Keyspace) (d : Dev) : (updKs k f d).lastReset = d.lastReset := rfl
@[simp] theorem updKs_tickLatch (k : Nat) (f : Keyspace → Keyspace) (d : Dev) : (updKs k f d).tickLatch = d.tickLatch := rfl
@[simp] theorem updKs_free (k : Nat) (f : Keyspace → Keyspace) (d : Dev) : (updKs k f d).free = d.free := rfl

/-! ### updBlock -/

@[simp] theorem updBlock_attn (k : Nat) (f : Block → Block) (d : Dev) : (updBlock k f d).attn = d.attn := rfl
@[simp] theorem updBlock_evr (k : Nat) (f : Block → Block) (d : Dev) : (updBlock k f d).evr = d.evr := rfl
@[simp] theorem updBlock_mea (k : Nat) (f : Block → Block) (d : Dev) : (updBlock k f d).mea = d.mea := rfl
@[simp] theorem updBlock_hqe (k : Nat) (f : Block → Block) (d : Dev) : (updBlock k f d).hqe = d.hqe := rfl
@[simp] theorem updBlock_kdr (k : Nat) (f : Block → Block) (d : Dev) : (updBlock k f d).kdr = d.kdr := rfl
@[simp] theorem updBlock_flt (k : Nat) (f : Block → Block) (d : Dev) : (updBlock k f d).flt = d.flt := rfl
@[simp] theorem updBlock_cal (k : Nat) (f : Block → Block) (d : Dev) : (updBlock k f d).cal = d.cal := rfl
@[simp] theorem updBlock_cch (k : Nat) (f : Block → Block) (d : Dev) : (updBlock k f d).cch = d.cch := rfl
@[simp] theorem updBlock_cpt (k : Nat) (f : Block → Block) (d : Dev) : (updBlock k f d).cpt = d.cpt := rfl
@[simp] theorem updBlock_xpt (k : Nat) (f : Block → Block) (d : Dev) : (updBlock k f d).xpt = d.xpt := rfl
@[simp] theorem updBlock_bgv (k : Nat) (f : Block → Block) (d : Dev) : (updBlock k f d).bgv = d.bgv := rfl
@[simp] theorem updBlock_ccl (k : Nat) (f : Block → Block) (d : Dev) : (updBlock k f d).ccl = d.ccl := rfl
@[simp] theorem updBlock_sec (k : Nat) (f : Block → Block) (d : Dev) : (updBlock k f d).sec = d.sec := rfl
@[simp] theorem updBlock_adm (k : Nat) (f : Block → Block) (d : Dev) : (updBlock k f d).adm = d.adm := rfl
@[simp] theorem updBlock_bld (k : Nat) (f : Block → Block) (d : Dev) : (updBlock k f d).bld = d.bld := rfl
@[simp] theorem updBlock_mg (k : Nat) (f : Block → Block) (d : Dev) : (updBlock k f d).mg = d.mg := rfl
@[simp] theorem updBlock_lastReset (k : Nat) (f : Block → Block) (d : Dev) : (updBlock k f d).lastReset = d.lastReset := rfl
@[simp] theorem updBlock_tickLatch (k : Nat) (f : Block → Block) (d : Dev) : (updBlock k f d).tickLatch = d.tickLatch := rfl
@[simp] theorem updBlock_free (k : Nat) (f : Block → Block) (d : Dev) : (updBlock k f d).free = d.free := rfl

/-! ### addJournal -/

@[simp] theorem addJournal_attn (y : JType) (a b c : Nat) (d : Dev) : (addJournal y a b c d).attn = d.attn := rfl
@[simp] theorem addJournal_evr (y : JType) (a b c : Nat) (d : Dev) : (addJournal y a b c d).evr = d.evr := rfl
@[simp] theorem addJournal_mea (y : JType) (a b c : Nat) (d : Dev) : (addJournal y a b c d).mea = d.mea := rfl
@[simp] theorem addJournal_hqe (y : JType) (a b c : Nat) (d : Dev) : (addJournal y a b c d).hqe = d.hqe := rfl
@[simp] theorem addJournal_kdr (y : JType) (a b c : Nat) (d : Dev) : (addJournal y a b c d).kdr = d.kdr := rfl
@[simp] theorem addJournal_flt (y : JType) (a b c : Nat) (d : Dev) : (addJournal y a b c d).flt = d.flt := rfl
@[simp] theorem addJournal_cal (y : JType) (a b c : Nat) (d : Dev) : (addJournal y a b c d).cal = d.cal := rfl
@[simp] theorem addJournal_cch (y : JType) (a b c : Nat) (d : Dev) : (addJournal y a b c d).cch = d.cch := rfl
@[simp] theorem addJournal_cpt (y : JType) (a b c : Nat) (d : Dev) : (addJournal y a b c d).cpt = d.cpt := rfl
@[simp] theorem addJournal_xpt (y : JType) (a b c : Nat) (d : Dev) : (addJournal y a b c d).xpt = d.xpt := rfl
@[simp] theorem addJournal_bgv (y : JType) (a b c : Nat) (d : Dev) : (addJournal y a b c d).bgv = d.bgv := rfl
@[simp] theorem addJournal_ccl (y : JType) (a b c : Nat) (d : Dev) : (addJournal y a b c d).ccl = d.ccl := rfl
@[simp] theorem addJournal_sec (y : JType) (a b c : Nat) (d : Dev) : (addJournal y a b c d).sec = d.sec := rfl
@[simp] theorem addJournal_adm (y : JType) (a b c : Nat) (d : Dev) : (addJournal y a b c d).adm = d.adm := rfl
@[simp] theorem addJournal_bld (y : JType) (a b c : Nat) (d : Dev) : (addJournal y a b c d).bld = d.bld := rfl
@[simp] theorem addJournal_mg (y : JType) (a b c : Nat) (d : Dev) : (addJournal y a b c d).mg = d.mg := rfl
@[simp] theorem addJournal_lastReset (y : JType) (a b c : Nat) (d : Dev) : (addJournal y a b c d).lastReset = d.lastReset := rfl
@[simp] theorem addJournal_tickLatch (y : JType) (a b c : Nat) (d : Dev) : (addJournal y a b c d).tickLatch = d.tickLatch := rfl
@[simp] theorem addJournal_free (y : JType) (a b c : Nat) (d : Dev) : (addJournal y a b c d).free = d.free := rfl

/-! ### Tasks -/

@[simp] theorem next_pc (t : Task) : t.next.pc = t.pc + 4 := rfl
@[simp] theorem next_s (t : Task) : t.next.s = t.s := rfl
@[simp] theorem next_v (t : Task) : t.next.v = t.v := rfl
@[simp] theorem next_p (t : Task) : t.next.p = t.p := rfl
@[simp] theorem next_frame (t : Task) : t.next.frame = t.frame := rfl
@[simp] theorem next_posts (t : Task) : t.next.posts = t.posts := rfl
@[simp] theorem setV_s (t : Task) (n : BitVec 5) (x : V512) : (t.setV n x).s = t.s := rfl
@[simp] theorem setV_p (t : Task) (n : BitVec 5) (x : V512) : (t.setV n x).p = t.p := rfl
@[simp] theorem setV_pc (t : Task) (n : BitVec 5) (x : V512) : (t.setV n x).pc = t.pc := rfl
@[simp] theorem setV_frame (t : Task) (n : BitVec 5) (x : V512) : (t.setV n x).frame = t.frame := rfl
@[simp] theorem setV_posts (t : Task) (n : BitVec 5) (x : V512) : (t.setV n x).posts = t.posts := rfl

/-- A write to s0 is discarded. -/
@[simp] theorem setS_zero (t : Task) (x : Word) : t.setS 0 x = t := rfl

/-- s0 reads as zero. -/
@[simp] theorem sreg_zero (t : Task) : t.sreg 0 = 0 := rfl

/-- A write to p0 is discarded. -/
@[simp] theorem setP_zero (t : Task) (x : Word) : t.setP 0 x = t := rfl

/-- p0 reads as all ones. -/
@[simp] theorem preg_zero (t : Task) : t.preg 0 = BitVec.allOnes 64 := rfl

theorem setS_v (t : Task) (n : BitVec 5) (x : Word) : (t.setS n x).v = t.v := by unfold Task.setS; split <;> rfl
theorem setS_p (t : Task) (n : BitVec 5) (x : Word) : (t.setS n x).p = t.p := by unfold Task.setS; split <;> rfl
theorem setS_pc (t : Task) (n : BitVec 5) (x : Word) : (t.setS n x).pc = t.pc := by unfold Task.setS; split <;> rfl
theorem setS_frame (t : Task) (n : BitVec 5) (x : Word) : (t.setS n x).frame = t.frame := by
  unfold Task.setS; split <;> rfl
theorem setS_posts (t : Task) (n : BitVec 5) (x : Word) : (t.setS n x).posts = t.posts := by
  unfold Task.setS; split <;> rfl

/-- A scalar register read back after its write. -/
theorem sreg_setS (t : Task) (n : BitVec 5) (x : Word) (h : n ≠ 0) : (t.setS n x).sreg n = x := by
  have hn : n.toNat < 32 := n.isLt
  unfold Task.setS Task.sreg
  rw [if_neg h, if_neg h]
  simp [vget, vset, hn]

/-- A write of one scalar register leaves the others. -/
theorem sreg_setS_ne (t : Task) (n m : BitVec 5) (x : Word) (h : m ≠ n) : (t.setS n x).sreg m = t.sreg m := by
  have hm : m.toNat < 32 := m.isLt
  have hk : n.toNat ≠ m.toNat := fun e => h (BitVec.eq_of_toNat_eq e.symm)
  unfold Task.setS Task.sreg
  by_cases h0 : n = 0
  · rw [if_pos h0]
  · rw [if_neg h0]
    simp [vget, vset, hm, hk]

/-! ### Lifting -/

theorem onDev_next (s : State) (f : Env → Dev → Dev) : onDev s f = .next { s with dev := f s.env s.dev } := rfl

theorem onEnv_next (s : State) (f : Env → Dev → Env × Dev) :
    onEnv s f = .next { s with env := (f s.env s.dev).1, dev := (f s.env s.dev).2 } := rfl

/-- A meaning over the drive alone leaves the time base, the power state and the queue. -/
theorem onDev_keeps (s t : State) (f : Env → Dev → Dev) (h : onDev s f = .next t) :
    t.env = s.env ∧ t.pending = s.pending := by
  rw [onDev_next] at h; injection h with h; subst h; exact ⟨rfl, rfl⟩

/-- A meaning that may change the power state leaves the queue. -/
theorem onEnv_keeps (s t : State) (f : Env → Dev → Env × Dev) (h : onEnv s f = .next t) :
    t.pending = s.pending ∧ t.env = (f s.env s.dev).1 := by
  rw [onEnv_next] at h; injection h with h; subst h; exact ⟨rfl, rfl⟩

end Sys2Proof.Laws
end

