-- ==== Sys2Proof/Laws/Report.lean ====
section
/-! SUPPORT. What a report may change: raising a cause, signalling an interrupt and entering a record touch the attention
tree, the recorder, the interrupts sent, held and pending, and the ATTN each flow is owed; nothing else. -/

namespace Sys2Proof.Laws

open Sys2Proof.Machine

/-- The drive with the parts a report may change replaced. -/
def withReports (a : Attn) (e : Evr) (p m : List Nat) (i : List Irq) (f : Tbl Flow) (d : Dev) : Dev :=
  { d with attn := a, evr := e, hqe := { d.hqe with pba := p, heldMsi := m, irqs := i }, xpt := { d.xpt with flows := f } }

/-- `d'` is `d` after reports: only attention, recorder, interrupts and the flows' ATTN may differ. -/
def Reports (d d' : Dev) : Prop := ∃ a e p m i f, d' = withReports a e p m i f d

theorem Reports.refl (d : Dev) : Reports d d := ⟨d.attn, d.evr, d.hqe.pba, d.hqe.heldMsi, d.hqe.irqs, d.xpt.flows, rfl⟩

theorem Reports.trans {a b c : Dev} (h : Reports a b) (k : Reports b c) : Reports a c := by
  obtain ⟨_, _, _, _, _, _, rfl⟩ := h
  obtain ⟨x, y, z, w, u, v, rfl⟩ := k
  exact ⟨x, y, z, w, u, v, rfl⟩

theorem reports_attn (d : Dev) (a : Attn) : Reports d { d with attn := a } :=
  ⟨a, d.evr, d.hqe.pba, d.hqe.heldMsi, d.hqe.irqs, d.xpt.flows, rfl⟩

theorem reports_evr (d : Dev) (e : Evr) : Reports d { d with evr := e } :=
  ⟨d.attn, e, d.hqe.pba, d.hqe.heldMsi, d.hqe.irqs, d.xpt.flows, rfl⟩

theorem reports_pba (d : Dev) (p : List Nat) : Reports d { d with hqe := { d.hqe with pba := p } } :=
  ⟨d.attn, d.evr, p, d.hqe.heldMsi, d.hqe.irqs, d.xpt.flows, rfl⟩

theorem reports_irqs (d : Dev) (i : List Irq) : Reports d { d with hqe := { d.hqe with irqs := i } } :=
  ⟨d.attn, d.evr, d.hqe.pba, d.hqe.heldMsi, i, d.xpt.flows, rfl⟩

theorem reports_heldMsi (d : Dev) (m : List Nat) : Reports d { d with hqe := { d.hqe with heldMsi := m } } :=
  ⟨d.attn, d.evr, d.hqe.pba, m, d.hqe.irqs, d.xpt.flows, rfl⟩

theorem sendMsi_reports (v : Nat) (d : Dev) : Reports d (sendMsi v d) := by
  unfold sendMsi; dsimp only; split
  · split
    · exact reports_pba _ _
    · split
      · exact reports_heldMsi _ _
      · exact reports_irqs _ _
  · exact Reports.refl d

theorem markFlows_reports (d : Dev) : Reports d (markFlows d) :=
  ⟨d.attn, d.evr, d.hqe.pba, d.hqe.heldMsi, d.hqe.irqs, _, rfl⟩

theorem attnRaise_reports (env : Env) (d : Dev) : Reports d (attnRaise env d) := by
  unfold attnRaise; split
  · exact Reports.refl d
  · split
    · split
      · exact reports_attn _ _
      · exact (reports_attn _ _).trans (sendMsi_reports _ _)
    · exact (reports_attn _ _).trans (sendMsi_reports _ _)

theorem attnEdit_reports (env : Env) (f : Attn → Attn) (d : Dev) : Reports d (attnEdit env f d) := by
  unfold attnEdit; dsimp only
  split <;> split
  · exact reports_attn _ _
  · exact (reports_attn _ _).trans (attnRaise_reports _ _)
  · exact (reports_attn _ _).trans (markFlows_reports _)
  · exact (reports_attn _ _).trans ((markFlows_reports _).trans (attnRaise_reports _ _))

theorem setCause_reports (env : Env) (n : Nat) (bits : W32) (d : Dev) : Reports d (setCause env n bits d) :=
  attnEdit_reports env _ d

theorem clearCause_reports (env : Env) (n : Nat) (bits : W32) (d : Dev) : Reports d (clearCause env n bits d) :=
  attnEdit_reports env _ d

theorem highSev_reports (env : Env) (sev : Nat) (d : Dev) : Reports d (highSev env sev d) := by
  unfold highSev; split
  · exact setCause_reports _ _ _ _
  · exact Reports.refl d

theorem enterOnce_reports (env : Env) (b : Bool) (r : Rec) (d : Dev) : Reports d (enterOnce env b r d).1 := by
  unfold enterOnce; dsimp only
  split
  · exact (reports_evr _ _).trans (setCause_reports _ _ _ _)
  · exact (reports_evr _ _).trans (highSev_reports _ _ _)

theorem enterRec_reports (env : Env) (b : Bool) (r : Rec) (d : Dev) : Reports d (enterRec env b r d).1 := by
  have h := enterOnce_reports env b r d
  unfold enterRec
  generalize enterOnce env b r d = x at h ⊢
  dsimp only
  split
  · split
    · exact h.trans (reports_evr _ _)
    · exact h.trans ((reports_evr _ _).trans ((reports_evr _ _).trans
        ((setCause_reports _ _ _ _).trans (enterOnce_reports _ _ _ _))))
  · exact h

theorem closeWindow_reports (env : Env) (code : BitVec 16) (w : RateWin) (d : Dev) :
    Reports d (closeWindow env code w d) := by
  unfold closeWindow; dsimp only; split
  · exact reports_evr _ _
  · exact (reports_evr _ _).trans ((reports_evr _ _).trans (enterRec_reports _ _ _ _))

theorem rateGate_reports (env : Env) (r : Rec) (d : Dev) : Reports d (rateGate env r d).1 := by
  unfold rateGate; split
  · exact reports_evr _ _
  · split
    · exact (closeWindow_reports _ _ _ _).trans (reports_evr _ _)
    · split
      · exact reports_evr _ _
      · exact reports_evr _ _

theorem repeatOrEnter_reports (env : Env) (r : Rec) (d : Dev) : Reports d (repeatOrEnter env r d).1 := by
  unfold repeatOrEnter; split
  · split
    · exact reports_evr _ _
    · exact enterRec_reports _ _ _ _
  · exact enterRec_reports _ _ _ _

theorem request_reports (env : Env) (r : Rec) (d : Dev) : Reports d (request env r d).1 := by
  unfold request; dsimp only; split
  · split
    · exact (rateGate_reports _ _ _).trans (repeatOrEnter_reports _ _ _)
    · exact rateGate_reports _ _ _
  · exact repeatOrEnter_reports _ _ _

theorem event_reports (env : Env) (code : BitVec 16) (sev cls src p0 p1 p2 : Nat) (d : Dev) :
    Reports d (event env code sev cls src p0 p1 p2 d) := request_reports _ _ _

theorem setFatal_reports (env : Env) (bit code : Nat) (d : Dev) : Reports d (setFatal env bit code d) := by
  unfold setFatal; dsimp only
  split
  · exact (reports_attn _ _).trans (setCause_reports _ _ _ _)
  · exact ((reports_attn _ _).trans (setCause_reports _ _ _ _)).trans (event_reports _ _ _ _ _ _ _ _ _)

/-! ### Fields a report leaves -/

theorem Reports.keeps_mea {d d' : Dev} (h : Reports d d') : d'.mea = d.mea := by
  obtain ⟨_, _, _, _, _, _, rfl⟩ := h; rfl
theorem Reports.keeps_kdr {d d' : Dev} (h : Reports d d') : d'.kdr = d.kdr := by
  obtain ⟨_, _, _, _, _, _, rfl⟩ := h; rfl
theorem Reports.keeps_flt {d d' : Dev} (h : Reports d d') : d'.flt = d.flt := by
  obtain ⟨_, _, _, _, _, _, rfl⟩ := h; rfl
theorem Reports.keeps_cal {d d' : Dev} (h : Reports d d') : d'.cal = d.cal := by
  obtain ⟨_, _, _, _, _, _, rfl⟩ := h; rfl
theorem Reports.keeps_cch {d d' : Dev} (h : Reports d d') : d'.cch = d.cch := by
  obtain ⟨_, _, _, _, _, _, rfl⟩ := h; rfl
theorem Reports.keeps_trl {d d' : Dev} (h : Reports d d') : d'.trl = d.trl := by
  obtain ⟨_, _, _, _, _, _, rfl⟩ := h; rfl
theorem Reports.keeps_cpt {d d' : Dev} (h : Reports d d') : d'.cpt = d.cpt := by
  obtain ⟨_, _, _, _, _, _, rfl⟩ := h; rfl
theorem Reports.keeps_bgv {d d' : Dev} (h : Reports d d') : d'.bgv = d.bgv := by
  obtain ⟨_, _, _, _, _, _, rfl⟩ := h; rfl
theorem Reports.keeps_ccl {d d' : Dev} (h : Reports d d') : d'.ccl = d.ccl := by
  obtain ⟨_, _, _, _, _, _, rfl⟩ := h; rfl
theorem Reports.keeps_sec {d d' : Dev} (h : Reports d d') : d'.sec = d.sec := by
  obtain ⟨_, _, _, _, _, _, rfl⟩ := h; rfl
theorem Reports.keeps_adm {d d' : Dev} (h : Reports d d') : d'.adm = d.adm := by
  obtain ⟨_, _, _, _, _, _, rfl⟩ := h; rfl
theorem Reports.keeps_bld {d d' : Dev} (h : Reports d d') : d'.bld = d.bld := by
  obtain ⟨_, _, _, _, _, _, rfl⟩ := h; rfl
theorem Reports.keeps_mg {d d' : Dev} (h : Reports d d') : d'.mg = d.mg := by
  obtain ⟨_, _, _, _, _, _, rfl⟩ := h; rfl
theorem Reports.keeps_lastReset {d d' : Dev} (h : Reports d d') : d'.lastReset = d.lastReset := by
  obtain ⟨_, _, _, _, _, _, rfl⟩ := h; rfl
theorem Reports.keeps_tickLatch {d d' : Dev} (h : Reports d d') : d'.tickLatch = d.tickLatch := by
  obtain ⟨_, _, _, _, _, _, rfl⟩ := h; rfl
theorem Reports.keeps_free {d d' : Dev} (h : Reports d d') : d'.free = d.free := by
  obtain ⟨_, _, _, _, _, _, rfl⟩ := h; rfl
theorem Reports.keeps_hqe_pairs {d d' : Dev} (h : Reports d d') : d'.hqe.pairs = d.hqe.pairs := by
  obtain ⟨_, _, _, _, _, _, rfl⟩ := h; rfl
theorem Reports.keeps_hqe_lease {d d' : Dev} (h : Reports d d') : d'.hqe.lease = d.hqe.lease := by
  obtain ⟨_, _, _, _, _, _, rfl⟩ := h; rfl
theorem Reports.keeps_hqe_enable {d d' : Dev} (h : Reports d d') : d'.hqe.enable = d.hqe.enable := by
  obtain ⟨_, _, _, _, _, _, rfl⟩ := h; rfl
theorem Reports.keeps_hqe_ready {d d' : Dev} (h : Reports d d') : d'.hqe.ready = d.hqe.ready := by
  obtain ⟨_, _, _, _, _, _, rfl⟩ := h; rfl
theorem Reports.keeps_hqe_fetchPaused {d d' : Dev} (h : Reports d d') : d'.hqe.fetchPaused = d.hqe.fetchPaused := by
  obtain ⟨_, _, _, _, _, _, rfl⟩ := h; rfl
theorem Reports.keeps_hqe_hmem {d d' : Dev} (h : Reports d d') : d'.hqe.hmem = d.hqe.hmem := by
  obtain ⟨_, _, _, _, _, _, rfl⟩ := h; rfl
theorem Reports.keeps_hqe_hostGen {d d' : Dev} (h : Reports d d') : d'.hqe.hostGen = d.hqe.hostGen := by
  obtain ⟨_, _, _, _, _, _, rfl⟩ := h; rfl
theorem Reports.keeps_hqe_busMaster {d d' : Dev} (h : Reports d d') : d'.hqe.busMaster = d.hqe.busMaster := by
  obtain ⟨_, _, _, _, _, _, rfl⟩ := h; rfl
theorem Reports.keeps_hqe_heldCqes {d d' : Dev} (h : Reports d d') : d'.hqe.heldCqes = d.hqe.heldCqes := by
  obtain ⟨_, _, _, _, _, _, rfl⟩ := h; rfl
theorem Reports.keeps_hqe_resetBusy {d d' : Dev} (h : Reports d d') : d'.hqe.resetBusy = d.hqe.resetBusy := by
  obtain ⟨_, _, _, _, _, _, rfl⟩ := h; rfl
theorem Reports.keeps_hqe_shutdown {d d' : Dev} (h : Reports d d') : d'.hqe.shutdown = d.hqe.shutdown := by
  obtain ⟨_, _, _, _, _, _, rfl⟩ := h; rfl
theorem Reports.keeps_hqe_perst {d d' : Dev} (h : Reports d d') : d'.hqe.perst = d.hqe.perst := by
  obtain ⟨_, _, _, _, _, _, rfl⟩ := h; rfl
theorem Reports.keeps_hqe_deferred {d d' : Dev} (h : Reports d d') : d'.hqe.deferred = d.hqe.deferred := by
  obtain ⟨_, _, _, _, _, _, rfl⟩ := h; rfl
theorem Reports.keeps_xpt_freeBuf {d d' : Dev} (h : Reports d d') : d'.xpt.freeBuf = d.xpt.freeBuf := by
  obtain ⟨_, _, _, _, _, _, rfl⟩ := h; rfl
theorem Reports.keeps_xpt_creditHeld {d d' : Dev} (h : Reports d d') : d'.xpt.creditHeld = d.xpt.creditHeld := by
  obtain ⟨_, _, _, _, _, _, rfl⟩ := h; rfl
theorem Reports.keeps_xpt_rx {d d' : Dev} (h : Reports d d') : d'.xpt.rx = d.xpt.rx := by
  obtain ⟨_, _, _, _, _, _, rfl⟩ := h; rfl
theorem Reports.keeps_xpt_counts {d d' : Dev} (h : Reports d d') : d'.xpt.counts = d.xpt.counts := by
  obtain ⟨_, _, _, _, _, _, rfl⟩ := h; rfl
theorem Reports.keeps_xpt_ctrl {d d' : Dev} (h : Reports d d') : d'.xpt.ctrl = d.xpt.ctrl := by
  obtain ⟨_, _, _, _, _, _, rfl⟩ := h; rfl
theorem Reports.keeps_xpt_lost {d d' : Dev} (h : Reports d d') : d'.xpt.lost = d.xpt.lost := by
  obtain ⟨_, _, _, _, _, _, rfl⟩ := h; rfl

/-! ### setCause -/

@[simp] theorem setCause_mea (env : Env) (n : Nat) (bits : W32) (d : Dev) : (setCause env n bits d).mea = d.mea :=
  (setCause_reports env n bits d).keeps_mea
@[simp] theorem setCause_kdr (env : Env) (n : Nat) (bits : W32) (d : Dev) : (setCause env n bits d).kdr = d.kdr :=
  (setCause_reports env n bits d).keeps_kdr
@[simp] theorem setCause_flt (env : Env) (n : Nat) (bits : W32) (d : Dev) : (setCause env n bits d).flt = d.flt :=
  (setCause_reports env n bits d).keeps_flt
@[simp] theorem setCause_cal (env : Env) (n : Nat) (bits : W32) (d : Dev) : (setCause env n bits d).cal = d.cal :=
  (setCause_reports env n bits d).keeps_cal
@[simp] theorem setCause_cch (env : Env) (n : Nat) (bits : W32) (d : Dev) : (setCause env n bits d).cch = d.cch :=
  (setCause_reports env n bits d).keeps_cch
@[simp] theorem setCause_trl (env : Env) (n : Nat) (bits : W32) (d : Dev) : (setCause env n bits d).trl = d.trl :=
  (setCause_reports env n bits d).keeps_trl
@[simp] theorem setCause_cpt (env : Env) (n : Nat) (bits : W32) (d : Dev) : (setCause env n bits d).cpt = d.cpt :=
  (setCause_reports env n bits d).keeps_cpt
@[simp] theorem setCause_bgv (env : Env) (n : Nat) (bits : W32) (d : Dev) : (setCause env n bits d).bgv = d.bgv :=
  (setCause_reports env n bits d).keeps_bgv
@[simp] theorem setCause_ccl (env : Env) (n : Nat) (bits : W32) (d : Dev) : (setCause env n bits d).ccl = d.ccl :=
  (setCause_reports env n bits d).keeps_ccl
@[simp] theorem setCause_sec (env : Env) (n : Nat) (bits : W32) (d : Dev) : (setCause env n bits d).sec = d.sec :=
  (setCause_reports env n bits d).keeps_sec
@[simp] theorem setCause_adm (env : Env) (n : Nat) (bits : W32) (d : Dev) : (setCause env n bits d).adm = d.adm :=
  (setCause_reports env n bits d).keeps_adm
@[simp] theorem setCause_bld (env : Env) (n : Nat) (bits : W32) (d : Dev) : (setCause env n bits d).bld = d.bld :=
  (setCause_reports env n bits d).keeps_bld
@[simp] theorem setCause_mg (env : Env) (n : Nat) (bits : W32) (d : Dev) : (setCause env n bits d).mg = d.mg :=
  (setCause_reports env n bits d).keeps_mg
@[simp] theorem setCause_lastReset (env : Env) (n : Nat) (bits : W32) (d : Dev) : (setCause env n bits d).lastReset = d.lastReset :=
  (setCause_reports env n bits d).keeps_lastReset
@[simp] theorem setCause_tickLatch (env : Env) (n : Nat) (bits : W32) (d : Dev) : (setCause env n bits d).tickLatch = d.tickLatch :=
  (setCause_reports env n bits d).keeps_tickLatch
@[simp] theorem setCause_free (env : Env) (n : Nat) (bits : W32) (d : Dev) : (setCause env n bits d).free = d.free :=
  (setCause_reports env n bits d).keeps_free
@[simp] theorem setCause_hqe_pairs (env : Env) (n : Nat) (bits : W32) (d : Dev) : (setCause env n bits d).hqe.pairs = d.hqe.pairs :=
  (setCause_reports env n bits d).keeps_hqe_pairs
@[simp] theorem setCause_hqe_lease (env : Env) (n : Nat) (bits : W32) (d : Dev) : (setCause env n bits d).hqe.lease = d.hqe.lease :=
  (setCause_reports env n bits d).keeps_hqe_lease
@[simp] theorem setCause_hqe_enable (env : Env) (n : Nat) (bits : W32) (d : Dev) : (setCause env n bits d).hqe.enable = d.hqe.enable :=
  (setCause_reports env n bits d).keeps_hqe_enable
@[simp] theorem setCause_hqe_ready (env : Env) (n : Nat) (bits : W32) (d : Dev) : (setCause env n bits d).hqe.ready = d.hqe.ready :=
  (setCause_reports env n bits d).keeps_hqe_ready
@[simp] theorem setCause_hqe_fetchPaused (env : Env) (n : Nat) (bits : W32) (d : Dev) : (setCause env n bits d).hqe.fetchPaused = d.hqe.fetchPaused :=
  (setCause_reports env n bits d).keeps_hqe_fetchPaused
@[simp] theorem setCause_hqe_hmem (env : Env) (n : Nat) (bits : W32) (d : Dev) : (setCause env n bits d).hqe.hmem = d.hqe.hmem :=
  (setCause_reports env n bits d).keeps_hqe_hmem
@[simp] theorem setCause_hqe_hostGen (env : Env) (n : Nat) (bits : W32) (d : Dev) : (setCause env n bits d).hqe.hostGen = d.hqe.hostGen :=
  (setCause_reports env n bits d).keeps_hqe_hostGen
@[simp] theorem setCause_hqe_busMaster (env : Env) (n : Nat) (bits : W32) (d : Dev) : (setCause env n bits d).hqe.busMaster = d.hqe.busMaster :=
  (setCause_reports env n bits d).keeps_hqe_busMaster
@[simp] theorem setCause_hqe_heldCqes (env : Env) (n : Nat) (bits : W32) (d : Dev) : (setCause env n bits d).hqe.heldCqes = d.hqe.heldCqes :=
  (setCause_reports env n bits d).keeps_hqe_heldCqes
@[simp] theorem setCause_hqe_resetBusy (env : Env) (n : Nat) (bits : W32) (d : Dev) : (setCause env n bits d).hqe.resetBusy = d.hqe.resetBusy :=
  (setCause_reports env n bits d).keeps_hqe_resetBusy
@[simp] theorem setCause_hqe_shutdown (env : Env) (n : Nat) (bits : W32) (d : Dev) : (setCause env n bits d).hqe.shutdown = d.hqe.shutdown :=
  (setCause_reports env n bits d).keeps_hqe_shutdown
@[simp] theorem setCause_hqe_perst (env : Env) (n : Nat) (bits : W32) (d : Dev) : (setCause env n bits d).hqe.perst = d.hqe.perst :=
  (setCause_reports env n bits d).keeps_hqe_perst
@[simp] theorem setCause_hqe_deferred (env : Env) (n : Nat) (bits : W32) (d : Dev) : (setCause env n bits d).hqe.deferred = d.hqe.deferred :=
  (setCause_reports env n bits d).keeps_hqe_deferred
@[simp] theorem setCause_xpt_freeBuf (env : Env) (n : Nat) (bits : W32) (d : Dev) : (setCause env n bits d).xpt.freeBuf = d.xpt.freeBuf :=
  (setCause_reports env n bits d).keeps_xpt_freeBuf
@[simp] theorem setCause_xpt_creditHeld (env : Env) (n : Nat) (bits : W32) (d : Dev) : (setCause env n bits d).xpt.creditHeld = d.xpt.creditHeld :=
  (setCause_reports env n bits d).keeps_xpt_creditHeld
@[simp] theorem setCause_xpt_rx (env : Env) (n : Nat) (bits : W32) (d : Dev) : (setCause env n bits d).xpt.rx = d.xpt.rx :=
  (setCause_reports env n bits d).keeps_xpt_rx
@[simp] theorem setCause_xpt_counts (env : Env) (n : Nat) (bits : W32) (d : Dev) : (setCause env n bits d).xpt.counts = d.xpt.counts :=
  (setCause_reports env n bits d).keeps_xpt_counts
@[simp] theorem setCause_xpt_ctrl (env : Env) (n : Nat) (bits : W32) (d : Dev) : (setCause env n bits d).xpt.ctrl = d.xpt.ctrl :=
  (setCause_reports env n bits d).keeps_xpt_ctrl
@[simp] theorem setCause_xpt_lost (env : Env) (n : Nat) (bits : W32) (d : Dev) : (setCause env n bits d).xpt.lost = d.xpt.lost :=
  (setCause_reports env n bits d).keeps_xpt_lost

/-! ### event -/

@[simp] theorem event_mea (env : Env) (code : BitVec 16) (sev cls src p0 p1 p2 : Nat) (d : Dev) : (event env code sev cls src p0 p1 p2 d).mea = d.mea :=
  (event_reports env code sev cls src p0 p1 p2 d).keeps_mea
@[simp] theorem event_kdr (env : Env) (code : BitVec 16) (sev cls src p0 p1 p2 : Nat) (d : Dev) : (event env code sev cls src p0 p1 p2 d).kdr = d.kdr :=
  (event_reports env code sev cls src p0 p1 p2 d).keeps_kdr
@[simp] theorem event_flt (env : Env) (code : BitVec 16) (sev cls src p0 p1 p2 : Nat) (d : Dev) : (event env code sev cls src p0 p1 p2 d).flt = d.flt :=
  (event_reports env code sev cls src p0 p1 p2 d).keeps_flt
@[simp] theorem event_cal (env : Env) (code : BitVec 16) (sev cls src p0 p1 p2 : Nat) (d : Dev) : (event env code sev cls src p0 p1 p2 d).cal = d.cal :=
  (event_reports env code sev cls src p0 p1 p2 d).keeps_cal
@[simp] theorem event_cch (env : Env) (code : BitVec 16) (sev cls src p0 p1 p2 : Nat) (d : Dev) : (event env code sev cls src p0 p1 p2 d).cch = d.cch :=
  (event_reports env code sev cls src p0 p1 p2 d).keeps_cch
@[simp] theorem event_trl (env : Env) (code : BitVec 16) (sev cls src p0 p1 p2 : Nat) (d : Dev) : (event env code sev cls src p0 p1 p2 d).trl = d.trl :=
  (event_reports env code sev cls src p0 p1 p2 d).keeps_trl
@[simp] theorem event_cpt (env : Env) (code : BitVec 16) (sev cls src p0 p1 p2 : Nat) (d : Dev) : (event env code sev cls src p0 p1 p2 d).cpt = d.cpt :=
  (event_reports env code sev cls src p0 p1 p2 d).keeps_cpt
@[simp] theorem event_bgv (env : Env) (code : BitVec 16) (sev cls src p0 p1 p2 : Nat) (d : Dev) : (event env code sev cls src p0 p1 p2 d).bgv = d.bgv :=
  (event_reports env code sev cls src p0 p1 p2 d).keeps_bgv
@[simp] theorem event_ccl (env : Env) (code : BitVec 16) (sev cls src p0 p1 p2 : Nat) (d : Dev) : (event env code sev cls src p0 p1 p2 d).ccl = d.ccl :=
  (event_reports env code sev cls src p0 p1 p2 d).keeps_ccl
@[simp] theorem event_sec (env : Env) (code : BitVec 16) (sev cls src p0 p1 p2 : Nat) (d : Dev) : (event env code sev cls src p0 p1 p2 d).sec = d.sec :=
  (event_reports env code sev cls src p0 p1 p2 d).keeps_sec
@[simp] theorem event_adm (env : Env) (code : BitVec 16) (sev cls src p0 p1 p2 : Nat) (d : Dev) : (event env code sev cls src p0 p1 p2 d).adm = d.adm :=
  (event_reports env code sev cls src p0 p1 p2 d).keeps_adm
@[simp] theorem event_bld (env : Env) (code : BitVec 16) (sev cls src p0 p1 p2 : Nat) (d : Dev) : (event env code sev cls src p0 p1 p2 d).bld = d.bld :=
  (event_reports env code sev cls src p0 p1 p2 d).keeps_bld
@[simp] theorem event_mg (env : Env) (code : BitVec 16) (sev cls src p0 p1 p2 : Nat) (d : Dev) : (event env code sev cls src p0 p1 p2 d).mg = d.mg :=
  (event_reports env code sev cls src p0 p1 p2 d).keeps_mg
@[simp] theorem event_lastReset (env : Env) (code : BitVec 16) (sev cls src p0 p1 p2 : Nat) (d : Dev) : (event env code sev cls src p0 p1 p2 d).lastReset = d.lastReset :=
  (event_reports env code sev cls src p0 p1 p2 d).keeps_lastReset
@[simp] theorem event_tickLatch (env : Env) (code : BitVec 16) (sev cls src p0 p1 p2 : Nat) (d : Dev) : (event env code sev cls src p0 p1 p2 d).tickLatch = d.tickLatch :=
  (event_reports env code sev cls src p0 p1 p2 d).keeps_tickLatch
@[simp] theorem event_free (env : Env) (code : BitVec 16) (sev cls src p0 p1 p2 : Nat) (d : Dev) : (event env code sev cls src p0 p1 p2 d).free = d.free :=
  (event_reports env code sev cls src p0 p1 p2 d).keeps_free
@[simp] theorem event_hqe_pairs (env : Env) (code : BitVec 16) (sev cls src p0 p1 p2 : Nat) (d : Dev) : (event env code sev cls src p0 p1 p2 d).hqe.pairs = d.hqe.pairs :=
  (event_reports env code sev cls src p0 p1 p2 d).keeps_hqe_pairs
@[simp] theorem event_hqe_lease (env : Env) (code : BitVec 16) (sev cls src p0 p1 p2 : Nat) (d : Dev) : (event env code sev cls src p0 p1 p2 d).hqe.lease = d.hqe.lease :=
  (event_reports env code sev cls src p0 p1 p2 d).keeps_hqe_lease
@[simp] theorem event_hqe_enable (env : Env) (code : BitVec 16) (sev cls src p0 p1 p2 : Nat) (d : Dev) : (event env code sev cls src p0 p1 p2 d).hqe.enable = d.hqe.enable :=
  (event_reports env code sev cls src p0 p1 p2 d).keeps_hqe_enable
@[simp] theorem event_hqe_ready (env : Env) (code : BitVec 16) (sev cls src p0 p1 p2 : Nat) (d : Dev) : (event env code sev cls src p0 p1 p2 d).hqe.ready = d.hqe.ready :=
  (event_reports env code sev cls src p0 p1 p2 d).keeps_hqe_ready
@[simp] theorem event_hqe_fetchPaused (env : Env) (code : BitVec 16) (sev cls src p0 p1 p2 : Nat) (d : Dev) : (event env code sev cls src p0 p1 p2 d).hqe.fetchPaused = d.hqe.fetchPaused :=
  (event_reports env code sev cls src p0 p1 p2 d).keeps_hqe_fetchPaused
@[simp] theorem event_hqe_hmem (env : Env) (code : BitVec 16) (sev cls src p0 p1 p2 : Nat) (d : Dev) : (event env code sev cls src p0 p1 p2 d).hqe.hmem = d.hqe.hmem :=
  (event_reports env code sev cls src p0 p1 p2 d).keeps_hqe_hmem
@[simp] theorem event_hqe_hostGen (env : Env) (code : BitVec 16) (sev cls src p0 p1 p2 : Nat) (d : Dev) : (event env code sev cls src p0 p1 p2 d).hqe.hostGen = d.hqe.hostGen :=
  (event_reports env code sev cls src p0 p1 p2 d).keeps_hqe_hostGen
@[simp] theorem event_hqe_busMaster (env : Env) (code : BitVec 16) (sev cls src p0 p1 p2 : Nat) (d : Dev) : (event env code sev cls src p0 p1 p2 d).hqe.busMaster = d.hqe.busMaster :=
  (event_reports env code sev cls src p0 p1 p2 d).keeps_hqe_busMaster
@[simp] theorem event_hqe_heldCqes (env : Env) (code : BitVec 16) (sev cls src p0 p1 p2 : Nat) (d : Dev) : (event env code sev cls src p0 p1 p2 d).hqe.heldCqes = d.hqe.heldCqes :=
  (event_reports env code sev cls src p0 p1 p2 d).keeps_hqe_heldCqes
@[simp] theorem event_hqe_resetBusy (env : Env) (code : BitVec 16) (sev cls src p0 p1 p2 : Nat) (d : Dev) : (event env code sev cls src p0 p1 p2 d).hqe.resetBusy = d.hqe.resetBusy :=
  (event_reports env code sev cls src p0 p1 p2 d).keeps_hqe_resetBusy
@[simp] theorem event_hqe_shutdown (env : Env) (code : BitVec 16) (sev cls src p0 p1 p2 : Nat) (d : Dev) : (event env code sev cls src p0 p1 p2 d).hqe.shutdown = d.hqe.shutdown :=
  (event_reports env code sev cls src p0 p1 p2 d).keeps_hqe_shutdown
@[simp] theorem event_hqe_perst (env : Env) (code : BitVec 16) (sev cls src p0 p1 p2 : Nat) (d : Dev) : (event env code sev cls src p0 p1 p2 d).hqe.perst = d.hqe.perst :=
  (event_reports env code sev cls src p0 p1 p2 d).keeps_hqe_perst
@[simp] theorem event_hqe_deferred (env : Env) (code : BitVec 16) (sev cls src p0 p1 p2 : Nat) (d : Dev) : (event env code sev cls src p0 p1 p2 d).hqe.deferred = d.hqe.deferred :=
  (event_reports env code sev cls src p0 p1 p2 d).keeps_hqe_deferred
@[simp] theorem event_xpt_freeBuf (env : Env) (code : BitVec 16) (sev cls src p0 p1 p2 : Nat) (d : Dev) : (event env code sev cls src p0 p1 p2 d).xpt.freeBuf = d.xpt.freeBuf :=
  (event_reports env code sev cls src p0 p1 p2 d).keeps_xpt_freeBuf
@[simp] theorem event_xpt_creditHeld (env : Env) (code : BitVec 16) (sev cls src p0 p1 p2 : Nat) (d : Dev) : (event env code sev cls src p0 p1 p2 d).xpt.creditHeld = d.xpt.creditHeld :=
  (event_reports env code sev cls src p0 p1 p2 d).keeps_xpt_creditHeld
@[simp] theorem event_xpt_rx (env : Env) (code : BitVec 16) (sev cls src p0 p1 p2 : Nat) (d : Dev) : (event env code sev cls src p0 p1 p2 d).xpt.rx = d.xpt.rx :=
  (event_reports env code sev cls src p0 p1 p2 d).keeps_xpt_rx
@[simp] theorem event_xpt_counts (env : Env) (code : BitVec 16) (sev cls src p0 p1 p2 : Nat) (d : Dev) : (event env code sev cls src p0 p1 p2 d).xpt.counts = d.xpt.counts :=
  (event_reports env code sev cls src p0 p1 p2 d).keeps_xpt_counts
@[simp] theorem event_xpt_ctrl (env : Env) (code : BitVec 16) (sev cls src p0 p1 p2 : Nat) (d : Dev) : (event env code sev cls src p0 p1 p2 d).xpt.ctrl = d.xpt.ctrl :=
  (event_reports env code sev cls src p0 p1 p2 d).keeps_xpt_ctrl
@[simp] theorem event_xpt_lost (env : Env) (code : BitVec 16) (sev cls src p0 p1 p2 : Nat) (d : Dev) : (event env code sev cls src p0 p1 p2 d).xpt.lost = d.xpt.lost :=
  (event_reports env code sev cls src p0 p1 p2 d).keeps_xpt_lost

/-! ### setFatal -/

@[simp] theorem setFatal_mea (env : Env) (bit code : Nat) (d : Dev) : (setFatal env bit code d).mea = d.mea :=
  (setFatal_reports env bit code d).keeps_mea
@[simp] theorem setFatal_kdr (env : Env) (bit code : Nat) (d : Dev) : (setFatal env bit code d).kdr = d.kdr :=
  (setFatal_reports env bit code d).keeps_kdr
@[simp] theorem setFatal_flt (env : Env) (bit code : Nat) (d : Dev) : (setFatal env bit code d).flt = d.flt :=
  (setFatal_reports env bit code d).keeps_flt
@[simp] theorem setFatal_cal (env : Env) (bit code : Nat) (d : Dev) : (setFatal env bit code d).cal = d.cal :=
  (setFatal_reports env bit code d).keeps_cal
@[simp] theorem setFatal_cch (env : Env) (bit code : Nat) (d : Dev) : (setFatal env bit code d).cch = d.cch :=
  (setFatal_reports env bit code d).keeps_cch
@[simp] theorem setFatal_trl (env : Env) (bit code : Nat) (d : Dev) : (setFatal env bit code d).trl = d.trl :=
  (setFatal_reports env bit code d).keeps_trl
@[simp] theorem setFatal_cpt (env : Env) (bit code : Nat) (d : Dev) : (setFatal env bit code d).cpt = d.cpt :=
  (setFatal_reports env bit code d).keeps_cpt
@[simp] theorem setFatal_bgv (env : Env) (bit code : Nat) (d : Dev) : (setFatal env bit code d).bgv = d.bgv :=
  (setFatal_reports env bit code d).keeps_bgv
@[simp] theorem setFatal_ccl (env : Env) (bit code : Nat) (d : Dev) : (setFatal env bit code d).ccl = d.ccl :=
  (setFatal_reports env bit code d).keeps_ccl
@[simp] theorem setFatal_sec (env : Env) (bit code : Nat) (d : Dev) : (setFatal env bit code d).sec = d.sec :=
  (setFatal_reports env bit code d).keeps_sec
@[simp] theorem setFatal_adm (env : Env) (bit code : Nat) (d : Dev) : (setFatal env bit code d).adm = d.adm :=
  (setFatal_reports env bit code d).keeps_adm
@[simp] theorem setFatal_bld (env : Env) (bit code : Nat) (d : Dev) : (setFatal env bit code d).bld = d.bld :=
  (setFatal_reports env bit code d).keeps_bld
@[simp] theorem setFatal_mg (env : Env) (bit code : Nat) (d : Dev) : (setFatal env bit code d).mg = d.mg :=
  (setFatal_reports env bit code d).keeps_mg
@[simp] theorem setFatal_lastReset (env : Env) (bit code : Nat) (d : Dev) : (setFatal env bit code d).lastReset = d.lastReset :=
  (setFatal_reports env bit code d).keeps_lastReset
@[simp] theorem setFatal_tickLatch (env : Env) (bit code : Nat) (d : Dev) : (setFatal env bit code d).tickLatch = d.tickLatch :=
  (setFatal_reports env bit code d).keeps_tickLatch
@[simp] theorem setFatal_free (env : Env) (bit code : Nat) (d : Dev) : (setFatal env bit code d).free = d.free :=
  (setFatal_reports env bit code d).keeps_free
@[simp] theorem setFatal_hqe_pairs (env : Env) (bit code : Nat) (d : Dev) : (setFatal env bit code d).hqe.pairs = d.hqe.pairs :=
  (setFatal_reports env bit code d).keeps_hqe_pairs
@[simp] theorem setFatal_hqe_lease (env : Env) (bit code : Nat) (d : Dev) : (setFatal env bit code d).hqe.lease = d.hqe.lease :=
  (setFatal_reports env bit code d).keeps_hqe_lease
@[simp] theorem setFatal_hqe_enable (env : Env) (bit code : Nat) (d : Dev) : (setFatal env bit code d).hqe.enable = d.hqe.enable :=
  (setFatal_reports env bit code d).keeps_hqe_enable
@[simp] theorem setFatal_hqe_ready (env : Env) (bit code : Nat) (d : Dev) : (setFatal env bit code d).hqe.ready = d.hqe.ready :=
  (setFatal_reports env bit code d).keeps_hqe_ready
@[simp] theorem setFatal_hqe_fetchPaused (env : Env) (bit code : Nat) (d : Dev) : (setFatal env bit code d).hqe.fetchPaused = d.hqe.fetchPaused :=
  (setFatal_reports env bit code d).keeps_hqe_fetchPaused
@[simp] theorem setFatal_hqe_hmem (env : Env) (bit code : Nat) (d : Dev) : (setFatal env bit code d).hqe.hmem = d.hqe.hmem :=
  (setFatal_reports env bit code d).keeps_hqe_hmem
@[simp] theorem setFatal_hqe_hostGen (env : Env) (bit code : Nat) (d : Dev) : (setFatal env bit code d).hqe.hostGen = d.hqe.hostGen :=
  (setFatal_reports env bit code d).keeps_hqe_hostGen
@[simp] theorem setFatal_hqe_busMaster (env : Env) (bit code : Nat) (d : Dev) : (setFatal env bit code d).hqe.busMaster = d.hqe.busMaster :=
  (setFatal_reports env bit code d).keeps_hqe_busMaster
@[simp] theorem setFatal_hqe_heldCqes (env : Env) (bit code : Nat) (d : Dev) : (setFatal env bit code d).hqe.heldCqes = d.hqe.heldCqes :=
  (setFatal_reports env bit code d).keeps_hqe_heldCqes
@[simp] theorem setFatal_hqe_resetBusy (env : Env) (bit code : Nat) (d : Dev) : (setFatal env bit code d).hqe.resetBusy = d.hqe.resetBusy :=
  (setFatal_reports env bit code d).keeps_hqe_resetBusy
@[simp] theorem setFatal_hqe_shutdown (env : Env) (bit code : Nat) (d : Dev) : (setFatal env bit code d).hqe.shutdown = d.hqe.shutdown :=
  (setFatal_reports env bit code d).keeps_hqe_shutdown
@[simp] theorem setFatal_hqe_perst (env : Env) (bit code : Nat) (d : Dev) : (setFatal env bit code d).hqe.perst = d.hqe.perst :=
  (setFatal_reports env bit code d).keeps_hqe_perst
@[simp] theorem setFatal_hqe_deferred (env : Env) (bit code : Nat) (d : Dev) : (setFatal env bit code d).hqe.deferred = d.hqe.deferred :=
  (setFatal_reports env bit code d).keeps_hqe_deferred
@[simp] theorem setFatal_xpt_freeBuf (env : Env) (bit code : Nat) (d : Dev) : (setFatal env bit code d).xpt.freeBuf = d.xpt.freeBuf :=
  (setFatal_reports env bit code d).keeps_xpt_freeBuf
@[simp] theorem setFatal_xpt_creditHeld (env : Env) (bit code : Nat) (d : Dev) : (setFatal env bit code d).xpt.creditHeld = d.xpt.creditHeld :=
  (setFatal_reports env bit code d).keeps_xpt_creditHeld
@[simp] theorem setFatal_xpt_rx (env : Env) (bit code : Nat) (d : Dev) : (setFatal env bit code d).xpt.rx = d.xpt.rx :=
  (setFatal_reports env bit code d).keeps_xpt_rx
@[simp] theorem setFatal_xpt_counts (env : Env) (bit code : Nat) (d : Dev) : (setFatal env bit code d).xpt.counts = d.xpt.counts :=
  (setFatal_reports env bit code d).keeps_xpt_counts
@[simp] theorem setFatal_xpt_ctrl (env : Env) (bit code : Nat) (d : Dev) : (setFatal env bit code d).xpt.ctrl = d.xpt.ctrl :=
  (setFatal_reports env bit code d).keeps_xpt_ctrl
@[simp] theorem setFatal_xpt_lost (env : Env) (bit code : Nat) (d : Dev) : (setFatal env bit code d).xpt.lost = d.xpt.lost :=
  (setFatal_reports env bit code d).keeps_xpt_lost

/-! ### sendMsi -/

@[simp] theorem sendMsi_mea (v : Nat) (d : Dev) : (sendMsi v d).mea = d.mea :=
  (sendMsi_reports v d).keeps_mea
@[simp] theorem sendMsi_kdr (v : Nat) (d : Dev) : (sendMsi v d).kdr = d.kdr :=
  (sendMsi_reports v d).keeps_kdr
@[simp] theorem sendMsi_flt (v : Nat) (d : Dev) : (sendMsi v d).flt = d.flt :=
  (sendMsi_reports v d).keeps_flt
@[simp] theorem sendMsi_cal (v : Nat) (d : Dev) : (sendMsi v d).cal = d.cal :=
  (sendMsi_reports v d).keeps_cal
@[simp] theorem sendMsi_cch (v : Nat) (d : Dev) : (sendMsi v d).cch = d.cch :=
  (sendMsi_reports v d).keeps_cch
@[simp] theorem sendMsi_trl (v : Nat) (d : Dev) : (sendMsi v d).trl = d.trl :=
  (sendMsi_reports v d).keeps_trl
@[simp] theorem sendMsi_cpt (v : Nat) (d : Dev) : (sendMsi v d).cpt = d.cpt :=
  (sendMsi_reports v d).keeps_cpt
@[simp] theorem sendMsi_bgv (v : Nat) (d : Dev) : (sendMsi v d).bgv = d.bgv :=
  (sendMsi_reports v d).keeps_bgv
@[simp] theorem sendMsi_ccl (v : Nat) (d : Dev) : (sendMsi v d).ccl = d.ccl :=
  (sendMsi_reports v d).keeps_ccl
@[simp] theorem sendMsi_sec (v : Nat) (d : Dev) : (sendMsi v d).sec = d.sec :=
  (sendMsi_reports v d).keeps_sec
@[simp] theorem sendMsi_adm (v : Nat) (d : Dev) : (sendMsi v d).adm = d.adm :=
  (sendMsi_reports v d).keeps_adm
@[simp] theorem sendMsi_bld (v : Nat) (d : Dev) : (sendMsi v d).bld = d.bld :=
  (sendMsi_reports v d).keeps_bld
@[simp] theorem sendMsi_mg (v : Nat) (d : Dev) : (sendMsi v d).mg = d.mg :=
  (sendMsi_reports v d).keeps_mg
@[simp] theorem sendMsi_lastReset (v : Nat) (d : Dev) : (sendMsi v d).lastReset = d.lastReset :=
  (sendMsi_reports v d).keeps_lastReset
@[simp] theorem sendMsi_tickLatch (v : Nat) (d : Dev) : (sendMsi v d).tickLatch = d.tickLatch :=
  (sendMsi_reports v d).keeps_tickLatch
@[simp] theorem sendMsi_free (v : Nat) (d : Dev) : (sendMsi v d).free = d.free :=
  (sendMsi_reports v d).keeps_free
@[simp] theorem sendMsi_hqe_pairs (v : Nat) (d : Dev) : (sendMsi v d).hqe.pairs = d.hqe.pairs :=
  (sendMsi_reports v d).keeps_hqe_pairs
@[simp] theorem sendMsi_hqe_lease (v : Nat) (d : Dev) : (sendMsi v d).hqe.lease = d.hqe.lease :=
  (sendMsi_reports v d).keeps_hqe_lease
@[simp] theorem sendMsi_hqe_enable (v : Nat) (d : Dev) : (sendMsi v d).hqe.enable = d.hqe.enable :=
  (sendMsi_reports v d).keeps_hqe_enable
@[simp] theorem sendMsi_hqe_ready (v : Nat) (d : Dev) : (sendMsi v d).hqe.ready = d.hqe.ready :=
  (sendMsi_reports v d).keeps_hqe_ready
@[simp] theorem sendMsi_hqe_fetchPaused (v : Nat) (d : Dev) : (sendMsi v d).hqe.fetchPaused = d.hqe.fetchPaused :=
  (sendMsi_reports v d).keeps_hqe_fetchPaused
@[simp] theorem sendMsi_hqe_hmem (v : Nat) (d : Dev) : (sendMsi v d).hqe.hmem = d.hqe.hmem :=
  (sendMsi_reports v d).keeps_hqe_hmem
@[simp] theorem sendMsi_hqe_hostGen (v : Nat) (d : Dev) : (sendMsi v d).hqe.hostGen = d.hqe.hostGen :=
  (sendMsi_reports v d).keeps_hqe_hostGen
@[simp] theorem sendMsi_hqe_busMaster (v : Nat) (d : Dev) : (sendMsi v d).hqe.busMaster = d.hqe.busMaster :=
  (sendMsi_reports v d).keeps_hqe_busMaster
@[simp] theorem sendMsi_hqe_heldCqes (v : Nat) (d : Dev) : (sendMsi v d).hqe.heldCqes = d.hqe.heldCqes :=
  (sendMsi_reports v d).keeps_hqe_heldCqes
@[simp] theorem sendMsi_hqe_resetBusy (v : Nat) (d : Dev) : (sendMsi v d).hqe.resetBusy = d.hqe.resetBusy :=
  (sendMsi_reports v d).keeps_hqe_resetBusy
@[simp] theorem sendMsi_hqe_shutdown (v : Nat) (d : Dev) : (sendMsi v d).hqe.shutdown = d.hqe.shutdown :=
  (sendMsi_reports v d).keeps_hqe_shutdown
@[simp] theorem sendMsi_hqe_perst (v : Nat) (d : Dev) : (sendMsi v d).hqe.perst = d.hqe.perst :=
  (sendMsi_reports v d).keeps_hqe_perst
@[simp] theorem sendMsi_hqe_deferred (v : Nat) (d : Dev) : (sendMsi v d).hqe.deferred = d.hqe.deferred :=
  (sendMsi_reports v d).keeps_hqe_deferred
@[simp] theorem sendMsi_xpt_freeBuf (v : Nat) (d : Dev) : (sendMsi v d).xpt.freeBuf = d.xpt.freeBuf :=
  (sendMsi_reports v d).keeps_xpt_freeBuf
@[simp] theorem sendMsi_xpt_creditHeld (v : Nat) (d : Dev) : (sendMsi v d).xpt.creditHeld = d.xpt.creditHeld :=
  (sendMsi_reports v d).keeps_xpt_creditHeld
@[simp] theorem sendMsi_xpt_rx (v : Nat) (d : Dev) : (sendMsi v d).xpt.rx = d.xpt.rx :=
  (sendMsi_reports v d).keeps_xpt_rx
@[simp] theorem sendMsi_xpt_counts (v : Nat) (d : Dev) : (sendMsi v d).xpt.counts = d.xpt.counts :=
  (sendMsi_reports v d).keeps_xpt_counts
@[simp] theorem sendMsi_xpt_ctrl (v : Nat) (d : Dev) : (sendMsi v d).xpt.ctrl = d.xpt.ctrl :=
  (sendMsi_reports v d).keeps_xpt_ctrl
@[simp] theorem sendMsi_xpt_lost (v : Nat) (d : Dev) : (sendMsi v d).xpt.lost = d.xpt.lost :=
  (sendMsi_reports v d).keeps_xpt_lost

end Sys2Proof.Laws
end

