-- ==== Sys2Proof/Laws/Shuan.lean ====
section
/-! SUPPORT. What running one Shuan instruction can do, case by case, and the forms its meanings are built from. -/

namespace Sys2Proof.Laws

open Sys2Proof.Machine

/-- No task runs on the engine: nothing changes. -/
theorem shuan_idle (e : Nat) (run : Env → Task → Dev → Done) (env : Env) (d : Dev) (h : running d e = none) :
    shuan e run env d = d := by
  unfold shuan; rw [h]

/-- An expiry stops the task at the boundary. -/
theorem shuan_boundary (e : Nat) (run : Env → Task → Dev → Done) (env : Env) (d : Dev) (t : Task) (code : Byte)
    (h : running d e = some t) (hb : boundaryFault env d t = some code) :
    shuan e run env d = faultTask env t code none d := by
  unfold shuan; rw [h]; simp only [hb]

/-- The instruction cannot be fetched. -/
theorem shuan_fetch (e : Nat) (run : Env → Task → Dev → Done) (env : Env) (d : Dev) (t : Task)
    (h : running d e = some t) (hb : boundaryFault env d t = none) (hp : pcOk d t (t.pc.toNat : Int) = false) :
    shuan e run env d = faultTask env t fFetch (some (psAddr t.pc.toNat)) d := by
  unfold shuan; rw [h]; simp [hb, hp]

/-- The instruction faults. -/
theorem shuan_fault (e : Nat) (run : Env → Task → Dev → Done) (env : Env) (d : Dev) (t : Task) (code : Byte)
    (addr : Option Word) (h : running d e = some t) (hb : boundaryFault env d t = none)
    (hp : pcOk d t (t.pc.toNat : Int) = true) (hr : run env t d = .fault code addr) :
    shuan e run env d = faultTask env t code addr d := by
  unfold shuan; rw [h]; simp [hb, hp, hr]

/-- The instruction completes, and its task goes on. -/
theorem shuan_ok (e : Nat) (run : Env → Task → Dev → Done) (env : Env) (d d' : Dev) (t t' : Task)
    (h : running d e = some t) (hb : boundaryFault env d t = none) (hp : pcOk d t (t.pc.toNat : Int) = true)
    (hr : run env t d = .ok t' d') :
    shuan e run env d = putTask { t' with instrs := t.instrs + 1 } d' := by
  unfold shuan; rw [h]; simp [hb, hp, hr]

/-- The instruction completes, and the drive then acts on its task. -/
theorem shuan_act (e : Nat) (run : Env → Task → Dev → Done) (env : Env) (d d' : Dev) (t t' : Task)
    (k : Env → Task → Dev → Dev) (h : running d e = some t) (hb : boundaryFault env d t = none)
    (hp : pcOk d t (t.pc.toNat : Int) = true) (hr : run env t d = .act t' d' k) :
    shuan e run env d = k env { t' with instrs := t.instrs + 1 } (putTask { t' with instrs := t.instrs + 1 } d') := by
  unfold shuan; rw [h]; simp [hb, hp, hr]

/-- A register-only instruction that does not fault. -/
theorem regOnly_ok (f : Task → Except Byte Task) (env : Env) (t t' : Task) (d : Dev) (h : f t = .ok t') :
    regOnly f env t d = .ok t'.next d := by
  unfold regOnly; rw [h]

/-- A register-only instruction that faults. -/
theorem regOnly_error (f : Task → Except Byte Task) (env : Env) (t : Task) (d : Dev) (code : Byte)
    (h : f t = .error code) : regOnly f env t d = .fault code none := by
  unfold regOnly; rw [h]

/-- A load that is permitted and whose local store word is clean. -/
theorem loadForm_ok (n : Nat) (imm : BitVec 15) (a : BitVec 5) (ecc : LsEcc) (put : Task → Nat → Task) (env : Env)
    (t : Task) (d d' : Dev) (h : accessFault d t .load (ea t a imm) n n = none)
    (hc : lsCheck env t (ea t a imm) n ecc d = some d') :
    loadForm n imm a ecc put env t d =
      .ok (put t (leNat (readSpace d' t (spaceOf (ea t a imm)) (offOf (ea t a imm)) n))).next d' := by
  simp [loadForm, h, hc]

/-- A store that is permitted. -/
theorem storeForm_ok (n : Nat) (imm : BitVec 15) (a : BitVec 5) (val : Task → Nat) (env : Env) (t : Task) (d : Dev)
    (h : accessFault d t .store (ea t a imm) n n = none) :
    storeForm n imm a val env t d =
      .ok (writeSpace d t (spaceOf (ea t a imm)) (offOf (ea t a imm)) (natLe n (val t))).1.next
        (writeSpace d t (spaceOf (ea t a imm)) (offOf (ea t a imm)) (natLe n (val t))).2 := by
  simp [storeForm, h]

/-- A load or store that is not permitted faults with no effect. -/
theorem storeForm_fault (n : Nat) (imm : BitVec 15) (a : BitVec 5) (val : Task → Nat) (env : Env) (t : Task) (d : Dev)
    (code : Byte) (h : accessFault d t .store (ea t a imm) n n = some code) :
    storeForm n imm a val env t d = .fault code (some (ea t a imm)) := by
  simp [storeForm, h]

/-- A branch or jump to a target in range. -/
theorem goTo_ok (d : Dev) (t t' : Task) (target : Int) (h : pcOk d t target = true) :
    goTo d t t' target = .ok { t' with pc := BitVec.ofInt 32 target } d := by
  unfold goTo; rw [h]; rfl

/-- A branch or jump out of range has no effect but its fault (R79). -/
theorem goTo_fault (d : Dev) (t t' : Task) (target : Int) (h : pcOk d t target = false) :
    goTo d t t' target = .fault fFetch (some (psAddr target)) := by
  unfold goTo; rw [h]; rfl

/-- A permitted write to a space leaves every other part of the drive than the memories. -/
theorem writeSpace_keeps (d : Dev) (t : Task) (space off : Nat) (bs : List Byte) :
    (writeSpace d t space off bs).2 = { d with mea := { d.mea with
      badWords := (writeSpace d t space off bs).2.mea.badWords, lsShared := (writeSpace d t space off bs).2.mea.lsShared,
      fe := (writeSpace d t space off bs).2.mea.fe, dr := (writeSpace d t space off bs).2.mea.dr } } := by
  unfold writeSpace
  split
  · dsimp only; split <;> rfl
  · split <;> rfl

/-- A write to a space leaves the task's registers and pc. -/
theorem writeSpace_task (d : Dev) (t : Task) (space off : Nat) (bs : List Byte) :
    (writeSpace d t space off bs).1 = { t with frame := (writeSpace d t space off bs).1.frame } := by
  unfold writeSpace
  split
  · dsimp only; split <;> rfl
  · split <;> rfl

end Sys2Proof.Laws
end

