-- ==== Sys2Proof/Safety.lean ====
section
/-! DEFINITION. What counts as a safe run. -/

namespace Sys2Proof.Safety

open Sys2Proof.Machine

/-- A step answers a next state: it neither faults nor refuses. -/
def Completes (s : State) : Prop := ∃ t, step s = .next t

end Sys2Proof.Safety
end

