-- ==== Sys2Proof/Certificates/Slice0/Obligations.lean ====
section
/-! DEFINITION. The statements for the provers. `Sys2Proof.Claims` holds the words they are written in; each statement says
in its docstring what it claims and which rules of the manual it formalises or rests on. -/

namespace Sys2Proof.Claims

open Sys2Proof.Machine

/-! ### Words of the statements -/

/-- Task `t` is RUNNING on engine `e`, no expiry stops it at the boundary before its next instruction, and that instruction
can be fetched: an instruction executes. -/
def Runs (s : State) (e : Nat) (t : Task) : Prop :=
  running s.dev e = some t ∧ boundaryFault s.env s.dev t = none ∧ pcOk s.dev t (t.pc.toNat : Int) = true

/-- The instruction answers the state in which the drive is `d` but for task `t`, which has become `t'` and has executed one
instruction more. -/
def AfterIn (i : Instr) (s : State) (t t' : Task) (d : Dev) : Prop :=
  exec i s = .next { s with dev := putTask { t' with instrs := t.instrs + 1 } d }

/-- The instruction changes task `t` into `t'` and nothing else of the drive. -/
def After (i : Instr) (s : State) (t t' : Task) : Prop := AfterIn i s t t' s.dev

/-- The command answers the state whose drive is `d`; time base, power state and queue stay. -/
def NextDev (i : Instr) (s : State) (d : Dev) : Prop := exec i s = .next { s with dev := d }

/-- The command answers a next state of which `P` holds. -/
def Does (i : Instr) (s : State) (P : State → Prop) : Prop := ∃ t, exec i s = .next t ∧ P t

/-- The command's own effect is `d'`, of which `P` holds, and on it the command of task `t` completes with a status and
a RESULT (R54); MORE is clear. -/
def Serves (i : Instr) (s : State) (t : Task) (status : Byte) (result : Word) (P : Dev → Prop) : Prop :=
  ∃ d', P d' ∧ exec i s = .next { s with dev := endJob s.env t status result false d' }

/-- The command of task `t` completes with a status and a RESULT (R54), MORE clear, on a drive of which `P` holds; what the
model notes of the task's progress may have changed on the way. -/
def Completes (i : Instr) (s : State) (t : Task) (status : Byte) (result : Word) (P : Dev → Prop) : Prop :=
  ∃ t' d', t'.ref = t.ref ∧ t'.who = t.who ∧ P d' ∧
    exec i s = .next { s with dev := endJob s.env t' status result false d' }

/-- The power state agrees with what is under way: an entry to DORMANT runs in ACTIVE, a wake-up in DORMANT, an entry to
RETENTION and a device reset only with VCORE on and not in DRAIN, and never both. -/
def PowerOk (pw : Power) : Prop :=
  (pw.trans = .dormant → pw.st = .active) ∧
  (pw.trans = .wakeup → pw.st = .dormant) ∧
  (∀ th, pw.trans = .retention th →
    (pw.st = .active ∨ pw.st = .dormant ∨ pw.st = .bringup ∨ pw.st = .recovery) ∧ pw.resetStep = none) ∧
  (pw.resetStep ≠ none → pw.st = .active ∨ pw.st = .dormant ∨ pw.st = .bringup ∨ pw.st = .recovery)

end Sys2Proof.Claims

open Sys2Proof Sys2Proof.Machine Sys2Proof.Claims

/-! ### Shuan instructions (03) -/

/-- The immediate forms write sD from sA and the immediate, change nothing else, and go on at pc + 4; a write to s0 is
discarded (03, Immediate forms; R72). -/
def Obligations.ImmediateForms : Prop :=
  ∀ (s : State) (e : Nat) (t : Task) (imm : BitVec 15) (j : BitVec 20) (a d : BitVec 5), Runs s e t →
    After (.addi e imm a d) s t (t.setS d (t.sreg a + imm.signExtend 64)).next ∧
    After (.andi e imm a d) s t (t.setS d (t.sreg a &&& imm.signExtend 64)).next ∧
    After (.ori e imm a d) s t (t.setS d (t.sreg a ||| imm.setWidth 64)).next ∧
    After (.xori e imm a d) s t (t.setS d (t.sreg a ^^^ imm.signExtend 64)).next ∧
    After (.slti e imm a d) s t (t.setS d (if (t.sreg a).toInt < (imm.signExtend 64).toInt then 1 else 0)).next ∧
    After (.sltiu e imm a d) s t (t.setS d (if (t.sreg a).toNat < (imm.signExtend 64).toNat then 1 else 0)).next ∧
    After (.slori e imm a d) s t (t.setS d ((t.sreg a <<< 15) ||| imm.setWidth 64)).next ∧
    After (.lui e j d) s t (t.setS d ((j.setWidth 32 <<< 12).signExtend 64)).next ∧
    After (.pcadd e j d) s t (t.setS d (BitVec.ofInt 64 ((t.pc.toNat : Int) + 4 * j.toInt))).next

/-- SHI shifts sA by IMM15[5:0] in the kind of IMM15[7:6], IMM15[14:8] being zero (03, Immediate forms). -/
def Obligations.ShiftImmediate : Prop :=
  ∀ (s : State) (e : Nat) (t : Task) (n : BitVec 6) (a d : BitVec 5), Runs s e t →
    After (.shi e (n.setWidth 15) a d) s t (t.setS d (t.sreg a <<< n.toNat)).next ∧
    After (.shi e (n.setWidth 15 ||| 64) a d) s t (t.setS d (t.sreg a >>> n.toNat)).next ∧
    After (.shi e (n.setWidth 15 ||| 128) a d) s t (t.setS d ((t.sreg a).sshiftRight n.toNat)).next ∧
    After (.shi e (n.setWidth 15 ||| 192) a d) s t (t.setS d ((t.sreg a).rotateRight n.toNat)).next

/-- The 32 functions of ALU on sA and sB (03, ALU), among them division truncated toward zero; CMOV with sB = 0 leaves sD. DIV,
DIVU, REM and REMU with sB = 0 fault with F_ARITH, an unassigned function with F_ILLEGAL: the task stops at the
instruction, and no other function faults (R76). -/
def Obligations.AluOperations : Prop :=
  (∀ (s : State) (e : Nat) (t : Task) (a b d : BitVec 5), Runs s e t →
    let x := t.sreg a
    let y := t.sreg b
    let n := y.toNat % 64
    let is (f : BitVec 10) (v : Word) : Prop := After (.alu e f b a d) s t (t.setS d v).next
    let un (f : BitVec 10) (v : Word) : Prop := After (.alu e f 0 a d) s t (t.setS d v).next
    is 0x001 (x + y) ∧ is 0x002 (x - y) ∧ is 0x003 (x &&& y) ∧ is 0x004 (x ||| y) ∧ is 0x005 (x ^^^ y) ∧
    is 0x006 (x &&& ~~~y) ∧ is 0x007 (x <<< n) ∧ is 0x008 (x >>> n) ∧ is 0x009 (x.sshiftRight n) ∧
    is 0x00A (x.rotateRight n) ∧
    is 0x00B (if x.toInt < y.toInt then 1 else 0) ∧ is 0x00C (if x.toNat < y.toNat then 1 else 0) ∧
    is 0x00D (if x.toInt < y.toInt then x else y) ∧ is 0x00E (if x.toInt < y.toInt then y else x) ∧
    is 0x00F (if x.toNat < y.toNat then x else y) ∧ is 0x010 (if x.toNat < y.toNat then y else x) ∧
    is 0x011 (x * y) ∧ is 0x012 (BitVec.ofInt 64 (x.toInt * y.toInt / 2 ^ 64)) ∧
    is 0x013 (BitVec.ofNat 64 (x.toNat * y.toNat / 2 ^ 64)) ∧
    (y ≠ 0 → is 0x014 (BitVec.ofInt 64 (x.toInt.tdiv y.toInt)) ∧ is 0x015 (BitVec.ofNat 64 (x.toNat / y.toNat)) ∧
      is 0x016 (BitVec.ofInt 64 (x.toInt.tmod y.toInt)) ∧ is 0x017 (BitVec.ofNat 64 (x.toNat % y.toNat)) ∧ is 0x020 x) ∧
    (y = 0 → After (.alu e 0x020 b a d) s t t.next) ∧
    (x = 0 → un 0x018 64 ∧ un 0x019 64) ∧
    (∀ k, k < 64 → x.toNat / 2 ^ k = 1 → un 0x018 (BitVec.ofNat 64 (63 - k))) ∧
    (∀ k, k < 64 → bitOf x k = true → (∀ i, i < k → bitOf x i = false) → un 0x019 (BitVec.ofNat 64 k)) ∧
    un 0x01A (BitVec.ofNat 64 ((List.range 64).filter (fun i => bitOf x i)).length) ∧
    (∃ v, un 0x01B v ∧ ∀ k, k < 8 → v.toNat / 256 ^ k % 256 = x.toNat / 256 ^ (7 - k) % 256) ∧
    un 0x01C ((x.setWidth 8).signExtend 64) ∧ un 0x01D ((x.setWidth 16).signExtend 64) ∧
    un 0x01E ((x.setWidth 32).signExtend 64) ∧ un 0x01F ((x.setWidth 32).setWidth 64)) ∧
  (∀ (s : State) (e : Nat) (t : Task) (f : BitVec 10) (a b d : BitVec 5), Runs s e t →
    ((f = 0x014 ∨ f = 0x015 ∨ f = 0x016 ∨ f = 0x017) → t.sreg b = 0 →
      NextDev (.alu e f b a d) s (faultTask s.env t fArith none s.dev)) ∧
    ((f = 0 ∨ 0x020 < f.toNat ∨ (0x018 ≤ f.toNat ∧ f.toNat ≤ 0x01F ∧ b ≠ 0)) →
      NextDev (.alu e f b a d) s (faultTask s.env t fIllegal none s.dev)))

/-- RDSYS gives the time base, the task id, PROGRAM_ID, the work class, the window and, to a vendor task, the VCORE setpoint
in millivolts and the pace counter, which has advanced by a free value; a user task takes F_PRIV for those two (03, RDSYS; R37, R75). -/
def Obligations.SystemValues : Prop :=
  ∀ (s : State) (e : Nat) (t : Task) (d : BitVec 5), Runs s e t →
    After (.rdsys e 0x000 0 0 d) s t (t.setS d (BitVec.ofNat 64 s.env.tick)).next ∧
    After (.rdsys e 0x001 0 0 d) s t (t.setS d (BitVec.ofNat 64 (t.eng + 128 * t.ctx))).next ∧
    After (.rdsys e 0x002 0 0 d) s t (t.setS d (t.program.setWidth 64)).next ∧
    After (.rdsys e 0x003 0 0 d) s t (t.setS d (BitVec.ofNat 64 t.wclass)).next ∧
    After (.rdsys e 0x004 0 0 d) s t (t.setS d (BitVec.ofNat 64 (s.env.tick / 25000))).next ∧
    (t.program = 0 →
      After (.rdsys e 0x100 0 0 d) s t (t.setS d (BitVec.ofNat 64 (500 + 5 * s.dev.bgv.setpoint))).next ∧
      AfterIn (.rdsys e 0x101 0 0 d) s t (t.setS d (readPace t.eng s.dev).1).next (readPace t.eng s.dev).2 ∧
      (readPace t.eng s.dev).1 = BitVec.ofNat 64 (s.dev.bgv.paceCnt.getD t.eng 0) + Config.freeWord s.dev.free) ∧
    (t.program ≠ 0 →
      NextDev (.rdsys e 0x100 0 0 d) s (faultTask s.env t fPriv none s.dev) ∧
      NextDev (.rdsys e 0x101 0 0 d) s (faultTask s.env t fPriv none s.dev))

/-- A permitted load of n bytes at ea = sA + sext(IMM15) from memory without an ECC error writes its register with them,
little-endian, sign- or zero-extended, and changes nothing else (R77, R41). -/
def Obligations.Loads : Prop :=
  ∀ (s : State) (e : Nat) (t : Task) (imm : BitVec 15) (a d : BitVec 5), Runs s e t →
    let x := t.sreg a + imm.signExtend 64
    let rd (n : Nat) : Nat := leNat (readSpace s.dev t (spaceOf x) (offOf x) n)
    let ok (n : Nat) : Prop := accessFault s.dev t .load x n n = none ∧ (spaceOf x = 0 → lsBad s.dev t (offOf x) n = false)
    (ok 1 → After (.lb e imm a d .clean) s t (t.setS d ((BitVec.ofNat 8 (rd 1)).signExtend 64)).next ∧
      After (.lbu e imm a d .clean) s t (t.setS d (BitVec.ofNat 64 (rd 1))).next) ∧
    (ok 2 → After (.lh e imm a d .clean) s t (t.setS d ((BitVec.ofNat 16 (rd 2)).signExtend 64)).next ∧
      After (.lhu e imm a d .clean) s t (t.setS d (BitVec.ofNat 64 (rd 2))).next) ∧
    (ok 4 → After (.lw e imm a d .clean) s t (t.setS d ((BitVec.ofNat 32 (rd 4)).signExtend 64)).next ∧
      After (.lwu e imm a d .clean) s t (t.setS d (BitVec.ofNat 64 (rd 4))).next) ∧
    (ok 8 → After (.ld e imm a d .clean) s t (t.setS d (BitVec.ofNat 64 (rd 8))).next) ∧
    (ok 64 → d.toNat < 16 → After (.vld e imm a d .clean) s t (t.setV d (BitVec.ofNat 512 (rd 64))).next)

/-- A load the access rules refuse faults with their code and its address and has no other effect; one that meets an
uncorrectable local store word faults with F_LSECC; a corrected bit sets MEA_CAUSE bit 3, is recorded, and the load
goes on (R41, R64, R77). A branch or jump to a
target outside the task's range faults with F_FETCH at the branch itself (R79); so does an instruction fetched outside the
range, and an expired run limit stops the task before its next instruction with F_RUNLIMIT (R53, R74). -/
def Obligations.MemoryAndFetchFaults : Prop :=
  (∀ (s : State) (e : Nat) (t : Task) (imm : BitVec 15) (a d : BitVec 5) (ecc : LsEcc) (code : Byte), Runs s e t →
    let x := t.sreg a + imm.signExtend 64
    (accessFault s.dev t .load x 8 8 = some code →
      NextDev (.ld e imm a d ecc) s (faultTask s.env t code (some x) s.dev)) ∧
    (accessFault s.dev t .load x 4 4 = some code →
      NextDev (.lw e imm a d ecc) s (faultTask s.env t code (some x) s.dev)) ∧
    (accessFault s.dev t .load x 8 8 = none → spaceOf x = 0 →
      NextDev (.ld e imm a d .uncorrectable) s (faultTask s.env t fLsecc (some x) s.dev) ∧
      (lsBad s.dev t (offOf x) 8 = true → NextDev (.ld e imm a d ecc) s (faultTask s.env t fLsecc (some x) s.dev)) ∧
      (lsBad s.dev t (offOf x) 8 = false →
        AfterIn (.ld e imm a d .corrected) s t (t.setS d (BitVec.ofNat 64 (leNat (readSpace s.dev t 0 (offOf x) 8)))).next
          (event s.env 0x0504 1 clsHardware (t.eng / 8) t.eng (offOf x) 0 (setCause s.env 5 8 s.dev))))) ∧
  (∀ (s : State) (e : Nat) (t : Task) (imm : BitVec 15) (j : BitVec 20) (a d : BitVec 5), running s.dev e = some t →
    (Runs s e t →
      let target : Int := (t.pc.toNat : Int) + 4 * j.toInt
      let near : Int := (t.pc.toNat : Int) + 4 * imm.toInt
      (pcOk s.dev t target = false → NextDev (.jal e j d) s (faultTask s.env t fFetch (some (psAddr target)) s.dev)) ∧
      (pcOk s.dev t near = false → t.sreg d = t.sreg a →
        NextDev (.beq e imm a d) s (faultTask s.env t fFetch (some (psAddr near)) s.dev))) ∧
    (boundaryFault s.env s.dev t = none → pcOk s.dev t t.pc.toNat = false →
      NextDev (.addi e imm a d) s (faultTask s.env t fFetch (some (psAddr t.pc.toNat)) s.dev)) ∧
    (t.kind ≠ .hook → t.runFrom + runLimit s.dev t < s.env.tick →
      NextDev (.addi e imm a d) s (faultTask s.env t fRunlimitCode none s.dev)))

/-- A permitted store writes the low bytes of its source at ea, little-endian, and leaves every other byte of the frame,
of local store, felt and DRAM, every register, and everything else of the drive; the stored bytes then read back
(R38, R77). A local store word written is no longer bad (R41). -/
def Obligations.StoresWriteOnlyTheirBytes : Prop :=
  ∀ (s : State) (e : Nat) (t : Task) (imm : BitVec 15) (a d : BitVec 5) (c : Instr) (n v : Nat), Runs s e t →
    (c, n, v) ∈ [(.sb e imm a d, 1, (t.sreg d).toNat), (.sh e imm a d, 2, (t.sreg d).toNat),
      (.sw e imm a d, 4, (t.sreg d).toNat), (.sd e imm a d, 8, (t.sreg d).toNat)] ∨
      (c, n, v) = (.vst e imm a d, 64, (t.vreg d).toNat) ∧ d.toNat < 16 →
    let x := t.sreg a + imm.signExtend 64
    let off := offOf x
    let out (base k : Nat) : Prop := k < base + off ∨ base + off + n ≤ k
    accessFault s.dev t .store x n n = none →
    ∃ (t' : Task) (m : Mea), AfterIn c s t t' { s.dev with mea := m } ∧
      t' = { t with pc := t.pc + 4, frame := t'.frame } ∧
      m = { s.dev.mea with badWords := m.badWords, lsShared := m.lsShared, fe := m.fe, dr := m.dr } ∧
      readSpace { s.dev with mea := m } t' (spaceOf x) off n = natLe n v ∧
      (∀ k, spaceOf x ≠ 0 ∨ out 0 k → memRead t'.frame k = memRead t.frame k) ∧
      (∀ k, spaceOf x ≠ 0 ∨ out (t.eng * 0x40000) k → memRead m.lsShared k = memRead s.dev.mea.lsShared k) ∧
      (∀ k, spaceOf x ≠ 1 ∨ out 0 k → memRead m.fe k = memRead s.dev.mea.fe k) ∧
      (∀ k, spaceOf x ≠ 2 ∨ out 0 k → memRead m.dr k = memRead s.dev.mea.dr k) ∧
      (∀ w, w ∈ m.badWords → w ∈ s.dev.mea.badWords)

/-- Branches and jumps are relative to pc (R78). A conditional branch whose condition holds goes to pc + 4 × sext(IMM15), one
whose condition does not hold goes on at pc + 4; BP tests a predicate register; JAL and JALR write pc + 4 to their
register and go to the target, JALR to a program store offset or a Shuan address in space PS; PCADD writes
pc + 4 × sext(IMM20). None changes anything else. -/
def Obligations.ControlTransfers : Prop :=
  (∀ (s : State) (e : Nat) (t : Task) (imm : BitVec 15) (a d : BitVec 5), Runs s e t →
    let x := t.sreg d
    let y := t.sreg a
    let target : Int := (t.pc.toNat : Int) + 4 * imm.toInt
    let br (c : Instr) (holds : Prop) : Prop :=
      (holds → pcOk s.dev t target = true → After c s t { t with pc := BitVec.ofInt 32 target }) ∧
      (¬ holds → After c s t { t with pc := t.pc + 4 })
    br (.beq e imm a d) (x = y) ∧ br (.bne e imm a d) (x ≠ y) ∧
    br (.blt e imm a d) (x.toInt < y.toInt) ∧ br (.bge e imm a d) (y.toInt ≤ x.toInt) ∧
    br (.bltu e imm a d) (x.toNat < y.toNat) ∧ br (.bgeu e imm a d) (y.toNat ≤ x.toNat) ∧
    (a.toNat < 8 → let p := t.preg a.toNat
      br (.bp e imm a 0) (p ≠ 0) ∧ br (.bp e imm a 1) (p = 0) ∧
      br (.bp e imm a 2) (p = 0xFFFFFFFFFFFFFFFF) ∧ br (.bp e imm a 3) (p ≠ 0xFFFFFFFFFFFFFFFF))) ∧
  (∀ (s : State) (e : Nat) (t : Task) (imm : BitVec 15) (j : BitVec 20) (a d : BitVec 5), Runs s e t →
    let target : Int := (t.pc.toNat : Int) + 4 * j.toInt
    let x := t.sreg a + imm.signExtend 64
    let linked : Task := t.setS d (t.pc.setWidth 64 + 4)
    After (.pcadd e j d) s t (t.setS d (BitVec.ofInt 64 target)).next ∧
    (pcOk s.dev t target = true → After (.jal e j d) s t { linked with pc := BitVec.ofInt 32 target }) ∧
    (x.toNat / 2 ^ 60 ≠ 3 → pcOk s.dev t x.toNat = true →
      After (.jalr e imm a d) s t { linked with pc := BitVec.ofNat 32 x.toNat }) ∧
    (x.toNat / 2 ^ 60 = 3 → pcOk s.dev t ((x.toNat % 2 ^ 60 : Nat) : Int) = true →
      After (.jalr e imm a d) s t { linked with pc := BitVec.ofNat 32 (x.toNat % 2 ^ 60) }))

/-- VALU works lane by lane: an active lane of vD takes the function of the lanes of vA and vB modulo 2^(8L), an inactive
one keeps its value (R80; 03, VALU). -/
def Obligations.VectorLanes : Prop :=
  ∀ (s : State) (e : Nat) (t : Task) (f : BitVec 10) (a b d : BitVec 5), Runs s e t →
    a.toNat < 16 → b.toNat < 16 → d.toNat < 16 →
    let L := 2 ^ fld f 5 2
    let m := 2 ^ (8 * L)
    let sg (x : Nat) : Int := if 2 * x < m then x else (x : Int) - m
    let table : List (Nat × (Nat → Nat → Nat)) :=
      [(0x01, fun x y => (x + y) % m), (0x02, fun x y => (x + m - y) % m), (0x03, fun x y => x &&& y),
       (0x04, fun x y => x ||| y), (0x05, fun x y => x ^^^ y), (0x06, fun x y => x &&& (m - 1 - y)),
       (0x07, fun x y => x * 2 ^ (y % (8 * L)) % m), (0x08, fun x y => x / 2 ^ (y % (8 * L))),
       (0x09, fun x y => (sg x / 2 ^ (y % (8 * L)) % m).toNat), (0x0A, fun x y => min x y), (0x0B, fun x y => max x y),
       (0x0C, fun x y => if sg x < sg y then x else y), (0x0D, fun x y => if sg x < sg y then y else x),
       (0x0E, fun x y => x * y % m), (0x0F, fun x y => x * y / m), (0x10, fun x y => min (x + y) (m - 1)),
       (0x11, fun x y => x - y)]
    ∀ g ∈ table, fld f 0 5 = g.1 →
      ∃ v : V512, After (.valu e f b a d) s t (t.setV d v).next ∧
        ∀ k, k < 64 / L → lane v L k =
          if bitOf (t.preg (fld f 7 3)) (k * L) then g.2 (lane (t.vreg a) L k) (lane (t.vreg b) L k)
          else lane (t.vreg d) L k

/-- VCMP sets every bit of an active lane of pD to the comparison and of an inactive one to 0; VSPLAT, VEXT, VINS, VPERM and
VPOPC work by lanes (R81), F[4:0] being zero and the fields they do not use as well. -/
def Obligations.VectorByLanes : Prop :=
  (∀ (s : State) (e : Nat) (t : Task) (f : BitVec 10) (a b d : BitVec 5), Runs s e t →
    a.toNat < 16 → b.toNat < 16 → d.toNat < 8 →
    let L := 2 ^ fld f 5 2
    let m := 2 ^ (8 * L)
    let sg (x : Nat) : Int := if 2 * x < m then x else (x : Int) - m
    let table : List (Nat × (Nat → Nat → Bool)) :=
      [(0x01, fun x y => x == y), (0x02, fun x y => x != y), (0x03, fun x y => decide (x < y)),
       (0x04, fun x y => decide (x ≤ y)), (0x05, fun x y => decide (sg x < sg y)), (0x06, fun x y => decide (sg x ≤ sg y))]
    ∀ g ∈ table, fld f 0 5 = g.1 →
      ∃ q : Word, After (.vcmp e f b a d) s t (t.setP d.toNat q).next ∧
        ∀ i, i < 64 → bitOf q i =
          (bitOf (t.preg (fld f 7 3)) (i / L * L) && g.2 (lane (t.vreg a) L (i / L)) (lane (t.vreg b) L (i / L)))) ∧
  (∀ (s : State) (e : Nat) (t : Task) (f : BitVec 10) (a b d : BitVec 5), Runs s e t → fld f 0 5 = 0 →
    let L := 2 ^ fld f 5 2
    let act (k : Nat) : Bool := bitOf (t.preg (fld f 7 3)) (k * L)
    let vec (c : Instr) (g : Nat → Nat) : Prop :=
      ∃ v : V512, After c s t (t.setV d v).next ∧ ∀ k, k < 64 / L → lane v L k = g k
    (d.toNat < 16 → vec (.vsplat e f 0 a d)
      (fun k => if act k then (t.sreg a).toNat % 2 ^ (8 * L) else lane (t.vreg d) L k)) ∧
    (a.toNat < 16 → fld f 7 3 = 0 →
      After (.vext e f b a d) s t (t.setS d (BitVec.ofNat 64 (lane (t.vreg a) L ((t.sreg b).toNat % (64 / L))))).next) ∧
    (d.toNat < 16 → fld f 7 3 = 0 → vec (.vins e f b a d) (fun k =>
      if k = (t.sreg b).toNat % (64 / L) then (t.sreg a).toNat % 2 ^ (8 * L) else lane (t.vreg d) L k)) ∧
    (a.toNat < 16 → b.toNat < 16 → d.toNat < 16 → L = 1 → vec (.vperm e f b a d) (fun k =>
      if act k then (if 128 ≤ lane (t.vreg b) 1 k then 0 else lane (t.vreg a) 1 (lane (t.vreg b) 1 k % 64))
      else lane (t.vreg d) 1 k)) ∧
    (a.toNat < 16 → d.toNat < 16 → vec (.vpopc e f 0 a d) (fun k =>
      if act k then ((List.range (8 * L)).filter (fun i => (lane (t.vreg a) L k).testBit i)).length
      else lane (t.vreg d) L k)))

/-- VCLMUL: segment j of vD is the carry-less product of the selected doublewords of vA and vB where bit 16j of pg is 1,
and keeps its value elsewhere (R82): the product's bit n is the parity of the pairs of 1 bits whose places sum to n. Other values of F[6:2] fault with F_ILLEGAL. -/
def Obligations.VectorCarryLess : Prop :=
  ∀ (s : State) (e : Nat) (t : Task) (f : BitVec 10) (a b d : BitVec 5), Runs s e t →
    (fld f 2 5 ≠ 0b11000 → NextDev (.vclmul e f b a d) s (faultTask s.env t fIllegal none s.dev)) ∧
    (a.toNat < 16 → b.toNat < 16 → d.toNat < 16 → fld f 2 5 = 0b11000 →
    ∃ v : V512, After (.vclmul e f b a d) s t (t.setV d v).next ∧
      ∀ j, j < 4 →
        (bitOf (t.preg (fld f 7 3)) (16 * j) = false → lane v 16 j = lane (t.vreg d) 16 j) ∧
        (bitOf (t.preg (fld f 7 3)) (16 * j) = true → ∀ n, n < 128 →
          (lane v 16 j).testBit n =
            (((List.range 64).filter (fun i => decide (i ≤ n) &&
              (lane (t.vreg b) 8 (2 * j + fld f 1 1)).testBit i &&
              (lane (t.vreg a) 8 (2 * j + fld f 0 1)).testBit (n - i))).length % 2 == 1)))

/-- VRED reduces the active lanes of vA, zero-extended; with none active it gives the reduction's neutral value (R83).
PRED works on predicate registers, a write to p0 being discarded and p0 reading as all ones (R84). VRED with B ≠ 0,
and PRED with an unassigned function, a predicate field above 7 or a RES0 field set, fault with F_ILLEGAL. -/
def Obligations.ReductionsAndPredicates : Prop :=
  ∀ (s : State) (e : Nat) (t : Task) (f : BitVec 10) (a b d : BitVec 5), Runs s e t →
    let L := 2 ^ fld f 5 2
    let xs := ((List.range (64 / L)).filter (fun k => bitOf (t.preg (fld f 7 3)) (k * L))).map (lane (t.vreg a) L)
    let red (c : Nat) (x : Nat) : Prop :=
      fld f 0 5 = c → a.toNat < 16 → After (.vred e f 0 a d) s t (t.setS d (BitVec.ofNat 64 x)).next
    let pa := t.preg a.toNat
    let pb := t.preg b.toNat
    red 0x01 xs.sum ∧ red 0x02 (xs.foldl (· ^^^ ·) 0) ∧ red 0x03 (xs.foldl (· ||| ·) 0) ∧
    red 0x04 (xs.foldl (· &&& ·) (2 ^ (8 * L) - 1)) ∧ red 0x05 (xs.foldl min (2 ^ (8 * L) - 1)) ∧
    red 0x06 (xs.foldl max 0) ∧
    (a.toNat < 8 → b.toNat < 8 → d.toNat < 8 →
      After (.pred e 0x01 b a d) s t (t.setP d.toNat (pa &&& pb)).next ∧
      After (.pred e 0x02 b a d) s t (t.setP d.toNat (pa ||| pb)).next ∧
      After (.pred e 0x03 b a d) s t (t.setP d.toNat (pa ^^^ pb)).next ∧
      After (.pred e 0x04 b a d) s t (t.setP d.toNat (pa &&& ~~~pb)).next ∧
      After (.pred e 0x05 0 a d) s t (t.setP d.toNat (~~~pa)).next) ∧
    (d.toNat < 8 → After (.pred e 0x07 0 a d) s t (t.setP d.toNat (t.sreg a)).next) ∧
    (b ≠ 0 → NextDev (.vred e f b a d) s (faultTask s.env t fIllegal none s.dev)) ∧
    ((fld f 5 5 ≠ 0 ∨ fld f 0 5 = 0 ∨ 9 < fld f 0 5 ∨ (5 ≤ fld f 0 5 ∧ b ≠ 0) ∨ (fld f 0 5 ≠ 7 ∧ 8 ≤ a.toNat) ∨
        (fld f 0 5 < 5 ∧ 8 ≤ b.toNat) ∨ ((fld f 0 5 < 6 ∨ fld f 0 5 = 7) ∧ 8 ≤ d.toNat)) →
      NextDev (.pred e f b a d) s (faultTask s.env t fIllegal none s.dev)) ∧
    (a.toNat < 8 →
      After (.pred e 0x06 0 a d) s t (t.setS d pa).next ∧
      After (.pred e 0x08 0 a d) s t
        (t.setS d (BitVec.ofNat 64 ((List.range 64).filter (fun i => bitOf pa i)).length)).next ∧
      (pa = 0 → After (.pred e 0x09 0 a d) s t (t.setS d 64).next) ∧
      (∀ i, i < 64 → bitOf pa i = true → (∀ k, k < i → bitOf pa k = false) →
        After (.pred e 0x09 0 a d) s t (t.setS d (BitVec.ofNat 64 i)).next))

/-- An atomic of 4 or 8 bytes sets sD to the value it found and stores the new one, in one action; CAS stores only where
the value found is that of sD. Bytes outside the location keep their value (R85). -/
def Obligations.Atomics : Prop :=
  ∀ (s : State) (e : Nat) (t : Task) (a b d : BitVec 5) (f : BitVec 10) (c : Instr) (g : Nat → Nat → Nat → Nat), Runs s e t →
    f = 2 ∨ f = 3 →
    let n := 2 ^ f.toNat
    let m := 2 ^ (8 * n)
    (c = .amoswap ⟨e, .clean⟩ f b a d ∧ g = (fun _ y _ => y)) ∨ (c = .amoadd ⟨e, .clean⟩ f b a d ∧ g = fun x y _ => (x + y) % m) ∨
      (c = .amoand ⟨e, .clean⟩ f b a d ∧ g = fun x y _ => x &&& y) ∨ (c = .amoor ⟨e, .clean⟩ f b a d ∧ g = fun x y _ => x ||| y) ∨
      (c = .amoxor ⟨e, .clean⟩ f b a d ∧ g = fun x y _ => x ^^^ y) ∨ (c = .amominu ⟨e, .clean⟩ f b a d ∧ g = fun x y _ => min x y) ∨
      (c = .amomaxu ⟨e, .clean⟩ f b a d ∧ g = fun x y _ => max x y) ∨
      (c = .casAtomic ⟨e, .clean⟩ f b a d ∧ g = fun x y z => if x = z then y else x) →
    let x := t.sreg a
    let off := offOf x
    let out (base k : Nat) : Prop := k < base + off ∨ base + off + n ≤ k
    accessFault s.dev t .atomic x n n = none → (spaceOf x = 0 → lsBad s.dev t off n = false) →
    let old := leNat (readSpace s.dev t (spaceOf x) off n)
    ∃ (t' : Task) (mea : Mea), AfterIn c s t ((t'.setS d (BitVec.ofNat 64 old)).next) { s.dev with mea := mea } ∧
      t' = { t with frame := t'.frame } ∧
      mea = { s.dev.mea with badWords := mea.badWords, lsShared := mea.lsShared, fe := mea.fe, dr := mea.dr } ∧
      readSpace { s.dev with mea := mea } t' (spaceOf x) off n =
        natLe n (g old ((t.sreg b).toNat % m) ((t.sreg d).toNat % m)) ∧
      (∀ k, spaceOf x ≠ 0 ∨ out 0 k → memRead t'.frame k = memRead t.frame k) ∧
      (∀ k, spaceOf x ≠ 0 ∨ out (t.eng * 0x40000) k → memRead mea.lsShared k = memRead s.dev.mea.lsShared k) ∧
      (∀ k, spaceOf x ≠ 1 ∨ out 0 k → memRead mea.fe k = memRead s.dev.mea.fe k) ∧
      (∀ k, spaceOf x ≠ 2 ∨ out 0 k → memRead mea.dr k = memRead s.dev.mea.dr k)

/-! ### Primitives and the life of a task (02, 03) -/

/-- POST captures the descriptor, allocates the lowest free tag and writes it to sD (R49, R87, R88): of every unit but
TIMER when the task may post it, the descriptor lies aligned to its size where the task may read, and the unit takes it;
of TIMER, which takes no descriptor, always. A descriptor the unit rejects faults with F_DESC, one the access rules refuse
with their code, one in a bad word of local store with F_LSECC; with 32 posts outstanding POST faults with F_POSTFULL, and a
user task that posts to CIPHER, MEDIA or EVR with F_PRIV. -/
def Obligations.Posting : Prop :=
  ∀ (s : State) (e : Nat) (t : Task) (pf : BitVec 6) (unit : BitVec 4) (a d : BitVec 5) (tag : Nat), Runs s e t →
    unit.toNat < 8 → pf.toNat < [1, 4, 6, 4, 7, 2, 3, 2].getD unit.toNat 0 →
    let x := t.sreg a
    let n := if unit = 5 then 32 else 64
    (tag < 32 → (∀ p ∈ t.posts, p.tag ≠ tag) → (∀ k, k < tag → ∃ p ∈ t.posts, p.tag = k) →
      t.program = 0 ∨ (userMay unit.toNat pf.toNat = true ∧ lookupDenied s.dev t unit x = false) →
      let posted (c : V512) : Prop := After (.post ⟨e, .clean⟩ pf unit 0 a d) s t { (t.setS d (BitVec.ofNat 64 tag)).next with
        posts := t.posts ++ [{ tag := tag, unit := unit, pf := pf, desc := c, addr := x, tick := s.env.tick }] }
      (unit = 7 → posted 0) ∧
      (unit ≠ 7 → accessFault s.dev t .load x n n = none → spaceOf x = 0 → lsBad s.dev t (offOf x) n = true →
        NextDev (.post ⟨e, .clean⟩ pf unit 0 a d) s (faultTask s.env t fLsecc (some x) s.dev)) ∧
      (unit ≠ 7 → accessFault s.dev t .load x n n = none → (spaceOf x = 0 → lsBad s.dev t (offOf x) n = false) →
        let c := BitVec.ofNat 512 (leNat (readSpace s.dev t (spaceOf x) (offOf x) n))
        (descOk s.dev t unit.toNat pf.toNat c = true → posted c) ∧
        (descOk s.dev t unit.toNat pf.toNat c = false →
          NextDev (.post ⟨e, .clean⟩ pf unit 0 a d) s (faultTask s.env t fDesc none s.dev))) ∧
      (∀ code, unit ≠ 7 → accessFault s.dev t .load x n n = some code →
        NextDev (.post ⟨e, .clean⟩ pf unit 0 a d) s (faultTask s.env t code (some x) s.dev))) ∧
    ((∀ k, k < 32 → ∃ p ∈ t.posts, p.tag = k) → t.program = 0 →
      NextDev (.post ⟨e, .clean⟩ pf unit 0 a d) s (faultTask s.env t fPostfull none s.dev)) ∧
    (t.program ≠ 0 → unit = 2 ∨ unit = 3 ∨ unit = 5 →
      NextDev (.post ⟨e, .clean⟩ pf unit 0 a d) s (faultTask s.env t fPriv none s.dev))

/-- WAIT and TEST return the completion matching the mask that arrived first: sD takes its RESULT, sE its information
word, and its tag is freed; WAIT starts the run limit again. With none ready TEST gives NONE and WAIT blocks until
tick + sB, or without limit for sB = 0 (R49, R51, R90). A mask naming a tag that is not outstanding faults with F_TAG. -/
def Obligations.Waiting : Prop :=
  ∀ (s : State) (e : Nat) (t : Task) (re b a d : BitVec 5) (p : Post) (n : Nat), Runs s e t → (d ≠ re ∨ d = 0) →
    let pf : BitVec 6 := re.setWidth 6
    let mask : W32 := (t.sreg a).setWidth 32
    let named (q : Post) : Prop := mask = 0 ∨ mask.getLsbD q.tag = true
    let info : Word := BitVec.ofNat 64 (p.compl.status.toNat + p.tag * 2 ^ 8 + p.unit.toNat * 2 ^ 16)
    let took : Task := { ((t.setS d p.compl.result).setS re info).next with
      posts := t.posts.filter (fun q => q.tag != p.tag), wait := none }
    let none_ : Task := { ((t.setS d 0).setS re 0x8000).next with wait := none }
    ((mask = 0 ∧ t.posts ≠ []) ∨ (mask ≠ 0 ∧ ∀ k, k < 32 → mask.getLsbD k = true → ∃ q ∈ t.posts, q.tag = k) →
      (p ∈ t.posts → named p → p.st = .delivered n →
        (∀ q ∈ t.posts, q ≠ p → named q → ∀ m, q.st = .delivered m → n < m) →
        After (.wait e pf 0 b a d) s t { took with runFrom := s.env.tick } ∧ After (.test e pf 0 0 a d) s t took) ∧
      ((∀ q ∈ t.posts, named q → ∀ m, q.st ≠ .delivered m) →
        After (.test e pf 0 0 a d) s t none_ ∧
        let t' := { t with instrs := t.instrs + 1, wait := some (⟨mask, d, re,
          if t.sreg b = 0 then none else some (s.env.tick + (t.sreg b).toNat)⟩ : WaitInfo) }
        NextDev (.wait e pf 0 b a d) s (leaveRunning s.env t' .waiting (putTask t' s.dev)))) ∧
    ((∃ k, k < 32 ∧ mask.getLsbD k = true ∧ ∀ q ∈ t.posts, q.tag ≠ k) →
      NextDev (.wait e pf 0 b a d) s (faultTask s.env t fTag none s.dev) ∧
      NextDev (.test e pf 0 0 a d) s (faultTask s.env t fTag none s.dev))

/-- YIELD makes the task READY behind all others; END ends it with RESULT sA and STATUS sB[7:0] and completes its command;
a STATUS of 0x16–0x7F faults with F_STATUS instead (R53–R55, R91).
BUDGET gives the remaining funding of the class or the ticks to the next window boundary; CHARGE adds
min(sA, 0xFFFF_FFFF) to the spending of the class, or for a vendor task of the class PF[3:0], and gives what remains (R92). -/
def Obligations.EndsAndBudgets : Prop :=
  (∀ (s : State) (e : Nat) (t : Task) (b a : BitVec 5), Runs s e t →
    let t1 := { t with instrs := t.instrs + 1 }
    let t2 := { t1.next with readyAt := s.dev.mea.stamp }
    let status : Byte := (t.sreg b).setWidth 8
    NextDev (.yield e 0 0 0 0 0) s (leaveRunning s.env t2 .ready
      (putTask t2 { s.dev with mea := { s.dev.mea with stamp := s.dev.mea.stamp + 1 } })) ∧
    (status.toNat < 0x16 ∨ 0x80 ≤ status.toNat →
      NextDev (.endTask e 0 0 b a 0) s (finishTask s.env t1 status (t.sreg a) false (putTask t1 s.dev))) ∧
    (0x16 ≤ status.toNat → status.toNat < 0x80 →
      NextDev (.endTask e 0 0 b a 0) s (faultTask s.env t fStatus none s.dev))) ∧
  (∀ (s : State) (e : Nat) (t : Task) (a d : BitVec 5) (c : BitVec 4), Runs s e t →
    let left (v : Dev) (k : Nat) : Word := BitVec.ofInt 64 ((wcOf v k).fund - (wcOf v k).debt - (wcOf v k).spend)
    let dv (k : Nat) : Dev := chargeFor k t.group (min (t.sreg a).toNat 0xFFFFFFFF) s.dev
    After (.budget e 0 0 0 0 d) s t (t.setS d (left s.dev t.wclass)).next ∧
    After (.budget e 1 0 0 0 d) s t (t.setS d (BitVec.ofNat 64 (25000 - s.env.tick % 25000))).next ∧
    AfterIn (.charge e 0 0 0 a d) s t (t.setS d (left (dv t.wclass) t.wclass)).next (dv t.wclass) ∧
    (t.program = 0 →
      AfterIn (.charge e (c.setWidth 6 ||| 16) 0 0 a d) s t (t.setS d (left (dv c.toNat) c.toNat)).next (dv c.toNat)) ∧
    (t.program ≠ 0 → NextDev (.charge e (c.setWidth 6 ||| 16) 0 0 a d) s (faultTask s.env t fPriv none s.dev)) ∧
    (2 ≤ t.wclass → t.wclass < 16 → (wcOf (dv t.wclass) t.wclass) =
      { wcOf s.dev t.wclass with spend := (wcOf s.dev t.wclass).spend + min (t.sreg a).toNat 0xFFFFFFFF }))

/-- EVENT requests one record with the fields of its operands; for a user task the drive sets CODE, SEV, CLASS and
P2[31:16] itself (R93). HASH gives the key hash (R94), CRC the CRC-32C state, inverted under PF bit 5 (R95), FENCE
nothing (R86). -/
def Obligations.RecordsHashesAndChecks : Prop :=
  ∀ (s : State) (e : Nat) (t : Task) (re b a d : BitVec 5), Runs s e t →
    let x := t.sreg a
    let y := t.sreg b
    let z := t.sreg re
    let r : Rec :=
      { code := x.setWidth 16, sev := fld x 16 4, cls := fld x 20 4, flags := 1, src := BitVec.ofNat 8 (t.eng / 8),
        p0 := y.setWidth 32, p1 := (y >>> 32).setWidth 32, p2 := z.setWidth 32 }
    let u : Rec :=
      { r with code := BitVec.ofNat 16 (0x05C0 ||| x.toNat % 64), sev := min (fld x 16 4) 4, cls := 5,
               p2 := BitVec.ofNat 32 (z.toNat % 65536 + t.program.toNat * 65536) }
    let n := fld y 8 8
    (t.program = 0 → fld x 16 4 ≤ 7 → fld x 20 4 ≤ 5 →
      AfterIn (.event e (re.setWidth 6) 0 b a 0) s t t.next (request s.env r s.dev).1) ∧
    (t.program ≠ 0 → AfterIn (.event e (re.setWidth 6) 0 b a 0) s t t.next (request s.env u s.dev).1) ∧
    (n = 0 ∨ (accessFault s.dev t .load x n 1 = none ∧ (spaceOf x = 0 → lsBad s.dev t (offOf x) n = false)) →
      After (.hash ⟨e, .clean⟩ 0 0 b a d) s t
        (t.setS d (keyHash (y.setWidth 8) (readSpace s.dev t (spaceOf x) (offOf x) n))).next) ∧
    (z.toNat ≤ 4096 → z.toNat = 0 ∨
        (accessFault s.dev t .load x z.toNat 1 = none ∧ (spaceOf x = 0 → lsBad s.dev t (offOf x) z.toNat = false)) →
      let c := crc32c (y.setWidth 32) (readSpace s.dev t (spaceOf x) (offOf x) z.toNat)
      After (.crc ⟨e, .clean⟩ (re.setWidth 6) 0 b a d) s t (t.setS d (c.setWidth 64)).next ∧
      After (.crc ⟨e, .clean⟩ (re.setWidth 6 ||| 32) 0 b a d) s t (t.setS d ((~~~c).setWidth 64)).next) ∧
    (4096 < z.toNat → NextDev (.crc ⟨e, .clean⟩ (re.setWidth 6) 0 b a d) s (faultTask s.env t fAccess (some x) s.dev)) ∧
    After (.fence e 0 0 0 0) s t t.next

/-- The expiries of a task and the arrival of a completion: F_RUNLIMIT stops the RUNNING task, F_HOOKTIME a hook task 1 ms
after dispatch (R53, R63), a WAIT whose timeout falls due returns NONE and leaves its post outstanding (R51), and a
completion is returned by a WAIT that names it, kept for a later one, or discarded while the task drains, whose
context becomes FREE with the last (R50–R52).
FRAME_PARSER (R180): the hook runs on a zeroed header area with the value's first bytes behind it, and the FRAME_PUT's
task waits. Slot locks go to the first request that may take them (R224); a command without its lock after 10 s completes
with SC_TIMEOUT (R159); a scrub error marks its word bad and sets MEA_CAUSE bit 4 (R41). -/
def Obligations.TaskEventsLocksAndHooks : Prop :=
  (∀ (s : State) (e : Nat) (t : Task) (r : TaskRef) (w : WaitInfo) (p : Post) (due g : Nat),
    let refP : PostRef := ⟨r.eng, r.ctx, p.tag⟩
    let info : Word := BitVec.ofNat 64 (p.compl.status.toNat + p.tag * 2 ^ 8 + p.unit.toNat * 2 ^ 16)
    let rest := t.posts.filter (fun q => q.tag != p.tag)
    let d1 : Dev := { s.dev with mea := { s.dev.mea with stamp := s.dev.mea.stamp + 1 } }
    let kept : Task := { t with posts := t.posts.map (fun q =>
      if q.tag == p.tag then { p with st := .delivered s.dev.mea.stamp } else q) }
    (running s.dev e = some t → t.runFrom + runLimit s.dev t ≤ s.env.tick →
      NextDev (.fRunlimit e) s (faultTask s.env t fRunlimitCode none s.dev)) ∧
    (taskOf s.dev r = some t → t.kind = .hook → t.st ≠ .draining → t.dispTick + 25000 ≤ s.env.tick →
      NextDev (.fHooktime r) s (faultTask s.env t fHooktimeCode none s.dev)) ∧
    (taskOf s.dev r = some t → t.st = .waiting → t.wait = some w → w.due = some due → due ≤ s.env.tick →
      NextDev (.waitTimeout r) s (makeReady s.env t.eng t.ctx
        (putTask { ((t.setS w.d 0).setS w.e 0x8000).next with wait := none } s.dev))) ∧
    (taskOf s.dev r = some t → t.posts.find? (fun q => q.tag == p.tag && q.st == .finished) = some p →
      (t.st = .draining → rest ≠ [] → NextDev (.unitCompletion refP) s (putTask { t with posts := rest } s.dev)) ∧
      (t.st = .draining → rest = [] → NextDev (.unitCompletion refP) s
        (schedule s.env t.eng (freeCtx t (putTask { t with posts := [] } s.dev)))) ∧
      (t.st = .ready ∨ t.st = .running → NextDev (.unitCompletion refP) s (putTask kept d1)) ∧
      (t.st = .waiting → t.wait = some w → (w.mask = 0 ∨ w.mask.getLsbD p.tag = true) →
        NextDev (.unitCompletion refP) s (makeReady s.env t.eng t.ctx
          (putTask { ((kept.setS w.d p.compl.result).setS w.e info).next with
            posts := kept.posts.filter (fun q => q.tag != p.tag), wait := none } d1)))) ∧
    ((groupOf s.dev g).draining = true →
      (∀ x ∈ s.dev.mea.tasks, x.group = BitVec.ofNat 16 g → x.epoch = (groupOf s.dev g).epoch) →
      NextDev (.groupDrained g) s (updGroup g (fun g => { g with draining := false })
        { s.dev with mea := { s.dev.mea with arrivals := s.dev.mea.arrivals.map (fun x =>
          if x.group.toNat = g then { x with epochHeld := false } else x) } }))) ∧
  (∀ (s : State) (r hook : TaskRef) (x h : Task) (p : Nat × Program × Nat) (off eng slot k i : Nat) (bs : List Byte) (rd : Rd)
    (code : Byte) (y : Slot) (w : LockReq),
    let n := min (capLen x.capsule) 1048576
    let word := (eng * 0x40000 + off) / 8
    let held : Option (W32 × Obj) := match slotAt s.dev k with | some z => z.current | none => none
    let granted := updSlot slot (fun z => { z with lock := some w.owner, waiters := z.waiters.filter (fun v => v != w) }) s.dev
    (serving s.dev r 0x0C = some x → x.kind ≠ .loop → hookFor s.dev 1 (capKsid x.capsule) = some p →
      x.job.phase = .start → x.job.lock = .held k → s.dev.trl.worn = false → frameEarly x.capsule held = none →
      p.2.1.quarantined = false → ctxFree s.dev hook false = true → vatOk s.dev hook x.group = true →
      fits s.dev p.2.1.wclass 0 = true →
      (fetchData s.dev x n rd = .wait → NextDev (.frameParser r hook off rd) s s.dev) ∧
      (fetchData s.dev x n rd = .fail code → NextDev (.frameParser r hook off rd) s
        (endJob s.env x scAbortedHost 0 false (bufferFail s.env x code s.dev))) ∧
      (fetchData s.dev x n rd = .data bs →
        h = { eng := hook.eng, ctx := hook.ctx, kind := .hook, prio := x.prio, source := 1, group := x.group,
              epoch := (groupOf s.dev x.group.toNat).epoch, wclass := p.2.1.wclass, program := BitVec.ofNat 16 p.1,
              capsule := x.capsule, key := x.key, accTick := x.accTick, arrNo := x.arrNo, pc := w32 p.2.2,
              hookOf := some x.arrNo, regions := [⟨1, off, 64 + n⟩] } →
      NextDev (.frameParser r hook off rd) s
        (startTask s.env h (2 ^ 60 + off) (64 + n) (keyHash (BitVec.ofNat 8 (capKsid x.capsule)) x.key)
          (park s.env x (putTask { x with job := { x.job with phase := .waitDrive, off := off, data := bs } }
            (copied x n { s.dev with mea := { s.dev.mea with
              fe := memStore (memZero s.dev.mea.fe off (64 + n)) (off + 64) bs } })))))) ∧
    (slotAt s.dev slot = some y → firstEligible y = some w → w.tag = none → ownerTask granted w.owner = some x →
      (w.owner.mem = none →
        NextDev (.slotLockGrant slot) s (putTask { x with job := { x.job with lock := .held slot } } granted)) ∧
      (w.owner.mem = some i → NextDev (.slotLockGrant slot) s
        (updMember x.eng x.ctx i (fun m => { m with job := { m.job with lock := .held slot } }) granted))) ∧
    (slotAt s.dev slot = some y → firstEligible y = some w → w.tag.isSome = true → 64 ≤ locksHeld s.dev w.owner →
      NextDev (.slotLockGrant slot) s s.dev) ∧
    (slotAt s.dev slot = some y → firstEligible y = none → NextDev (.slotLockGrant slot) s s.dev) ∧
    (taskOf s.dev r = some x → x.job.lock = .waiting slot → x.job.lockDue ≤ s.env.tick → x.job.phase = .start →
      x.completed = false → NextDev (.slotLockTimeout r) s
        (endJob s.env x (if wornStops s.dev x.capsule then scMediaWorn else scTimeout) 0 false s.dev)) ∧
    (eng < 96 → off < 0x40000 → NextDev (.lsScrubError eng off) s (setCause s.env 5 0x10 { s.dev with mea := { s.dev.mea with
      badWords := if s.dev.mea.badWords.contains word then s.dev.mea.badWords else s.dev.mea.badWords ++ [word] } })))

/-! ### Posts of the units (02, 03, 09, 12, 15) -/

/-- RECORD completes with the record's running number, SYNC once every earlier record is durable; a timer falls due at the
tick of the POST plus sA or at the tick sA names, at once where that has passed, and completes with that tick (R89, R434).
A loopback capsule that passes the checks of a command joins the arrivals of its parent's group as KIND 0x03, and one
that does not completes its post with the verdict (R61, R522). SEND_DATA and RECV_DATA of a chain command's task complete
with 0x15 when the flow has ended, be there another of its id, and 0x10 when its command has; else they send on the response
stream, or copy from the command's stream and consume the messages the bytes came in (R300, R301). -/
def Obligations.RecorderTimerTransportPosts : Prop :=
  (∀ (s : State) (p : PostRef) (t : Task) (x : Post) (n : Nat),
    let c := x.desc
    let r : Rec :=
      { code := c.setWidth 16, sev := fld c 20 4, cls := fld c 16 4, src := BitVec.ofNat 8 (fld c 88 8),
        p0 := BitVec.ofNat 32 (fld c 128 32), p1 := BitVec.ofNat 32 (fld c 160 32), p2 := BitVec.ofNat 32 (fld c 192 32) }
    let q := request s.env r s.dev
    let pc := postCost s.dev
    let sync := max s.dev.evr.durable (s.dev.evr.running - 1)
    (postOf s.dev p 5 0 = some (t, x) → NextDev (.record p) s (endPost p t pc 0 (BitVec.ofNat 64 q.2) q.1)) ∧
    (postOf s.dev p 5 1 = some (t, x) → NextDev (.sync p) s (endPost p t pc 0 (BitVec.ofNat 64 sync)
      { s.dev with evr := { s.dev.evr with durable := sync } })) ∧
    (postOf s.dev p 7 0 = some (t, x) → NextDev (.timerDelay p) s
      (updPost p (fun y => { y with st := .working, due := some (x.tick + x.addr.toNat) }) s.dev)) ∧
    (postOf s.dev p 7 1 = some (t, x) →
      (x.addr.toNat ≤ x.tick → NextDev (.timerAbsolute p) s (endPost p t pc 0 (BitVec.ofNat 64 x.tick) s.dev)) ∧
      (x.tick < x.addr.toNat → NextDev (.timerAbsolute p) s
        (updPost p (fun y => { y with st := .working, due := some x.addr.toNat }) s.dev))) ∧
    (taskAt s.dev p.eng p.ctx = some t →
      t.posts.find? (fun y => y.tag == p.tag && y.unit == 7 && y.st == .working) = some x → x.due = some n →
      (n ≤ s.env.tick → NextDev (.timerDue p) s (endPost p t pc 0 (BitVec.ofNat 64 n) s.dev)) ∧
      (s.env.tick < n → NextDev (.timerDue p) s s.dev)) ∧
    (∀ (code : BitVec 16) (w : RateWin), tblGet s.dev.evr.windows code.toNat = some w →
      w.start + w.secs * 25000000 ≤ s.env.tick → NextDev (.rateWindowClose code) s (closeWindow s.env code w s.dev))) ∧
  (∀ (s : State) (p : PostRef) (t : Task) (x : Post) (key : List Byte) (err : HostErr) (v : Byte × Word) (fl : Flow)
    (y : Inbound),
    let c := x.desc
    let src : Src := { kind := .loop, id := t.source.toNat, program := t.program, hookParent := t.kind == .hook,
                       bufLen := if hasHv t then segsLen t.sgl else 0 }
    let joins (k : List Byte) : Dev := joinArrival
      { no := 0, kind := .loop, capsule := c, source := BitVec.ofNat 16 (t.eng + 128 * t.ctx), group := t.group,
        prio := capPrio c, tick := s.env.tick, key := slice k 0 (capKlen c),
        sgl := (if hasBuffer c && hasHv t then sliceSegs t.sgl (capPtr c) (capLen c) else []), hostGen := t.hostGen,
        ordered := capOrdered c, parent := some p, opSrc := t.opSrc, opFlow := t.opFlow, program := t.program }
      (workPost p s.dev)
    let pc := postCost s.dev
    (postOf s.dev p 6 0 = some (t, x) →
      (checkEntry s.dev src c = some v → NextDev (.loopbackCapsule p (.ok key)) s (endPost p t pc v.1 v.2 s.dev)) ∧
      (checkEntry s.dev src c = none → needsKey s.dev c = true → s.dev.hqe.issues = true →
        NextDev (.loopbackCapsule p (.ok key)) s (joins key) ∧
        NextDev (.loopbackCapsule p (.fail err)) s
          (endPost p t pc scAbortedHost 0 (dataDmaFail s.env t.opSrc.toNat (capCid c) (errCode err) s.dev))) ∧
      (checkEntry s.dev src c = none → needsKey s.dev c = false →
        NextDev (.loopbackCapsule p (.ok key)) s (joins (((v512Bytes c).drop 32).take (capKlen c))))) ∧
    (postOf s.dev p 6 1 = some (t, x) →
      (flowOf s.dev t.source.toNat = none → NextDev (.sendData p) s (endPost p t pc 0x15 0 s.dev)) ∧
      (flowOf s.dev t.source.toNat = some fl → t.arrNo < fl.first → NextDev (.sendData p) s (endPost p t pc 0x15 0 s.dev)) ∧
      (flowOf s.dev t.source.toNat = some fl → fl.first ≤ t.arrNo → inboundOf s.dev t.source.toNat t.arrNo = none →
        NextDev (.sendData p) s (endPost p t pc 0x10 0 s.dev)) ∧
      (flowOf s.dev t.source.toNat = some fl → fl.first ≤ t.arrNo → inboundOf s.dev t.source.toNat t.arrNo = some y →
        NextDev (.sendData p) s (endPost p t pc 0 0
          (sendData s.env t.source.toNat t.arrNo (capCid t.capsule) (cap c 8 8) (bitOf (Config.freeWord s.dev.free) 0)
            (readFor t s.dev (cap c 0 8) (cap c 16 4)) { s.dev with free := s.dev.free + 1 })))) ∧
    (postOf s.dev p 6 2 = some (t, x) →
      (flowOf s.dev t.source.toNat = none → NextDev (.recvData p) s (endPost p t pc 0x15 0 s.dev)) ∧
      (flowOf s.dev t.source.toNat = some fl → t.arrNo < fl.first → NextDev (.recvData p) s (endPost p t pc 0x15 0 s.dev)) ∧
      (flowOf s.dev t.source.toNat = some fl → fl.first ≤ t.arrNo → inboundOf s.dev t.source.toNat t.arrNo = none →
        NextDev (.recvData p) s (endPost p t pc 0x10 0 s.dev)) ∧
      (flowOf s.dev t.source.toNat = some fl → fl.first ≤ t.arrNo → inboundOf s.dev t.source.toNat t.arrNo = some y →
        cap c 8 8 + cap c 16 4 ≤ y.bytes.length → NextDev (.recvData p) s (endPost p t pc 0 0
          (consumeBytes t.source.toNat t.arrNo (cap c 8 8) (cap c 8 8 + cap c 16 4) (throttledGroup s.dev t.group.toNat)
            (storeFor t (cap c 0 8) (slice y.bytes (cap c 8 8) (cap c 16 4)) s.dev))))))

/-- The CIPHER posts (R380–R383): FWD and INV count their blocks on an unsealed post, write to DST or to a sealed slot that
becomes the task's, and complete with 0x0A past the slot's usage limit; DERIVE fills a key slot; TAG_CHECK releases a sealed
slot on a match and else zeroes and frees it, with 0x0C and event 0x0D02; FREE and SEAL_FREE zero. A post that names what an
alarm zeroed completes with 0x07. -/
def Obligations.CipherPosts : Prop :=
  ∀ (s : State) (p : PostRef) (t : Task) (x : Post),
    let c := x.desc
    let k := cap c 0 2
    let len := cap c 4 4
    let slot := keySlot s.dev k
    let seals := bitOf c 16
    let hit (key slot : Bool) : Prop := alarmed s.dev t c key slot = true
    let past := seals = false ∧ 2 ^ min 32 (max 20 (fld s.dev.ccl.limit 0 6)) < slot.ops + len / 16
    let input := readFor t s.dev (cap c 8 8) len
    let out (op : List Byte → List Byte → List Byte) : List Byte :=
      if bitOf c 17 then xorBytes (blocks (op slot.key) input) (readFor t s.dev (cap c 16 8) len)
      else blocks (op slot.key) input
    let counted : Dev := if seals then s.dev else updKey k (fun q => { q with ops := q.ops + len / 16 }) s.dev
    let placed (bs : List Byte) : Dev :=
      if seals then
        { counted with ccl := { counted.ccl with
                                  sealed := tblSet counted.ccl.sealed (cap c 24 8) { released := false, owner := t.owner } },
                       mea := { counted.mea with fe := memStore counted.mea.fe (0xB000000 + cap c 24 8 * 0x10000) bs } }
      else storeFor t (cap c 24 8) bs counted
    let label := readFor t s.dev (cap c 8 8) 32
    let ks := ksOf s.dev (leAt label 1 1)
    let filled : Dev := { s.dev with ccl := { s.dev.ccl with alarmKeys := s.dev.ccl.alarmKeys.filter (· != k) } }
    let pad := xorBytes (slice (v512Bytes c) 48 16) (aesEnc slot.key (readFor t s.dev (cap c 8 8) 16))
    (postOf s.dev p 2 0 = some (t, x) → hit true seals → NextDev (.fwd p) s (endCipher p t 0 0x07 s.dev)) ∧
    (postOf s.dev p 2 0 = some (t, x) → ¬ hit true seals → ¬ past → NextDev (.fwd p) s (endCipher p t len 0 (placed (out aesEnc)))) ∧
    (postOf s.dev p 2 1 = some (t, x) → ¬ hit true seals → ¬ past → NextDev (.inv p) s (endCipher p t len 0 (placed (out aesDec)))) ∧
    (postOf s.dev p 2 1 = some (t, x) → ¬ hit true seals → past → NextDev (.inv p) s (endCipher p t 0 0x0A (setCause s.env 13 4 s.dev))) ∧
    (postOf s.dev p 2 2 = some (t, x) →
      (cap c 32 1 = 0 → NextDev (.derive p) s (endCipher p t 0 0 (updKey k (fun _ =>
        { key := deriveKey drkBytes label, ops := 0, ksid := BitVec.ofNat 8 (leAt label 1 1) }) filled))) ∧
      (cap c 32 1 = 1 → ks.locked = false → ks.ksr ≠ [] → NextDev (.derive p) s (endCipher p t 0 0 (updKey k (fun _ =>
        { key := deriveKey ks.ksr label, ops := 0, ksid := BitVec.ofNat 8 (leAt label 1 1) }) filled))) ∧
      (cap c 32 1 = 1 → ks.locked = true ∨ ks.ksr = [] → NextDev (.derive p) s (endCipher p t 0 0x0E s.dev))) ∧
    (postOf s.dev p 2 3 = some (t, x) → hit true true → NextDev (.tagCheck p) s (endCipher p t 0 0x07 (freeSealed [cap c 24 8] s.dev))) ∧
    (postOf s.dev p 2 3 = some (t, x) → ¬ hit true true →
      (pad = slice (v512Bytes c) 32 16 → NextDev (.tagCheck p) s (endCipher p t 16 0 { s.dev with ccl := { s.dev.ccl with
        sealed := s.dev.ccl.sealed.map (fun q => if q.1 == cap c 24 8 then (q.1, { q.2 with released := true }) else q) } })) ∧
      (pad ≠ slice (v512Bytes c) 32 16 → NextDev (.tagCheck p) s (endCipher p t 16 0x0C
        (event s.env 0x0D02 5 clsSecurity 0 slot.ksid.toNat
          ((keyHash (BitVec.ofNat 8 (capKsid t.capsule)) t.key).toNat % 2 ^ 32)
          (leAt (readFor t s.dev (cap c 8 8) 16) 4 4) (setCause s.env 13 1 (freeSealed [cap c 24 8] s.dev)))))) ∧
    (postOf s.dev p 2 4 = some (t, x) → ¬ hit true false → NextDev (.free p) s
      (endCipher p t 0 0 { s.dev with ccl := { s.dev.ccl with keys := tblErase s.dev.ccl.keys k } })) ∧
    (postOf s.dev p 2 5 = some (t, x) → ¬ hit false true → NextDev (.sealFree p) s (endCipher p t 0 0 (freeSealed [cap c 24 8] s.dev)))

/-- The key directory's posts (R221, R224–R226): LOOKUP copies a LIVE slot and gives its version, else 0x03; LOCK takes a
free lock at once or waits; COMMIT installs a record under the version given or the next one, and the slot is LIVE with that
record, version and flags and the task's OBJ_ID; UNLOCK releases; REMOVE frees the slot under the next version; SEQ
reserves a run; SCAN lists LIVE slots by hash. A COMMIT, REMOVE or SEQ whose version would pass the durable mark waits for
a new mark (R234). -/
def Obligations.DirectoryPosts : Prop :=
  ∀ (s : State) (p : PostRef) (t : Task) (x : Post) (n : Nat) (y z : Slot) (d2 : Dev),
    let c := x.desc
    let key := readFor t s.dev (cap c 8 8) (cap c 1 1)
    let ksid : Byte := BitVec.ofNat 8 (cap c 0 1)
    let h : Word := if bitOf c 16 then BitVec.ofNat 64 (cap c 16 8) else keyHash ksid key
    let d1 := countProbe ksid h key s.dev
    let pc := postCost s.dev
    let k := y.ksid.toNat
    let run := takeVer s.env k s.dev
    let held (q : Nat × Dev) : Dev :=
      updTask t.eng t.ctx (fun z => { z with job := { z.job with heldIds := z.job.heldIds ++ [q.1] } }) q.2
    let hits := (listSlots s.dev (cap c 0 1) (cap c 16 8)).filter (fun z => key.isPrefixOf z.key)
    (postOf s.dev p 4 0 = some (t, x) →
      (findSlot s.dev ksid h key = some (n, y) → y.live = true → NextDev (.lookup p) s
        (endPost p t (postCost s.dev) 0 (BitVec.ofNat 64 y.version.toNat) (copyOut t c (slotBytes y) d1))) ∧
      (findSlot s.dev ksid h key = none → NextDev (.lookup p) s (endPost p t pc 3 0 d1))) ∧
    (postOf s.dev p 4 1 = some (t, x) → findOrInsert ksid h key d1 = some (n, d2) → slotAt d2 n = some y →
      (y.waiters = [] → y.lock = none → y.reservation = none ∨ y.reservation = some t.owner → locksHeld d2 t.owner < 64 →
        NextDev (.lock p) s (endPost p t (postCost (takeLock n t.owner d2)) 0 (BitVec.ofNat 64 n)
          (copyOut t c (slotBytes { y with lock := some t.owner }) (takeLock n t.owner d2)))) ∧
      (y.lock.isSome = true → NextDev (.lock p) s (workPost p (updSlot n (fun y => { y with waiters := y.waiters ++
        [⟨t.owner, some p.tag, if cap c 4 4 = 0 then none else some (s.env.tick + cap c 4 4), false⟩] }) d2)))) ∧
    (postOf s.dev p 4 1 = some (t, x) → findOrInsert ksid h key d1 = none →
      NextDev (.lock p) s (endPost p t pc 5 0 (probeLimit s.env ksid h d1))) ∧
    (postOf s.dev p 4 2 = some (t, x) → slotAt s.dev (cap c 24 8) = some y →
      let rec_ : Word := BitVec.ofNat 64 (cap c 32 8)
      let put (v : W32 × Dev) : Dev := commitRecord s.env t (cap c 24 8) y v.1 rec_ (BitVec.ofNat 8 (cap c 44 1)) v.2
      let does (v : W32 × Dev) : Prop := NextDev (.commit p) s
        (endPost p t pc 0 (BitVec.ofNat 64 v.1.toNat) (dropLock (cap c 24 8) (put v)))
      (cap c 40 4 ≠ 0 → does (BitVec.ofNat 32 (cap c 40 4), s.dev)) ∧
      (cap c 40 4 = 0 → runAllowed s.dev k 1 = true → does run) ∧
      (cap c 40 4 = 0 → runAllowed s.dev k 1 = false → NextDev (.commit p) s (ensureMark k 1 s.dev)) ∧
      (∀ v : W32, slotAt (put (v, s.dev)) (cap c 24 8) = some z →
        z.live = true ∧ z.version = v ∧ z.record = rec_ ∧ z.sflags = BitVec.ofNat 8 (cap c 44 1) ∧ z.key = y.key ∧
        z.objId = if t.job.objId ≠ 0 then t.job.objId else leAt (recordAt s.dev rec_) 16 6)) ∧
    (postOf s.dev p 4 3 = some (t, x) → NextDev (.unlock p) s (endPost p t pc 0 0 (dropLock (cap c 24 8) s.dev))) ∧
    (postOf s.dev p 4 4 = some (t, x) → slotAt s.dev (cap c 24 8) = some y → runAllowed s.dev k 1 = true →
      NextDev (.remove p) s (endPost p t pc 0 (BitVec.ofNat 64 run.1.toNat)
        (dropLock (cap c 24 8) (held (uninstall t (cap c 24 8) run.1 run.2))))) ∧
    (postOf s.dev p 4 4 = some (t, x) → slotAt s.dev (cap c 24 8) = some y → runAllowed s.dev k 1 = false →
      NextDev (.remove p) s (ensureMark k 1 s.dev)) ∧
    (postOf s.dev p 4 5 = some (t, x) → runAllowed s.dev (cap c 0 1) (cap c 4 4) = false →
      NextDev (.seq p) s (ensureMark (cap c 0 1) (cap c 4 4) s.dev)) ∧
    (postOf s.dev p 4 5 = some (t, x) → runAllowed s.dev (cap c 0 1) (cap c 4 4) = true →
      let r := takeRun s.env (cap c 0 1) (cap c 4 4) s.dev
      NextDev (.seq p) s (endPost p t pc 0 (BitVec.ofNat 64 r.1.toNat) r.2)) ∧
    (postOf s.dev p 4 6 = some (t, x) → NextDev (.scan p) s (endPost p t pc 0
      (match hits[cap c 4 4]? with | some z => z.hash | none => 0)
      (copyOut t c ((hits.take (cap c 4 4)).flatMap slotBytes) s.dev)))

/-! ### Calender, staging, media and translation, couch engine (06, 07, 10) -/

/-- The CAL posts on a lane in service (R193–R196, R201, R202): ENCODE_TILE and ENCODE_BYTES store a coded form no longer
than the raw data, itself uncoded with RAW set where the coded form would not be smaller; the second verify failure of a
lossy tile, and one of whose pixels the table's test fails, completes with 0x13, and a lossless tile that fails its verify under VERIFY_LOSSLESS is held uncoded; the decode kinds store the decoded data, or complete with 0x0B.
STAGING_GRANT grants the first waiting calender request that fits, else the first waiting ROI request that fits
(R203). -/
def Obligations.CalenderAndStaging : Prop :=
  (∀ (s : State) (p : PostRef) (t : Task) (x : Post) (lane px1 px2 : Nat), laneOn s.dev lane = true →
    let c := x.desc
    let mode := cap c 0 1
    let ptype := cap c 1 1
    let b := bpp ptype
    let w := cap c 2 2
    let h := cap c 4 2
    let pitch := if cap c 16 4 = 0 then w * b else cap c 16 4
    let v := pixelsOf b (bitOf c 48) (w * h) (readLines t s.dev (cap c 8 8) (w * b) pitch h)
    let v' := v.map (recon ptype mode (cap c 20 4) (cap c 24 4))
    let unmet := firstUnmet ptype mode (cap c 20 4) (cap c 24 4) v v'
    let raw := pixelBytes ptype v'
    let f := codedForm mode raw (chargeEncode raw.length s.dev)
    let piece := readFor t s.dev (cap c 8 8) (cap c 16 4)
    let g := codedForm 1 piece (chargeEncode piece.length s.dev)
    let dec := decodedForm (w * h * b) piece s.dev
    let out := decodedPiece (cap c 28 4) piece s.dev
    let res (n : Nat) (r e : Bool) : Word := BitVec.ofNat 64 (n + (if r then 2 ^ 32 else 0) + (if e then 2 ^ 33 else 0))
    (postOf s.dev p 1 0 = some (t, x) →
      ((lossy mode = true → unmet = none) → NextDev (.encodeTile p lane .pass) s (finishPost p 0 (res f.1.length f.2.1 (v == v'))
        (countTiles 1 (if f.2.1 then 1 else 0) (storeFor t (cap c 32 8) f.1 f.2.2)))) ∧
      f.1.length ≤ raw.length ∧ (f.2.1 = true → f.1 = raw) ∧
      (lossy mode = true → ∀ how : Verify, (how = .failed px1 px2 ∨ unmet.isSome = true) →
        Does (.encodeTile p lane how) s (fun q =>
          ∃ d, q = { s with dev := finishPost p 0x13 0 d } ∧ d.mea = s.dev.mea ∧ d.cal.tiles = s.dev.cal.tiles)) ∧
      (lossy mode = false → bitOf s.dev.cal.ctrl 0 = true →
        NextDev (.encodeTile p lane (.retried px1)) s (finishPost p 0 (res raw.length true (v == v'))
          (countTiles 1 1 (storeFor t (cap c 32 8) raw
            (chargeEncode raw.length (losslessFallback s.env lane mode ptype s.dev))))))) ∧
    (postOf s.dev p 1 2 = some (t, x) →
      NextDev (.encodeBytes p lane) s (finishPost p 0 (res g.1.length g.2.1 true)
        (countTiles 1 (if g.2.1 then 1 else 0) (storeFor t (cap c 32 8) g.1 g.2.2))) ∧ g.1.length ≤ piece.length) ∧
    (postOf s.dev p 1 1 = some (t, x) →
      NextDev (.decodeTile p lane true) s (finishPost p 0 (BitVec.ofNat 64 (w * h * b)) (chargeDecode (w * h * b)
        (writeLines t (cap c 32 8) (w * b) (if cap c 40 4 = 0 then w * b else cap c 40 4) h dec.1 dec.2))) ∧
      NextDev (.decodeTile p lane false) s (unitDecodeError s.env p t lane s.dev)) ∧
    (postOf s.dev p 1 3 = some (t, x) →
      NextDev (.decodeBytes p lane true) s (finishPost p 0 (BitVec.ofNat 64 out.1.length)
        (chargeDecode out.1.length (storeFor t (cap c 32 8) out.1 out.2))) ∧
      NextDev (.decodeBytes p lane false) s (unitDecodeError s.env p t lane s.dev))) ∧
  (∀ (s : State) (w : StageReq),
    let mark : Dev := { s.dev with flt := { s.dev.flt with
      waits := s.dev.flt.waits.map (fun x => if x == w then { x with granted := true } else x) } }
    (stageFirst s.dev false = some w → stageFits s.dev false w.bytes = true → NextDev .stagingGrant s mark) ∧
    (stageFirst s.dev false = none → stageFirst s.dev true = some w → stageFits s.dev true w.bytes = true →
      NextDev .stagingGrant s mark))

/-- The calender's bounds hold by construction. Of an integer pixel v, CAL3 with PARAM E gives min(q × (2E + 1), vmax) with
q = ⌊(v + E) / (2E + 1)⌋ and stays within E of it (R187); CAL4 with PARAM P passes the test 16,384 × (v′ − v)² ≤ P² × v
(R194); CAL5 gives ((v >> m) << m) | (1 << (m − 1)), within 2^(m − 1) and not above vmax, and 2^(m − 1) for a pixel of 0
(R189); modes 0–2 give v; a floored pixel gives 0, and FLOOR leaves every other to its mode (R191). -/
def Obligations.CalenderBounds : Prop :=
  ∀ (ptype v e m floorT mode : Nat),
    let top := [255, 65535, 4294967295].getD ptype 0
    ptype ≤ 2 → v ≤ top →
    (mode ≤ 2 → recon ptype mode e floorT v = v) ∧
    (1 ≤ e → e ≤ 1073741824 →
      let r := recon ptype 3 e floorT v
      r = min ((v + e) / (2 * e + 1) * (2 * e + 1)) top ∧ r ≤ v + e ∧ v ≤ r + e) ∧
    (8 ≤ e → e ≤ 256 →
      let r := recon ptype 4 e floorT v
      r ≤ top ∧ 16384 * ((r : Int) - v) * ((r : Int) - v) ≤ e * e * v) ∧
    (1 ≤ m → m < 8 * bpp ptype →
      let r := recon ptype 5 m floorT v
      r = (v >>> m <<< m ||| 1 <<< (m - 1)) ∧ r ≤ v + 2 ^ (m - 1) ∧ v ≤ r + 2 ^ (m - 1) ∧ r ≤ top ∧
        (v = 0 → r = 2 ^ (m - 1))) ∧
    (2 ≤ mode → mode ≤ 5 →
      recon ptype (16 + mode) e floorT v = if v ≤ floorT then 0 else recon ptype mode e floorT v)

/-- The MEDIA posts (R228): READ stores the sheets and, where asked, their tags, and RESULT gives the highest retry level and the
method of recovery, or it completes with 0x0B where a sheet is unrecoverable; WRITE places sheets and stores their addresses, and
with DURABLE goes on until they are on media; ERASE wears and empties the block, with its record in the journal (R232), or completes
with 0x0B; READ_RAW completes with 0x00 and bytes the manual leaves open, and counts its reads (R242; log 4). -/
def Obligations.MediaPosts : Prop :=
  ∀ (s : State) (p : PostRef) (t : Task) (x : Post) (psas : List Nat) (ends : List ReadEnd) (d1 : Dev),
    let c := x.desc
    let n := cap c 2 2
    let run := psaRun s.dev (cap c 8 8) n
    let slc := match reamOf s.dev (cap c 8 8) with | some (_, r) => r.slc | none => false
    let read := readPages s.env run ends (chargeClass t (readClass t) (readUnits s.dev run) s.dev)
    let level := (read.1.map (fun y => y.2.2)).foldl max 0
    let method := (read.1.map (fun y => endMethod y.2.1)).foldl max 0
    let got := sheetsAt run read.2
    let stored := storeFor t (cap c 16 8) (got.1.flatMap (fun q => slice q.data 0 4096)) got.2
    let tagged := if cap c 24 8 = 0 then stored
      else storeFor t (cap c 24 8) (got.1.flatMap (fun q => natLe 16 q.tag.toNat)) stored
    let stream := cap c 0 1
    let wslc := wantsSlc s.dev stream (bitOf c 9)
    let sheets : List Sheet := (List.range n).map (fun i =>
      ⟨readFor t s.dev (cap c 16 8 + 4096 * i) 4096, BitVec.ofNat 128 (leNat (readFor t s.dev (cap c 24 8 + 16 * i) 16)),
        false⟩)
    let units := energyFlat (if wslc then 8200000 else 10500000) n 1
    let put := storeFor t (cap c 32 8) (psas.flatMap (natLe 8)) d1
    let paid := chargeClass t (writeClass put t stream) units put
    (postOf s.dev p 3 0 = some (t, x) →
      ((∀ y ∈ read.1, y.2.1 ≠ .unrecoverable) →
        NextDev (.mediaRead p ends) s (finishPost p 0 (BitVec.ofNat 64 (level + 16 * method)) tagged)) ∧
      ((∃ y ∈ read.1, y.2.1 = .unrecoverable) → NextDev (.mediaRead p ends) s (finishPost p 0x0B 0 read.2))) ∧
    (postOf s.dev p 3 1 = some (t, x) → (3 ≤ stream ∨ freeUrgent s.dev ≤ freeReams s.env s.dev) →
      placeSheets s.env stream wslc sheets s.dev = some (psas, d1) →
      (bitOf c 8 = false → NextDev (.mediaWrite p) s (finishPost p 0 0 paid)) ∧
      (bitOf c 8 = true → NextDev (.mediaWrite p) s (updPost p (fun y => { y with st := .working, psas := psas }) put))) ∧
    (postOf s.dev p 3 2 = some (t, x) →
      let erased := chargeFor t.wclass t.group (energyFlat 200000000 1 1) s.dev
      let dead := psaDieKey (cap c 8 8) ∈ s.dev.trl.failedDies
      (¬ dead → NextDev (.mediaErase p true) s (finishPost p 0 0 (addJournal .erased (cap c 8 8) 1 0 (wearBlock (cap c 8 8) slc erased)))) ∧
      (¬ dead → NextDev (.mediaErase p false) s (finishPost p 0x0B 0 (eraseFailed s.env (cap c 8 8)
        ((Config.freeWord erased.free).setWidth 32) { erased with free := erased.free + 1 }))) ∧
      (dead → ∀ good : Bool, NextDev (.mediaErase p good) s (finishPost p 0x0B 0 erased))) ∧
    (postOf s.dev p 3 3 = some (t, x) →
      let r := takeFreeBytes (4096 * n) (countReads run (chargeClass t (readClass t) (readUnits s.dev run) s.dev))
      NextDev (.readRaw p) s (finishPost p 0 0 (storeFor t (cap c 16 8) r.1 r.2)))

/-- What the dies report (R211–R213, R244, R246): a closed quire programmed is on media and its sheets are held no more; open
quires whose time has run out, or that hold what something waits for, close with pad sheets; a failed erase retires its
block; a program failure marks its block, data member's or parity member's, and where the quire was not yet programmed closes
and refreshes the ream and places the quire's data again; a failed die leaves its group.
The translation layer's own work while the drive is ACTIVE (R230, R231, R233, R236, R240–R243, R247, R403): broke reclaims a
deleted keyspace, rebuilds a ream of a failed die's group or takes a ream, before WORN and under it; broke, a fold, a refresh and a
wear-levelling move claim one ream each under their class, an open one once it is closed; patrol reads a programmed page
once in a pass; a checkpoint round writes the segments due, all that remain when the journal is full, and ends when they are on
media. -/
def Obligations.MediaUpkeep : Prop :=
  (∀ (s : State) (ream quire psa channel die : Nat) (st : W32) (x : Ream),
    let dies := reamDies ream x
    let done := updReam ream (fun x => { x with programmedQ := x.programmedQ ++ [quire] })
      { s.dev with trl := { s.dev.trl with
          mediaWritten := s.dev.trl.mediaWritten + 16384 * wlPages x.slc * (x.members.length + 1),
          dieFails := s.dev.trl.dieFails.filter (fun e => !dies.contains e.1) } }
    let marked := updBlock (psaBlockKey psa) (fun b => { b with retireQ := some (b.retireQ.getD 2) })
      (event s.env 0x0B05 3 clsMedia (psaChannel psa) (psa % 2 ^ 32) (psa / 2 ^ 32) st.toNat (setCause s.env 11 2 s.dev))
    let filled := if partDue s.env s.dev then placeAll s.env true s.dev else s.dev
    let q := psaPage psa / wlPages x.slc
    let quit := updReam ream (fun x => { x with refreshQ := some (x.refreshQ.getD 2), closedQ := x.closedQ.filter (· != q) })
      (closeReam ream (padQuire s.env ream marked))
    (tblGet s.dev.trl.reams ream = some x → quire ∈ x.closedQ → quire ∉ x.programmedQ →
      NextDev (.quireProgrammed ream quire) s (onMediaNow s.env done)) ∧
    NextDev .quireClose s ((filled.trl.reams.filter (quireDue s.env filled)).foldl (fun d r => padQuire s.env r.1 d) filled) ∧
    (psaOk s.dev psa = true → NextDev (.eraseFail psa st) s (eraseFailed s.env psa st s.dev)) ∧
    (psaOk s.dev psa = true → reamOf marked psa = none → NextDev (.programFail psa st) s (dieFailure s.env psa marked)) ∧
    (psaOk s.dev psa = true → reamOf marked psa = some (ream, x) →
      (q ∈ x.programmedQ → NextDev (.programFail psa st) s (dieFailure s.env psa marked)) ∧
      (q ∉ x.programmedQ → NextDev (.programFail psa st) s
        (dieFailure s.env psa (loseUnplaced s.env (replaceQuire s.env ream x q quit))))) ∧
    (psaOk s.dev psa = false → NextDev (.programFail psa st) s s.dev ∧ NextDev (.eraseFail psa st) s s.dev) ∧
    (channel < 32 → die < 24 → NextDev (.dieFailed channel die) s (failDie s.env channel die s.dev))) ∧
  (∀ (s : State) (r psa bits dst g k : Nat) (x : Ream) (e : ReadEnd), internalWork s.env s.dev = true →
    let go := advanceMoves s.env s.dev
    let claimed (o : ReamOwner) (cls : Nat) : Dev :=
      startMove s.env r o cls none (if x.st = .open then closeReam r (padQuire s.env r go) else go)
    let pass := patrolPass s.env s.dev
    let seen := pageRead s.env psa e (charge 7 (energyFlat (if x.slc then 1300000 else 2400000) 4 1)
      { pass with trl := { pass.trl with patrolled := psa / 4 :: pass.trl.patrolled } })
    let since := s.env.tick - s.dev.trl.roundFrom
    let due := min 608 (608 * since / (min 3600 (max 60 (fld s.dev.trl.ckptReg 0 16)) * 25000000))
    let worn := if spaceWorn s.env go then enterWorn s.env 2 0 go else go
    (reclaimNext go = some k → NextDev .broke s (reclaimKs k go)) ∧
    (reclaimNext go = none → rebuildNext go = some (r, x) → NextDev .broke s (startMove s.env r .retirement 6 none go)) ∧
    (reclaimNext go = none → rebuildNext go = none → freeLow go ≤ freeReams s.env go → NextDev .broke s go) ∧
    (reclaimNext go = none → rebuildNext go = none → freeReams s.env go < freeLow go →
      ((∀ m ∈ worn.trl.moves, m.owner ≠ .broke) → brokeVictim worn = some (r, x) →
        NextDev .broke s (startMove s.env r .broke 6 none worn)) ∧
      ((∃ m ∈ worn.trl.moves, m.owner = .broke) ∨ brokeVictim worn = none → NextDev .broke s worn)) ∧
    (burstHeld go ≠ 0 → go.trl.lastHostWrite + 2500000 ≤ s.env.tick →
      (go.trl.reams.filter (fun q => q.2.slc && q.2.stream < 3 && !owned go q.1 && q.2.refreshQ.isNone)).find?
        (fun q => q.2.st == .closed) = some (r, x) →
      NextDev .fold s (claimed .fold 6)) ∧
    (go.trl.reams.find? (fun q => q.2.refreshQ.isSome && !owned go q.1) = some (r, x) → NextDev .refresh s (claimed .refresh 7)) ∧
    (reamOf pass psa = some (r, x) → psaOk pass psa = true → psaPage psa / wlPages x.slc ∈ x.programmedQ →
      psa / 4 ∉ pass.trl.patrolled → NextDev (.patrol psa ⟨bits, e⟩) s
        (if fld pass.trl.patrolReg 8 10 < bits then queueRefresh psa 3 seen else seen)) ∧
    (g < 48 → g ∉ go.trl.retiredGroups → freeReams s.env go ≠ 0 → (∀ k, k < g → wearSpread go k = false) → wearSpread go g = true →
      leastWorn go g = some (r, x) → mostWornFree go g = some dst → reamWear go r x.all < reamWear go dst (livePos go g) →
      NextDev .wearLevel s (startMove s.env r .wear 8 (some dst) (startReam s.env dst 3 false go))) ∧
    NextDev .checkpointRound s (finishRound s.env (writeSegments s.env (due - s.dev.trl.segs.length) s.dev)) ∧
    (2 ^ 30 * min 16 (max 4 (fld s.dev.trl.ckptReg 16 8)) ≤ journalBytes s.dev →
      NextDev .journalMax s (finishRound s.env (writeSegments s.env (608 - s.dev.trl.segs.length) s.dev))))

/-- The order of a relocation (R237–R240). A ream with an owner is not taken by another. What is copied is on media before REMAP
records are made, and these are durable before the ream's holds are waited for; no PSA of the ream is held by a read when
ERASE_PENDING is journaled, and that is durable before the ream is erased and free: until then it stays in the table. A
REMAP acts on what still names its source alone: a slot whose map and RECORD do not name it keeps its object. -/
def Obligations.RelocationOrder : Prop :=
  ∀ (env : Env) (d : Dev) (m : Move) (t : Task) (x : Ream) (r cls p q n : Nat) (o : ReamOwner) (dst : Option Nat) (y : Slot),
    (owned d r = true → startMove env r o cls dst d = d) ∧
    (moveTask d m = some t → tblGet d.trl.reams m.ream = some x →
      (m.st = .copying → (∃ e ∈ m.moves, psaOnMedia d e.2 = false) → advanceMove env m d = d) ∧
      (m.st = .copying → (∀ e ∈ m.moves, psaOnMedia d e.2 = true) → (advanceMove env m d).kdr = (remap m.moves d).kdr) ∧
      (m.st = .remapping → m.moves ≠ [] → d.trl.jDurable < m.seq → advanceMove env m d = d) ∧
      (m.st = .holding → (∃ a ∈ heldPsas d, inReam d m.ream a = true) → advanceMove env m d = d) ∧
      (m.st = .erasing → d.trl.jDurable < m.seq → advanceMove env m d = d) ∧
      (m.st = .copying ∨ m.st = .remapping ∨ m.st = .holding → (advanceMove env m d).trl.reams = d.trl.reams)) ∧
    (slotAt d n = some y → recordPsa y ≠ some p → (∀ b, y.obj = some b → (∀ e ∈ b.map, e.2 ≠ .psa p) ∧ ∀ e ∈ b.coded, e.loc ≠ .psa p) →
      slotAt (renamePsa p q d) n = some y)

/-- The couch engine's commands (R311, R312, R323, R327, R339–R341): a post joins the pending list of its priority, a user
post never above its task's; an idle channel takes the oldest of the highest; a channel reads and checks NEXT; the beat
path writes the beat of the channel it is granted to, each byte what its source holds, or held before the descriptor wrote
over it; a beat waiting AGE_TICKS ages its channel; a read beyond TIMEOUT fails its beat with 0x10, never past the PCIe
completion timeout; a late completion is counted and discarded.
Reads the drive makes of host memory end (R97, R126, R127, R326): a couch read's data is staged, or its beat fails, as it does
past the completion timeout whatever comes; a lease page that passes its checks ends its read, one that fails them is
rebuilt and the read repeated, and a failed or late read ends the lease with reason 2. -/
def Obligations.CouchAndHostReads : Prop :=
  (∀ (s : State) (p : PostRef) (t : Task) (x : Post) (ch pos : Nat) (e : Pend) (r : HRead) (l : LateRead) (bs : List Byte), ch < 64 →
    let me := chanOf s.dev ch
    let prio := fld x.desc 8 3
    let from_ (d : Dev) : Dev := { d with cch := { d.cch with pend := d.cch.pend.filter (fun y => y.post != e.post) } }
    let taken : Dev := updChan ch (fun c =>
      { st := .fetch, prio := e.prio, vendor := e.vendor, eng := e.post.eng, ctx := e.post.ctx, tag := e.post.tag,
        descAddr := e.addr, rights := e.rights, records := c.records }) (from_ s.dev)
    let desc := descAt s.dev t me.descAddr 64
    let d := refill s.env s.dev
    let c := chanOf d ch
    let out := beatBytes c bs d
    let moved := storeBeat c out.1 (preempt ch out.2)
    (postOf s.dev p 0 0 = some (t, x) → NextDev (.copy p) s (workPost p { s.dev with cch := { s.dev.cch with
      pend := s.dev.cch.pend ++ [⟨if t.program = 0 then prio else min prio t.prio, t.program == 0, p, x.desc, x.addr,
        rightsOf s.dev t⟩] } })) ∧
    (me.st = .idle → nextPend s.dev ch = some e → NextDev (.channelTakePost ch) s (beginDesc s.env ch e.desc taken)) ∧
    (me.st = .fetch → taskAt s.dev me.eng me.ctx = some t →
      (linkOk s.dev t me.rights me.descAddr desc = true → NextDev (.linkedDescriptorRead ch) s (beginDesc s.env ch desc s.dev)) ∧
      (linkOk s.dev t me.rights me.descAddr desc = false → NextDev (.linkedDescriptorRead ch) s (badLink s.env ch s.dev))) ∧
    (pickChan d = some ch → sourceBad d c false = false → ¬ (cdHostDst c.desc = true ∧ busState d = .off) →
      beatData d c = some bs → NextDev (.beatGrant false) s (settleChan s.env ch (issueReads s.env ch 64
        (updChan ch (fun q => { q with done := q.done + out.1.length, aged := false, readySince := s.env.tick,
                                       old := q.old ++ overwritten d c out.1.length,
                                       remain := if cdHostSrc q.desc then q.remain else q.remain - out.1.length,
                                       reads := q.reads.filter (fun r => r.pos != q.done) })
          { moved with cch := { moved.cch with beats := moved.cch.beats + 1, bytes := moved.cch.bytes + out.1.length,
                                               lastGrant := ch, grants := vset moved.cch.grants c.prio ch } })))) ∧
    (∀ i : Nat, ∀ b : Byte, bs[i]? = some b →
      let a := ((srcSide c.desc).at c.done).toNat + i
      (oldByte c.old a = none → out.1[i]? = some b) ∧
      (∀ v : Byte, oldByte c.old a = some v → out.1[i]? = some b ∨ out.1[i]? = some v)) ∧
    (beatReady s.dev me = true → me.readySince + max 250 (fld s.dev.cch.ctrl 0 16) ≤ s.env.tick →
      NextDev (.ageTicksExpiry ch) s (updChan ch (fun q => { q with aged := true }) s.dev)) ∧
    (ctoTicks s.dev < 250 * cap me.desc 4 2 → NextDev (.descTimeout ch) s s.dev) ∧
    (me.st = .run → cap me.desc 4 2 ≠ 0 → 250 * cap me.desc 4 2 ≤ ctoTicks s.dev →
      me.reads.find? (fun q => q.data.isNone && q.tick + 250 * cap me.desc 4 2 ≤ s.env.tick) = some r →
      NextDev (.descTimeout ch) s (settleChan s.env ch (failBeat ch r.pos 0x10 s.dev))) ∧
    (me.records.find? (fun q => q.pos == pos && q.tick + ctoTicks s.dev ≤ s.env.tick) = some l →
      NextDev (.completionTimeout (.couch ch pos)) s
        (recordsFreed s.env ch (updChan ch (fun q => { q with records := q.records.erase l }) s.dev))) ∧
    (me.records.filter (fun q => q.pos == pos && s.env.tick < q.tick + ctoTicks s.dev) = [l] →
      NextDev (.lateCompletion ch pos) s (recordsFreed s.env ch
        (updChan ch (fun q => { q with records := q.records.erase l })
          (event s.env 0x0902 2 clsProtocol l.vat ch l.did l.pos
            (setCause s.env 9 4 { s.dev with cch := { s.dev.cch with late := s.dev.cch.late + 1 } })))))) ∧
  (∀ (s : State) (ch pos page : Nat) (bs : List Byte) (rd : Rd) (err : HostErr) (r : HRead) (l : Nat × Nat),
    let lost (code : Byte) := loseLease s.env 2 (noteAer code s.dev)
    let page_ := slice bs 0 2112
    let bits := (if (crcStd (page_.take 2060)).toNat = leAt page_ 2060 4 then 0 else 1) +
      (if leAt page_ 2056 4 = s.dev.hqe.lease.gen.toNat then 0 else 2) + (if leAt page_ 2048 8 = page then 0 else 4)
    ((chanOf s.dev ch).reads.find? (fun q => q.pos == pos && q.data.isNone) = some r →
      (s.env.tick < r.tick + ctoTicks s.dev →
        NextDev (.hostReadCompletion (.couch ch pos) (.ok bs)) s (updChan ch (fun c => { c with
          readySince := if pos = (chanOf s.dev ch).done then s.env.tick else c.readySince,
          reads := c.reads.map (fun q => if q.pos == pos then { q with data := some (.ok bs) } else q) }) s.dev) ∧
        NextDev (.hostReadCompletion (.couch ch pos) (.fail err)) s (readFailed s.env ch pos (errCode err) s.dev)) ∧
      (r.tick + ctoTicks s.dev ≤ s.env.tick →
        NextDev (.hostReadCompletion (.couch ch pos) rd) s (readFailed s.env ch pos 0x11 s.dev) ∧
        ((chanOf s.dev ch).records.find? (fun q => q.pos == pos && q.tick + ctoTicks s.dev ≤ s.env.tick) = none →
          NextDev (.completionTimeout (.couch ch pos)) s (readFailed s.env ch pos 0x11 s.dev)))) ∧
    (s.dev.hqe.lease.reads.find? (fun q => q.1 == page) = some l →
      (s.env.tick < l.2 + ctoTicks s.dev →
        (bits = 0 → pageTagsOk s.dev page page_ = true → NextDev (.hostReadCompletion (.lease page) (.ok bs)) s
          { s.dev with hqe := { s.dev.hqe with lease := { s.dev.hqe.lease with
            reads := s.dev.hqe.lease.reads.filter (fun q => q.1 != page) } } }) ∧
        (bits ≠ 0 ∨ pageTagsOk s.dev page page_ = false → NextDev (.hostReadCompletion (.lease page) (.ok bs)) s
          (repeatRead s.env page (badPage s.env page bits s.dev))) ∧
        NextDev (.hostReadCompletion (.lease page) (.fail err)) s (lost (errCode err))) ∧
      (l.2 + ctoTicks s.dev ≤ s.env.tick →
        NextDev (.hostReadCompletion (.lease page) rd) s (lost 0x11) ∧ NextDev (.completionTimeout (.lease page)) s (lost 0x11))) ∧
    (s.dev.hqe.lease.active = true → ∀ code, (lost code).hqe.lease.active = false ∧ (lost code).hqe.lease.lastReason = 2))

/-! ### Host queues (04) -/

/-- Doorbells (R108, R114, R122, R448). The index is bits 15:0. A tail below QSIZE and unlike the present one is taken, and
from DORMANT its exit begins with wake cause 1; a tail equal to the present one has no effect; an index of QSIZE or above,
a pair that does not exist and a head that releases slots not posted are counted and reported, but not while the pair is
being deleted; with ENABLE 0 nothing happens. -/
def Obligations.Doorbells : Prop :=
  ∀ (s : State) (q : BitVec 16) (v : W32), barAlive s.env s.dev = true →
    let i := v.toNat % 65536
    let err (code : BitVec 16) (p0 : Nat) := doorbellError s.env code p0 v.toNat s.dev
    (s.dev.hqe.enabled = false → NextDev (.sqTailDoorbell q v) s s.dev ∧ NextDev (.cqHeadDoorbell q v) s s.dev) ∧
    (s.dev.hqe.enabled = true → pairOf s.dev q.toNat = none →
      NextDev (.sqTailDoorbell q v) s (err 0x0101 (0x100000 + q.toNat * 8)) ∧
      NextDev (.cqHeadDoorbell q v) s (err 0x0101 (0x100004 + q.toNat * 8))) ∧
    (∀ p, s.dev.hqe.enabled = true → pairOf s.dev q.toNat = some p →
      let n := (i + p.size - p.cqHead) % p.size
      let rung := updPair q.toNat (fun p => { p with tail := i }) s.dev
      (p.size ≤ i → p.deleting = none → NextDev (.sqTailDoorbell q v) s (err 0x0102 q.toNat) ∧
        NextDev (.cqHeadDoorbell q v) s (err 0x0102 q.toNat)) ∧
      (p.size ≤ i → p.deleting.isSome = true → NextDev (.sqTailDoorbell q v) s s.dev ∧
        NextDev (.cqHeadDoorbell q v) s s.dev) ∧
      (i = p.tail → i < p.size → NextDev (.sqTailDoorbell q v) s s.dev) ∧
      (i ≠ p.tail → i < p.size → s.env.pw.trans ≠ .dormant → (s.env.pw.st ≠ .dormant ∨ s.env.pw.trans ≠ .none) →
        NextDev (.sqTailDoorbell q v) s rung) ∧
      (i ≠ p.tail → i < p.size → s.env.pw.st = .dormant → s.env.pw.trans = .none →
        exec (.sqTailDoorbell q v) s = .next { s with
          env := { s.env with pw := { s.env.pw with trans := .wakeup, wakeCause := 1 } }, dev := rung }) ∧
      (i ≠ p.tail → i < p.size → s.env.pw.trans = .dormant →
        Does (.sqTailDoorbell q v) s (fun t => t.env.pw = { s.env.pw with trans := .none, wakeCause := 1 } ∧
          t.dev.hqe = { rung.hqe with fetchStopped := s.dev.hqe.shutdown })) ∧
      (i < p.size → p.unreleased < n → p.deleting = none → NextDev (.cqHeadDoorbell q v) s (err 0x0103 q.toNat)) ∧
      (i < p.size → n ≤ p.unreleased → NextDev (.cqHeadDoorbell q v) s
        (updPair q.toNat (fun p => { p with cqHead := i, unreleased := p.unreleased - n }) s.dev)))

/-- Fetching (R110, R115, R117, R122, R123). The entry of the pair that arbitration chose counts as outstanding and the head
moves past it; an entry that fails its checks completes with their verdict, one whose key and scatter list are at hand
waits for dispatch, one whose key or list cannot be read completes with SC_ABORTED_HOST, and a fetch that fails makes the
pair FAILED. AGG_TIME's end signals the pair's vector (R118). -/
def Obligations.EntriesAreFetched : Prop :=
  ∀ (s : State) (q : Nat) (p : Pair) (d1 : Dev) (bs k sg : List Byte) (segs : List (Nat × Nat)) (key sgl : Rd) (err : HostErr)
    (v : Verdict) (qa : BitVec 16) (pa : Pair) (ta : Nat),
    let c := bytesV512 (slice bs 0 64)
    let d2 := takeEntry q d1
    let w : Who := ⟨.host, BitVec.ofNat 16 q, capCid c, d2.hqe.hostGen, none, 0, BitVec.ofNat 16 p.group⟩
    (fetching s.env s.dev = true → arbitrate s.dev = some (q, d1) → pairOf d1 q = some p → s.dev.hqe.issues = true →
      (checkEntry d2 { kind := .host, id := q } c = some v →
        NextDev (.entryFetch (.ok bs) key sgl) s (answer s.env w v.1 v.2 false d2)) ∧
      (checkEntry d2 { kind := .host, id := q } c = none →
        (if needsKey d2 c then key else .ok (inlineKey c)) = .ok k →
        (if capSgl c && hasBuffer c then sgl else .ok []) = .ok sg → bufferOf c sg = some segs →
        NextDev (.entryFetch (.ok bs) key sgl) s (hostArrival s.env q p c (slice k 0 (capKlen c)) segs d2)) ∧
      (checkEntry d2 { kind := .host, id := q } c = none → (if capSgl c && hasBuffer c then sgl else .ok []) = .ok sg →
        bufferOf c sg = none → NextDev (.entryFetch (.ok bs) key sgl) s (answer s.env w scInvalidField 0 false d2)) ∧
      (checkEntry d2 { kind := .host, id := q } c = none → needsKey d2 c = true →
        (∀ l, (if capSgl c && hasBuffer c then sgl else .ok []) = .ok l → bufferOf c l ≠ none) →
        NextDev (.entryFetch (.ok bs) (.fail err) sgl) s
          (answer s.env w scAbortedHost 0 false (dataDmaFail s.env q (capCid c) (errCode err) d2))) ∧
      (checkEntry d2 { kind := .host, id := q } c = none → capSgl c = true → hasBuffer c = true →
        (if needsKey d2 c then key else .ok (inlineKey c)) = .ok k → NextDev (.entryFetch (.ok bs) key (.fail err)) s
          (answer s.env w scAbortedHost 0 false (dataDmaFail s.env q (capCid c) (errCode err) d2))) ∧
      NextDev (.entryFetch (.fail err) key sgl) s
        (failPair s.env q 1 (errCode err) { d1 with hqe := { d1.hqe with turn := none } })) ∧
    (fetching s.env s.dev = false → NextDev (.entryFetch (.ok bs) key sgl) s s.dev) ∧
    (pairOf s.dev qa.toNat = some pa → pa.aggFirst = some ta → pa.aggTime ≠ 0 → ta + pa.aggTime * 25 ≤ s.env.tick →
      NextDev (.aggTimeExpiry qa) s (signalPair qa.toNat s.dev))

/-- A completion entry is 16 bytes at slot CQ tail of the pair (R112): RESULT, SQ_HEAD, CID, STATUS, CFLAGS with PHASE,
DEFERRED and MORE in bits 0–2, and the pair's id. No other byte of host memory changes; the tail moves on and PHASE
inverts as it wraps (R113); the entry counts as unreleased and no longer as outstanding (R115). -/
def Obligations.CompletionEntries : Prop :=
  ∀ (env : Env) (q cid : Nat) (status : Byte) (result : Word) (more : Bool) (d : Dev) (p : Pair),
    pairOf d q = some p →
    let d' := writeCqe env q cid status result more d
    let at_ := p.cqBase.toNat + 16 * p.cqTail
    let get (n k : Nat) : Nat := leNat (memBytes d'.hqe.hmem (at_ + n) k)
    (∀ a, (a < at_ ∨ at_ + 16 ≤ a) → memRead d'.hqe.hmem a = memRead d.hqe.hmem a) ∧
    get 0 8 = result.toNat ∧ get 8 2 = p.head % 65536 ∧ get 10 2 = cid % 65536 ∧ get 12 1 = status.toNat ∧
    get 13 1 = b2n p.phase + 2 * b2n p.deferred + 4 * b2n more ∧ get 14 2 = q % 65536 ∧
    (∃ p', pairOf d' q = some p' ∧ p'.cqTail = (if p.cqTail + 1 = p.size then 0 else p.cqTail + 1) ∧
      p'.phase = (if p.cqTail + 1 = p.size then !p.phase else p.phase) ∧ p'.deferred = false ∧
      p'.outstanding = p.outstanding - 1 ∧ p'.unreleased = p.unreleased + 1)

/-- DEV_CTRL (R102–R104, R453, R456). With the host side alive and no device reset under way: ENABLE = 1 enables the
controller and pair 0 when ADM_SIZE is in range, sets CFG_ERR when it is not, is held before ACTIVE and ignored while
RESET_BUSY reads 1; ENABLE = 0 of an enabled controller is a controller reset; SHUTDOWN = 1 stops fetching and resets the
flows, once; DEVRST with its key begins a device reset.
A host-side reset (R103, R124, R454): READY and ENABLE 0, RESET_BUSY 1, no pair, LAST_RESET the kind; MSI-X keeps its
table through a controller reset and loses it through a Function Level Reset and a link-down; the admin registers, the
deferred-error log and every chain port stay. -/
def Obligations.ControlAndHostResets : Prop :=
  (∀ (s : State) (v : W32), barAlive s.env s.dev = true → s.env.pw.resetStep = none →
    let up := s.env.pw.st = .active ∨ s.env.pw.st = .dormant ∨ s.env.pw.st = .recovery
    let plain := bitOf v 1 = false ∧ bitOf v 2 = false
    let h := s.dev.hqe
    (bitOf v 0 = true → plain → h.enable = false → h.resetBusy = false →
      (up → fld h.admSize 0 12 ≠ 0 → NextDev (.enable v) s { s.dev with hqe := { h with
        cfgErr := false, enable := true, ready := true, enableHeld := false, pairs := tblSet h.pairs 0 { adminPair h with born := s.dev.mea.nextArrival } } }) ∧
      (up → fld h.admSize 0 12 = 0 → NextDev (.enable v) s { s.dev with hqe := { h with
        cfgErr := true, enable := false, enableHeld := false, ready := false } }) ∧
      (¬ up → NextDev (.enable v) s { s.dev with hqe := { h with enableHeld := true } })) ∧
    (bitOf v 0 = true → plain → h.resetBusy = true → NextDev (.enable v) s s.dev) ∧
    (bitOf v 0 = false → plain → h.enabled = true → NextDev (.controllerReset v) s (controllerReset 5 s.env s.dev)) ∧
    (bitOf v 1 = true → bitOf v 2 = false → bitOf v 0 = true → h.enable = true → h.shutdown = false →
      Does (.shutdown v) s (fun t => t = { s with dev := resetAllFlows s.env { s.dev with hqe :=
        { h with shutdown := true, fetchStopped := true } } } ∧ t.dev.hqe.fetchStopped = true)) ∧
    (bitOf v 1 = true → bitOf v 2 = false → bitOf v 0 = true → h.enable = true → h.shutdown = true →
      NextDev (.shutdown v) s s.dev) ∧
    (bitOf v 2 = true → fld v 24 8 = 0x5D →
      Does (.devrst v) s (fun t => t.env.pw.resetStep = some (1, s.env.tick) ∧ t.env.pw.st = s.env.pw.st ∧
        t.dev.hqe.enable = false ∧ t.dev.hqe.fetchStopped = true))) ∧
  (∀ (s : State), hostAlive s.env = true →
    let is (kind : Nat) (msix : Tbl Msix) (t : State) : Prop :=
      t.env = s.env ∧ t.dev.hqe.ready = false ∧ t.dev.hqe.enable = false ∧ t.dev.hqe.resetBusy = true ∧
      t.dev.hqe.pairs = [] ∧ t.dev.hqe.shutdown = false ∧ t.dev.hqe.shutdownDone = false ∧ t.dev.lastReset = kind ∧
      t.dev.hqe.msix = msix ∧ t.dev.hqe.admSq = s.dev.hqe.admSq ∧ t.dev.hqe.admCq = s.dev.hqe.admCq ∧
      t.dev.hqe.admSize = s.dev.hqe.admSize ∧ t.dev.hqe.deferred = s.dev.hqe.deferred ∧
      t.dev.hqe.lease.active = false ∧ t.dev.cpt = s.dev.cpt ∧
      t.dev.mea.arrivals.all (fun a => a.kind != .host) = true
    Does .functionLevelReset s (is 4 []) ∧
    (s.dev.hqe.perst = false → s.dev.hqe.linkSpeed ≠ 0 →
      Does .pcieLinkDown s (fun t => is 3 [] t ∧ t.dev.hqe.linkSpeed = 0)) ∧
    (∀ v : W32, bitOf v 0 = false → bitOf v 1 = false → bitOf v 2 = false → barAlive s.env s.dev = true →
      s.dev.hqe.enabled = true → Does (.controllerReset v) s (is 5 s.dev.hqe.msix)))

/-- The ends of resets (R98, R103, R104, R455): RESET_BUSY clears when no host task is left and no swap is owed;
SHUTDOWN_DONE is set once everything has completed and stands on media; a link that comes up narrow or slow is degraded;
a device reset goes from step to step, its RESETs leaving before the removal (the wait of at most 3 s is the model's
choice, log 148), and ends in BRINGUP. -/
def Obligations.ResetsEnd : Prop :=
  ∀ (s : State) (n t0 speed width : Nat),
    let at_ (k : Nat) (d : Dev) (t : State) : Prop := t = { s with
      env := { s.env with pw := { s.env.pw with resetStep := some (k, t0) } }, dev := d }
    let linked : Dev := { s.dev with hqe := { s.dev.hqe with linkSpeed := speed, linkWidth := width } }
    (s.dev.hqe.resetBusy = true → s.dev.mea.tasks.all (fun t => t.kind != .host) = true → s.dev.sec.activating = none →
      NextDev .resetBusyClear s { s.dev with hqe := { s.dev.hqe with resetBusy := false } }) ∧
    (s.dev.hqe.shutdown = true → s.dev.hqe.shutdownDone = false → hostAlive s.env = true → quiet s.dev = true →
      NextDev .shutdownDone s (checkpoint s.env { s.dev with hqe := { s.dev.hqe with shutdownDone := true } })) ∧
    (s.dev.hqe.perst = false → linkTrains s.env = true → loaderDead s.dev = false → speed ∈ [1, 3, 4, 5] → width ∈ [1, 4, 8, 16] →
      NextDev (.pcieLinkUp speed width) s (if speed < 5 ∨ width < 16
        then event s.env 0x0107 3 clsHardware 0 (speed + width * 16) 0 0 (hqeCause s.env 0x20 linked) else linked)) ∧
    (s.env.pw.resetStep = some (n, t0) →
      (n = 1 → s.dev.mea.tasks = [] → Does .deviceResetStep s (at_ 2 s.dev)) ∧
      (n = 1 → s.dev.mea.tasks ≠ [] → t0 + Config.second ≤ s.env.tick → Does .deviceResetStep s (at_ 2 (stopTasks s.dev))) ∧
      (n = 2 → s.dev.trl.recovering = true → Does .deviceResetStep s (at_ 3 s.dev)) ∧
      (n = 2 → s.dev.trl.recovering = false → s.dev.flt.held.all (fun h => h.settled s.dev) = true →
        Does .deviceResetStep s (at_ 3 (checkpoint s.env s.dev))) ∧
      (n = 3 → Does .deviceResetStep s (at_ 4 (resetAllFlows s.env s.dev))) ∧
      (n = 4 → ownWaiting s.env s.dev = false ∨ t0 + 3 * Config.second ≤ s.env.tick →
        Does .deviceResetStep s (at_ 5 (startRemoval s.env 2 s.dev))) ∧
      (n = 5 → Does .deviceResetStep s (fun t => t.env.pw.st = .bringup ∧ t.env.pw.bringStep = 1 ∧
        t.env.pw.resetStep = none ∧ t.env.pw.limitMib = 0 ∧ t.env.pw.wakeCause = 0 ∧ t.dev.lastReset = 2 ∧ t.dev.mea.tasks = [] ∧ t.dev.hqe.enable = false)))

/-- Bus Master Enable, BAR0 and attention (R99, R122, R348, R442, R453, R517). What an interrupt message fails as with Bus Master
Enable clear is the model's choice (log 115). -/
def Obligations.HostSide : Prop :=
  ∀ (s : State) (t0 off size port held drOff : Nat) (run : Run) (wr : Bool) (v : W32) (h : Held),
    let x := touchedRun h s.dev
    (s.dev.hqe.busMaster = true → NextDev .busMasterDisable s (loseLease s.env 3 { s.dev with hqe := { s.dev.hqe with
      busMaster := false, bmeHold := if s.dev.hqe.enable then some s.env.tick else none } })) ∧
    (s.dev.hqe.bmeHold = some t0 → t0 + 25000000 ≤ s.env.tick →
      NextDev .bmeHoldExpiry s (s.dev.hqe.heldMsi.foldl (fun d _ => dataDmaFail s.env 0 0 0x12 d)
        (failCqes s.env s.dev.hqe.heldCqes
          { s.dev with hqe := { s.dev.hqe with bmeHold := none, heldCqes := [], heldMsi := [] } }))) ∧
    (s.dev.hqe.bmeHold = none → s.dev.hqe.busMaster = false → NextDev .bmeHoldExpiry s
      (s.dev.hqe.heldMsi.foldl (fun d _ => dataDmaFail s.env 0 0 0x12 d) { s.dev with hqe := { s.dev.hqe with heldMsi := [] } })) ∧
    (barAlive s.env s.dev = true →
      (¬ (size = 4 ∧ off % 4 = 0) → ¬ (size = 8 ∧ off % 8 = 0) → NextDev (.barAccessInvalid off size wr) s
        (event s.env 0x010A 2 clsProtocol 0 off size 0
          (hqeCause s.env 0x40 { s.dev with hqe := { s.dev.hqe with dbErrors := sat32 (s.dev.hqe.dbErrors + 1) } }))) ∧
      NextDev (.attnMaskWrite v) s (attnEdit s.env (fun a => { a with mask := v &&& 0x7FFFE }) s.dev) ∧
      (2 ≤ port → NextDev (.rdmTickLowRead port) s
        { s.dev with tickLatch := some (BitVec.ofNat 32 (s.env.tick / 2 ^ 32)) })) ∧
    (hostAlive s.env = true →
      (s.dev.hqe.perst = false →
        NextDev (.configurationRequest (.read off)) s s.dev ∧
        NextDev (.configurationRequest (.deviceControl2 off)) s { s.dev with hqe := { s.dev.hqe with cto := off % 16 } } ∧
        NextDev (.configurationRequest (.busMaster true)) s (busMasterOn s.env s.dev) ∧
        NextDev (.configurationRequest (.busMaster false)) s (busMasterOff s.env s.dev) ∧
        NextDev (.configurationRequest (.msix true wr)) s (s.dev.hqe.pba.foldl (fun d v => deliverPending v d)
          { s.dev with hqe := { s.dev.hqe with msixOn := true, msixMask := wr } }))) ∧
    (port < 2 → NextDev (.rdmTickLowRead port) s { s.dev with mg := vupd s.dev.mg port (fun g =>
      { g with latch := some (BitVec.ofNat 32 (s.env.tick / 2 ^ 32)) }) }) ∧
    (s.dev.attn.lastSignal = some t0 → s.dev.attn.pending = true → t0 + 250 ≤ s.env.tick → hostAlive s.env = true →
      NextDev .attnSignal s (sendMsi 0 { s.dev with attn := { s.dev.attn with pending := false, lastSignal := some s.env.tick } })) ∧
    (s.dev.flt.held.find? (fun y => y.id == held) = some h → x.1 = some run →
      let lost := event s.env 0x0A01 5 clsHardware 0 (drOff / 64) h.ksid.toNat h.version.toNat
        (setCause s.env 10 2 (loseRun h run x.2))
      NextDev (.protEccUncorr held drOff) s (if h.acked.isSome then deferError s.env h 1 lost else lost))

/-- A register write through BAR0 (R99, R100). Four aligned bytes write the word; eight aligned bytes write a 64-bit register
as one value and otherwise two words, the lower first; the doorbells of pair q stand at 0x10_0000 + 8q. A low half alone
changes nothing of ADM_SQ_BASE; its high half takes the low half last written, or the register's own. The control registers
listed keep what is written to their fields, RES0 bits reading 0, and a write of one changes none of the others
(R10, R12). -/
def Obligations.RegisterWrites : Prop :=
  ∀ (s : State) (off : Nat) (v : Word), barAlive s.env s.dev = true →
    let lo : W32 := v.setWidth 32
    let hi : W32 := (v >>> 32).setWidth 32
    let both (x : Env × Dev) : Host.Outcome State Fault Refusal := .next { s with env := x.1, dev := x.2 }
    let first := barWrite off lo s.env s.dev
    let pair := (off - 0x100000) / 8
    let regs : List (Nat × W32) :=
      [(0x1008, 0x7FFFE), (0x11000, 0x07FFFFFF), (0x12100, 0x0137FFFF), (0x12104, 0x0FFF0FFF), (0x1210C, 0x00FFFFFF),
       (0x12110, 0xFFFFFFFF), (0x13000, 0xFF0FFFFF), (0x18000, 0xFFFF0001), (0x19000, 0xFFFF), (0x1A100, 0xFFFF),
       (0x1C000, 0xFFFFFFFF), (0x1C004, 0x00FFFFFF), (0x1C008, 0x000FFFFF), (0x1C00C, 0x3FFFF), (0x1C010, 0xFFFF),
       (0x1C014, 0x00FFFFFF), (0x1D000, 0x3F), (0x1F000, 0x7FFFF)]
    (∀ g ∈ regs, ∃ d, NextDev (.registerWrite g.1 false v) s d ∧ regRead s.env d none g.1 = some (lo &&& g.2).toNat ∧
      ∀ k ∈ regs, k.1 ≠ g.1 → regRead s.env d none k.1 = regRead s.env s.dev none k.1) ∧
    (off % 4 = 0 → exec (.registerWrite off false v) s = both first) ∧
    (off % 4 ≠ 0 → NextDev (.registerWrite off false v) s (barInvalid off 4 s.env s.dev)) ∧
    (off % 8 ≠ 0 → NextDev (.registerWrite off true v) s (barInvalid off 8 s.env s.dev)) ∧
    (off % 8 = 0 → wideReg off = false →
      exec (.registerWrite off true v) s = both (barWrite (off + 4) hi first.1 first.2)) ∧
    (off % 8 = 0 → 0x100000 ≤ off → off < 0x180000 → exec (.registerWrite off false v) s = both (sqTail pair lo.toNat s.env s.dev)) ∧
    (off % 8 = 4 → 0x100000 ≤ off → off < 0x180000 →
      NextDev (.registerWrite off false v) s (cqHead pair lo.toNat s.env s.dev)) ∧
    (s.dev.hqe.enabled = false →
      (∃ d, NextDev (.registerWrite 0x20 false v) s d ∧ regRead s.env d none 0x20 = regRead s.env s.dev none 0x20 ∧
        regRead s.env d none 0x24 = regRead s.env s.dev none 0x24 ∧
        ∀ w : Word, ∃ d', NextDev (.registerWrite 0x24 false w) { s with dev := d } d' ∧
          d'.hqe.admSq = ((w.setWidth 32 : W32) ++ lo) &&& 0xFFFFFFFFFFFFF000) ∧
      ∃ d, NextDev (.registerWrite 0x20 true v) s d ∧ d.hqe.admSq = v &&& 0xFFFFFFFFFFFFF000 ∧
        d.hqe.pairs = s.dev.hqe.pairs ∧ d.attn = s.dev.attn)

/-! ### Dispatch and hooks (02, 06) -/

/-- ARRIVAL_DISPATCH and USER_COMMAND (R37, R47, R48, R62, R173). An arrival whose turn it is and whose gate is open takes a
free context on its vat when its EST fits the funding: the task starts at its entry with s2 its task id, the other
registers 0, no post outstanding, and the arrival block and key in its frame. A rejected arrival is answered; a hook runs
first where the gate names one; an arrival whose turn has not come stays, its hash compared with its group's old locks
(R57). -/
def Obligations.ArrivalsAreDispatched : Prop :=
  ∀ (s : State) (no n : Nat) (r : TaskRef) (a : Arrival) (v : Verdict) (p : Nat × Program × Nat)
    (stage : Option (Nat × List Byte)),
    s.dev.mea.arrivals.find? (fun x => x.no == no) = some a → a.kind ≠ .internal → a.kind ≠ .timer →
    let e := entryOf s.dev (capOpc a.capsule)
    let hash := arrivalHash a e.nokey
    let turn := keyReady s.dev a = true ∧ orderOk s.dev a = true ∧ epochOk s.dev a hash = true ∧
      activationOk s.dev a = true ∧ heldTurn s.dev a = true ∧ (s.env.pw.st = .active ∨ s.env.pw.st = .recovery) ∧ s.env.pw.resetStep = none
    let started (st : Option (Nat × List Byte)) (q : State) : Prop := ∃ t, taskOf q.dev r = some t ∧
      t.pc = e.entry ∧ t.s = vset (Vector.replicate 32 0) 2 (BitVec.ofNat 64 (r.eng + 128 * r.ctx)) ∧
      t.p = Vector.replicate 8 0 ∧ t.v = Vector.replicate 16 0 ∧ t.posts = [] ∧ t.capsule = a.capsule ∧
      t.program = e.program ∧ t.wclass = e.wclass ∧ (t.st = .ready ∨ t.st = .running) ∧
      memBytes t.frame 0x40 64 = v512Bytes a.capsule ∧ memBytes t.frame 0x80 (a.key.take 255).length = a.key.take 255 ∧
      memBytes t.frame 0 1 = [BitVec.ofNat 8 (kindCode a.kind)] ∧
      (st = none → t.regions = []) ∧ q.env = s.env
    let go := ctxFree s.dev r (a.kind == .loop) = true ∧ vatOk s.dev r a.group = true ∧ fits s.dev e.wclass e.est = true
    (turn → gate s.dev a = .go → go →
      Does (.arrivalDispatch no r) s (fun q => q = { s with dev := dispatchTo s.env a r none s.dev } ∧ started none q) ∧
      (0x80 ≤ capOpc a.capsule → Does (.userCommand no r stage) s (fun q =>
        q = { s with dev := dispatchTo s.env a r stage s.dev } ∧ started stage q))) ∧
    (turn → gate s.dev a = .reject v → NextDev (.arrivalDispatch no r) s (rejectArrival s.env a v s.dev)) ∧
    (turn → gate s.dev a = .wait → NextDev (.arrivalDispatch no r) s s.dev) ∧
    (turn → gate s.dev a = .hook n p → ctxFree s.dev r false = true → vatOk s.dev r a.group = true →
      fits s.dev p.2.1.wclass 0 = true → NextDev (.arrivalDispatch no r) s (startHook s.env a r n p none
        (updArrival a.no (fun x => { x with hook := if n = 2 then .placing else .admitting }) s.dev))) ∧
    (¬ turn → NextDev (.arrivalDispatch no r) s (noteEpoch a hash s.dev))

/-! ### Key-value commands (05, 06) -/

/-- The writes on plain values take effect as one version (R136, R142, R144, R146, R148–R150, R160). For a command of one
piece whose slot lock is held, whose conditions hold, whose value has come, for which there is room and which does not wait
for media: it completes with SC_OK and the next version of its keyspace's sequence in RESULT, and as its locks are
released its slot holds what it wrote. A PUT and a CAS that writes make the object the value; APPEND and RANGE_WRITE replace
the bytes of their range, growing the object, and PUNCH zeroes them; DELETE and a CAS that deletes leave no object. -/
def Obligations.WritesTakeEffect : Prop :=
  ∀ (s : State) (i : Instr) (r : TaskRef) (value : Rd) (opc n : Nat) (t : Task) (x : Slot) (bs : List Byte),
    (i, opc) ∈ [(.put r value, 0x01), (.delete r, 0x03), (.append r value, 0x05), (.rangeWrite r value, 0x07),
      (.punch r, 0x08), (.cas r value, 0x09)] →
    serving s.dev r opc = some t → t.job.phase = .start → t.job.lock = .held n → slotAt s.dev n = some x →
    let c := t.capsule
    let cur := x.current
    let rg := writeRange c cur
    let old : Obj := match cur with | some y => y.2 | none => freshObj 0 0 0 []
    let v := runFirst (ksOf s.dev (capKsid c)).seq 1
    let gone := opc = 0x03 ∨ opc = 0x09 ∧ bitOf c 48 = true
    let need := if opc = 0x08 then punchBytes old rg.1 rg.2 else rg.2
    wornStops s.dev c = false → writeConds c cur = none → spaceFor s.dev (growth c cur) = true →
    fetchData s.dev t (inboundLen c) value = .data bs → streams s.env c = false → durableWrite s.env c = false →
    t.job.durable = false → (opc = 0x05 ∨ opc = 0x07 ∨ opc = 0x08 → pieceCount rg.1 rg.2 = 1) →
    (need = 0 ∨ roomFor s.env s.dev need = true) → runAllowed s.dev (capKsid c) 1 = true →
    let hi := if opc = 0x05 ∨ opc = 0x07 ∨ opc = 0x08 then 1 else if gone then 0 else capLen c
    Completes i s t scOk (resultOf v hi) (fun d => ∃ e u y,
      d = putJob u (dropPortions u.job.heldIds (releaseSlots t.owner e)) ∧ u.ref = t.ref ∧
      slotAt e n = some y ∧ y.key = x.key ∧ y.ksid = x.ksid ∧
      (gone → y.current = none) ∧
      (¬ gone → ∃ o, y.current = some (v, o) ∧
        ((opc = 0x01 ∨ opc = 0x09) → o.frame = none ∧ o.len = bs.length ∧ memBytes o.data 0 o.len = bs) ∧
        ((opc = 0x05 ∨ opc = 0x07) → o.len = max old.len (rg.1 + rg.2) ∧
          ∀ a, memRead o.data a = if rg.1 ≤ a ∧ a < rg.1 + rg.2 then bs.getD (a - rg.1) 0 else memRead old.data a) ∧
        (opc = 0x08 → o.len = old.len ∧
          ∀ a, memRead o.data a = if rg.1 ≤ a ∧ a < rg.1 + rg.2 then 0 else memRead old.data a)))

/-- Where a write on plain values stops, in the order of R173, and what it then completes with: a worn drive, conditions
that do not hold, no slot for a new key, no space, no data (R142, R144, R146, R148–R150, R169–R173). A write in pieces
goes on from piece to piece under its lock, one that waits for media completes when its entries are on media, and
one that waits for room goes on once there is room; a streamed write's portions are admitted while the region has room,
and its next piece commits once the portions that cover it are on media; with the limit at 0 no write waits on it, what is
left of one passing as a streamed write (R22, R23, R157, R160, R458, R516). -/
def Obligations.WritesStopAndGoOn : Prop :=
  ∀ (s : State) (i : Instr) (r : TaskRef) (mem : Option Nat) (value : Rd) (opc n a : Nat) (t u : Task) (x : Slot) (w : Verdict)
    (code : Byte),
    (i, opc) ∈ [(.put r value, 0x01), (.delete r, 0x03), (.append r value, 0x05), (.rangeWrite r value, 0x07),
      (.punch r, 0x08), (.cas r value, 0x09)] →
    let c := t.capsule
    let fin (status : Byte) (result : Word) (d : Dev) : Prop := NextDev i s (endJob s.env t status result false d)
    let p := if ranged opc then pieceAt t.job.off t.job.len t.job.done else (t.job.off, t.job.len)
    let part := min (u.job.len - a) (max (64 * 2 ^ 20) (limitBytes s.env / 4))
    (serving s.dev r opc = some t → t.job.phase = .start → wornStops s.dev c = true → fin scMediaWorn 0 s.dev) ∧
    (serving s.dev r opc = some t → t.job.phase = .start → wornStops s.dev c = false → t.job.lock = .held n →
      slotAt s.dev n = some x →
      (writeConds c x.current = some w → fin w.1 w.2 s.dev) ∧
      (writeConds c x.current = none → spaceFor s.dev (growth c x.current) = false → fin scFull 0 s.dev) ∧
      (writeConds c x.current = none → spaceFor s.dev (growth c x.current) = true →
        fetchData s.dev t (inboundLen c) value = .fail code →
        Completes i s t scAbortedHost 0 (fun d => d.kdr.slots = s.dev.kdr.slots ∧ d.flt.held = s.dev.flt.held))) ∧
    (serving s.dev r opc = some t → t.job.phase = .start → wornStops s.dev c = false → t.job.lock = .none →
      mayCreate c = false → writeConds c none = some w → fin w.1 w.2 s.dev) ∧
    (serving s.dev r opc = some t → (∃ k, t.job.phase = .media k) →
      (allSettled s.dev t.job.heldIds = true → fin scOk t.job.result s.dev) ∧
      (allSettled s.dev t.job.heldIds = false → NextDev i s s.dev)) ∧
    (serving s.dev r opc = some t → (∃ k, t.job.phase = .pieces k) → t.job.lock = .held n →
      let need := if opc = 0x08
        then (match slotAt s.dev n with
          | some y => (match y.current with | some z => punchBytes z.2 p.1 p.2 | none => 0)
          | none => 0)
        else p.2
      (need = 0 ∨ roomFor s.env s.dev need = true → NextDev i s (commitNext s.env t n false s.dev)) ∧
      (0 < need → s.env.pw.limitMib = 0 → NextDev i s (waitJob s.env t { t.job with
        phase := .stream (if t.job.done = 0 then 0 else if ranged opc then p.1 - t.job.off else t.job.len), durable := true } s.dev)) ∧
      (0 < need → s.env.pw.limitMib ≠ 0 → roomFor s.env s.dev need = false →
        NextDev i s (waitJob s.env t { t.job with phase := .admission } (admissionHeld s.env s.dev)))) ∧
    (serving s.dev r opc = some t → t.job.phase = .stream a → t.job.lock = .held n →
      (p.1 + p.2 ≤ t.job.off + a → portionsDone s.dev t.job.heldIds = true → NextDev i s (commitNext s.env t n true s.dev)) ∧
      (t.job.off + a < p.1 + p.2 ∨ portionsDone s.dev t.job.heldIds = false → NextDev i s s.dev)) ∧
    (commandOf s.dev r mem = some u → u.job.phase = .admission → u.completed = false →
      let need := if capOpc u.capsule = 0x0E then u.job.len else pieceNeed u s.dev
      (roomFor s.env s.dev need = true ∨ s.env.pw.limitMib = 0 → NextDev (.protectedFeltAdmit ⟨r, mem⟩) s
        (putJob { u with job := { u.job with phase := .pieces u.job.done } } s.dev)) ∧
      (roomFor s.env s.dev need = false → s.env.pw.limitMib ≠ 0 → NextDev (.protectedFeltAdmit ⟨r, mem⟩) s s.dev)) ∧
    (commandOf s.dev r mem = some u → u.job.phase = .stream a → u.completed = false → 0 < part →
      (regionBytes s.dev + part ≤ 8 * 2 ^ 30 → ∃ runs d1,
        let h := addPortion s.env u part runs d1
        NextDev (.streamedPortionAdmit ⟨r, mem⟩) s
          (putJob { u with job := { u.job with phase := .stream (a + part), heldIds := u.job.heldIds ++ [h.1] } } h.2) ∧
        h.1 = s.dev.flt.nextHeld ∧ h.2.kdr.slots = s.dev.kdr.slots ∧
        (∃ e, e ∈ h.2.flt.held ∧ e.id = h.1 ∧ e.bytes = part ∧ e.committed = false) ∧
        (capOpc u.capsule = 0x0C → runs = [{ kind := rawKind, no := a, amount := part }])) ∧
      (8 * 2 ^ 30 < regionBytes s.dev + part → NextDev (.streamedPortionAdmit ⟨r, mem⟩) s s.dev))

/-- The reads (R143, R145, R147, R151–R153, R156, R163, R173, R197, R198). A read of an object its task holds completes with
the verdict of its conditions; else it pins the version, reads the pages that hold what it needs, and completes with SC_OK
once its bytes are placed, or with the failure of a sheet, a tag, a tile or its own buffer. GET of a plain object puts exactly
the object's bytes at the head of the buffer and changes no other byte of host memory. LIST answers the records of one scan
with the cursor of the next, and FLUSH completes when no earlier write is on its way. -/
def Obligations.ReadsAnswer : Prop :=
  ∀ (s : State) (i : Instr) (r : TaskRef) (opc n budget base k : Nat) (t : Task) (x : Slot) (v : W32) (o : Obj) (w : Verdict)
    (outs : List (Nat × List Byte)) (result : Word) (e : HostErr) (f : Fetch) (ends : List ReadEnd),
    serving s.dev r opc = some t →
    let c := t.capsule
    let fin (status : Byte) (result : Word) (d : Dev) : Prop := NextDev i s (endJob s.env t status result false d)
    let ss := listSlots s.dev (capKsid c) (capOff c)
    let l := scanList t.key (capLen c - 16) (ss.length + 1) budget ss [] 0
    let hdr (next : Word) := natLe 8 next.toNat ++ natLe 4 l.count ++ natLe 4 (16 + l.bytes.length)
    let pendingBefore := s.dev.flt.held.any (fun h =>
      (match h.acked with | some k => decide (k ≤ t.arrNo) | none => false) && !h.settled s.dev)
    let p := pinRead t (.slot n) (v, o) s.dev
    let nd := needOf p.2 c o
    let es := readPages s.env p.1.job.psas ends p.2
    let bytes := (outs.map (fun y => y.2.length)).foldl (· + ·) 0
    let moved := chargeRead p.1 p.1.job.psas nd bytes es.2
    let ended (status : Byte) (result : Word) (d : Dev) : Prop := NextDev i s (endJob s.env p.1 status result false d)
    let lost := nd.bad = true ∨ ∃ y ∈ es.1, y.2.1 = .unrecoverable
    ((i, opc) ∈ [(.get r ⟨f, ends⟩, 0x02), (.exist r f, 0x04), (.rangeRead r ⟨f, ends⟩, 0x06), (.roiRead r ⟨f, ends⟩, 0x0D)] →
      t.job.pin = none → t.job.lock = .held n → slotAt s.dev n = some x →
      (readOut c x.current = .stop w → fin w.1 w.2 s.dev) ∧
      (opc = 0x04 → x.current = some (v, o) → readOut c x.current = .out outs result → s.dev.hqe.issues = true →
        (∀ y, f ≠ .hostFail y) → leasedPages s.dev c o = [] →
        Completes i s t scOk result (fun d => ∃ d1, d = deliverAll s.env p.1 outs d1 ∧ d1.hqe = s.dev.hqe)) ∧
      (opc ≠ 0x04 → x.current = some (v, o) → readOut c x.current = .out outs result → s.dev.hqe.issues = true →
        leasedPages s.dev c o = [] → (roiStage c o = 0 ∨ stageNow p.2 p.1 true (roiStage c o) = true) → outs ≠ [] →
        (lost → ended scUnrecoveredRead 0 (undefineBuffer p.1 moved)) ∧
        (¬ lost → f = .ok → ended scOk result (deliverAll s.env p.1 outs moved)) ∧
        (¬ lost → f = .authFail → (ksOf p.2 (capKsid c)).encrypted = true →
          ended scAuthFail 0 (undefineBuffer p.1 (tagMismatch s.env p.1 moved))) ∧
        (¬ lost → f = .decodeFail k → nd.coded = true →
          ended scUnrecoveredRead 0 (undefineBuffer p.1 (decodeFailed s.env p.1 k moved))) ∧
        (¬ lost → f = .hostFail e → t.kind ≠ .act →
          ended scAbortedHost 0 (undefineBuffer p.1 (bufferFail s.env p.1 (errCode e) moved)))) ∧
      (opc ≠ 0x04 → x.current = some (v, o) → readOut c x.current = .out outs result → leasedPages s.dev c o = [] →
        0 < roiStage c o → stageNow p.2 p.1 true (roiStage c o) = false →
        NextDev i s (waitJob s.env p.1 { p.1.job with phase := .waitDrive } (stageWait p.1 true (roiStage c o) p.2)))) ∧
    (i = .get r ⟨.ok, ends⟩ → opc = 0x02 → t.job.pin = none → t.job.lock = .held n → slotAt s.dev n = some x →
      x.current = some (v, o) → o.frame = none → o.bad = [] → o.len ≤ capLen c → t.kind = .host → t.sgl = [(base, capLen c)] →
      s.dev.hqe.issues = true → leasedPages s.dev c o = [] → (∀ y ∈ es.1, y.2.1 ≠ .unrecoverable) →
      Completes i s t scOk (resultOf v o.len) (fun d =>
        memBytes d.hqe.hmem base o.len = memBytes o.data 0 o.len ∧
        ∀ a, (a < base ∨ base + o.len ≤ a) → memRead d.hqe.hmem a = memRead s.dev.hqe.hmem a)) ∧
    (i = .get r ⟨.ok, ends⟩ → opc = 0x02 → t.job.pin = none → t.job.lock = .held n → slotAt s.dev n = some x →
      x.current = some (v, o) → capLen c < o.len → fin scTooLarge (resultOf v o.len) s.dev) ∧
    (i = .list r .ok budget → opc = 0x0A → s.dev.hqe.issues = true →
      (l.big = true → fin scTooLarge (BitVec.ofNat 64 (capOff c))
        (deliverOut s.env t 0 (hdr (BitVec.ofNat 64 (capOff c))) s.dev)) ∧
      (l.big = false → NextDev i s (endJob s.env t scOk (l.next.getD 0) l.next.isSome
        (deliverAll s.env t [(0, hdr (l.next.getD 0) ++ l.bytes)] s.dev)))) ∧
    (i = .flush r → opc = 0x0B →
      (pendingBefore = false → fin scOk 0 s.dev) ∧
      (pendingBefore = true → NextDev i s (waitJob s.env t { t.job with phase := .flush 0 } s.dev)))

/-- FRAME_PUT and BATCH (R164–R167, R178–R185, R195). A FRAME_PUT whose value is in felt, whose slot lock it holds and
whose tiles pass verify commits its frames as one version, behind those kept under ADD; a lossy tile that fails verify
twice makes it SC_BOUND_VIOLATION. A BATCH reads its array, or completes with SC_ABORTED_HOST; each member without GROUP goes
on as a command of its own, a group one of whose members fails its conditions ends with every member's outcome and no
object changed, and the BATCH whose members have all ended writes its result array and completes with the first that
failed. -/
def Obligations.FramesAndBatches : Prop :=
  ∀ (s : State) (r : TaskRef) (value : Rd) (n a lane j px1 px2 : Nat) (t : Task) (x : Slot) (h : FrameHdr)
    (ins : List MemberIn) (bs data : List Byte) (m : Member) (code : Byte) (tiles : List (Nat × Verify)) (f : Fetch),
    let c := t.capsule
    let ver := runFirst (ksOf s.dev (capKsid c)).seq 1
    let keep : List FrameRec := match x.current with
      | some y => if bitOf c 49 then (match y.2.frame with | some f => f.frames | none => []) else []
      | none => []
    (serving s.dev r 0x0C = some t → t.job.phase = .pieces a → t.job.total = 1 → t.job.lock = .held n →
      slotAt s.dev n = some x → s.env.pw.limitMib ≠ 0 → roomFor s.env s.dev t.job.len = true → stageNow s.dev t false (fullTile h) = true →
      frameValue t = some (h, data) → runAllowed s.dev (capKsid c) 1 = true →
      (t.job.durable = false → (lossy h.mode = true → ∀ y ∈ tiles, ∀ a b, y.2 ≠ .failed a b) →
        Completes (.framePut r value tiles) s t scOk (resultOf ver (keep.length + h.nframes)) (fun d => ∃ e u y o fo new,
          d = putTask u (dropPortions u.job.heldIds (releaseSlots t.owner e)) ∧ u.ref = t.ref ∧
          slotAt e n = some y ∧ y.key = x.key ∧ y.current = some (ver, o) ∧ o.frame = some fo ∧ fo.frames = keep ++ new ∧
          new.length = h.nframes ∧ fo.width = h.width ∧ fo.height = h.height ∧ fo.ptype = h.ptype)) ∧
      (lossy h.mode = true → Does (.framePut r value ((lane, .failed px1 px2) :: tiles)) s (fun q =>
        ∃ d, q.dev = endJob s.env t scBoundViolation 0 false d ∧ d.kdr = s.dev.kdr ∧ d.mea = s.dev.mea))) ∧
    (serving s.dev r 0x0E = some t → t.members = [] →
      (fetchData s.dev t (64 * capOpts c) value = .data bs →
        let ms := membersOf s.env t bs ins (capOpts c) 0 (copied t bs.length s.dev)
        ms.1.length = capOpts c ∧
        NextDev (.batch r value ins f) s (runBatch s.env t.ref ins f (putTask { t with members := judgeGroup ms.1 } ms.2))) ∧
      (fetchData s.dev t (64 * capOpts c) value = .fail code →
        NextDev (.batch r value ins f) s (endJob s.env t scAbortedHost 0 false (bufferFail s.env t code s.dev)))) ∧
    (taskOf s.dev r = some t → t.members[j]? = some m → m.group = false → m.verdict = none → m.asked = true →
      quarantineMember s.dev t m = none → t.ref = r →
      let u := memberTask t j m
      (isRead (capOpc m.capsule) = false → capOpc m.capsule ≠ 0x04 →
        stepMember s.env r ins j s.dev = runWrite s.env u (inAt ins j).value s.dev) ∧
      (isRead (capOpc m.capsule) = true → capOpc m.capsule ≠ 0x04 →
        stepMember s.env r ins j s.dev = runRead s.env u (inAt ins j).fetch (inAt ins j).ends s.dev)) ∧
    (∀ vs : List (Nat × Verdict), taskOf s.dev r = some t → t.ref = r →
      (∀ q ∈ (failGroup s.env r vs s.dev).kdr.slots, q.2.live = true → ∃ y ∈ s.dev.kdr.slots,
        y.2.live = true ∧ y.2.key = q.2.key ∧ y.2.ksid = q.2.ksid ∧ y.2.version = q.2.version ∧ y.2.obj = q.2.obj) ∧
      (t.members[j]? = some m → m.group = true → m.verdict = none → ∃ t' m',
        taskOf (failGroup s.env r vs s.dev) r = some t' ∧ t'.members[j]? = some m' ∧
        m'.verdict = some (match vs.find? (fun y => y.1 == j) with | some y => y.2 | none => (scAbortedHost, 0)))) ∧
    (serving s.dev r 0x0E = some t → t.ref = r → t.members ≠ [] → t.members.all (fun m => m.verdict.isSome) = true →
      t.kind = .host → s.dev.hqe.issues = true →
      let v := batchVerdict t.members
      let arr := resultArray t.members
      NextDev (.batch r value ins .ok) s (endJob s.env t v.1 v.2 false (copied t arr.length (hostWrite [(capOff c, arr.length)] 0 arr s.dev))) ∧
      (∀ e, NextDev (.batch r value ins (.hostFail e)) s
        (endJob s.env t scAbortedHost 0 false (bufferFail s.env t (errCode e) s.dev))) ∧
      ((∀ m ∈ t.members, m.verdict.map (·.1) = some scOk) → v.1 = scOk))

/-! ### Administration (04, 12, 13, 14, 15) -/

/-- Reports, features, the self-test and event clearing (R394–R401, R435, R436, R388, R389). IDENTIFY and LOG_READ give
the asked stretch of their structure and change nothing else; FEATURE_SET takes a value in its range, saves it with SAVE,
and answers the value in force; a self-test starts when none runs and ends, where the drive is ACTIVE, with its media reads
counted and its result on record, of which 16 are kept; EVENT_CLEAR answers how many records it removed; ATTEST uses up one leaf. -/
def Obligations.ReportsAndSettings : Prop :=
  ∀ (s : State) (r : TaskRef) (t : Task) (opc k seg : Nat) (kind start : Nat) (code : BitVec 16),
    let c := t.capsule
    let fin (i : Instr) (status : Byte) (result : Nat) (d : Dev) : Prop :=
      NextDev i s (endJob s.env t status (BitVec.ofNat 64 result) false d)
    let out (bs : List Byte) : List (Nat × List Byte) := if bs.isEmpty then [] else [(0, bs)]
    let body := (identPage s.env s.dev (cap c 6 1)).take (min (capLen c) 4096)
    let page := logPage s.env (cap c 6 1) s.dev
    let part := (page.1.drop (capOff c)).take (min (capOff c + capLen c) page.1.length - capOff c)
    let fid := capOpts c
    let set := featureSet s.env fid (capOff c) s.dev
    let kept := if bitOf c 256 then saveFeature fid (capOff c) set else set
    let logs := cap c 6 1
    let upto := capOff c
    let done (outcome segment : Nat) (ev : BitVec 16) (d : Dev) : Dev := { d with adm := { d.adm with
      test := none, results := (⟨kind, outcome, segment, opsecNow s.env, ev⟩ :: d.adm.results).take 16 } }
    (serving s.dev r opc = some t →
      (opc = 0x40 → s.dev.hqe.issues = true →
        fin (.identify r .ok) scOk (min (capLen c) 4096) (deliverAll s.env t (out body) s.dev)) ∧
      (opc = 0x41 → s.dev.hqe.issues = true → NextDev (.logRead r .ok) s
        (consumeAfter s.env t (consumed s.dev c) s.dev (endJob s.env t scOk
          (BitVec.ofNat 64 (part.length + min page.1.length 0xFFFFFFFF * 2 ^ 32)) false (deliverAll s.env t (out part) page.2)))) ∧
      (opc = 0x41 → s.dev.hqe.issues = true → logs = 2 → bitOf c 56 = true → t.kind = .host → hostPosts s.dev t = true →
        consumed s.dev c = k → k ≠ 0 → ∃ res, NextDev (.logRead r .ok) s
          (consumeErrors s.dev.hqe.defFirst k (endJob s.env t scOk res false (deliverAll s.env t (out part) s.dev)))) ∧
      (opc = 0x42 → featureOk s.dev true fid (capOff c) = true →
        fin (.featureSet r) scOk (featureNow kept fid (capOff c)) kept) ∧
      (opc = 0x42 → featureOk s.dev true fid (capOff c) = false → fin (.featureSet r) scInvalidField 0 s.dev) ∧
      (opc = 0x43 → fin (.featureGet r) scOk (featureNow s.dev fid (capOff c)) s.dev) ∧
      (opc = 0x44 → s.dev.adm.test = none →
        (capOpts c = 1 → fin (.selfTestShort r) scOk 0 { s.dev with adm := { s.dev.adm with test := some (1, s.env.tick) } }) ∧
        (capOpts c = 2 → fin (.selfTestExtended r) scOk 0 { s.dev with adm := { s.dev.adm with test := some (2, s.env.tick) } }) ∧
        (capOpts c = 15 → fin (.selfTestAbort r) scNotFound 0 s.dev)) ∧
      (opc = 0x44 → s.dev.adm.test = some (kind, start) →
        (capOpts c = 1 → fin (.selfTestShort r) scExists 0 s.dev) ∧
        (capOpts c = 15 → fin (.selfTestAbort r) scOk 0 (done 2 0 0 s.dev))) ∧
      (opc = 0x4E → fin (.eventClear r) scOk (cleared logs upto s.dev).length (clearLogs s.env t logs upto s.dev)) ∧
      (opc = 0x53 → s.dev.hqe.issues = true → s.dev.sec.leaf < 2 ^ 40 →
        Does (.attest r .ok) s (fun q => ∃ d bs, q.dev = endJob s.env t scOk 0 false (deliverAll s.env t (out bs) d) ∧
          d.sec.leaf = s.dev.sec.leaf + 1 ∧ bs.length = min (capLen c) 10149 ∧
          let body := attestBody s.env s.dev ((v512Bytes c).drop 32) s.dev.sec.leaf
          bs = (body ++ (List.range 9893).map (Config.signature s.dev.sec.leaf body)).take (capLen c)))) ∧
    (s.dev.adm.test = some (kind, start) →
      (s.env.pw.st = .active → NextDev (.selfTestEnd 0 code false) s (done 0 0 0 (runSegments s.env kind 0 0 s.dev))) ∧
      (s.env.pw.st = .active → 1 ≤ seg → seg ≤ 4 ∨ seg = 5 ∧ s.dev.cpt.bypass = 0 →
        NextDev (.selfTestEnd seg code false) s (done 1 seg code (runSegments s.env kind seg code s.dev))) ∧
      (s.env.pw.st ≠ .active → NextDev (.selfTestEnd seg code false) s s.dev) ∧
      (start + 86400 * 25000000 ≤ s.env.tick → NextDev (.selfTestEnd seg code true) s (done 3 0 0 s.dev))) ∧
    (s.env.pw.main = true → s.env.pw.st = .active → s.env.pw.trans = .none → s.dev.adm.selftestH ≠ 0 →
      s.dev.adm.lastPeriod + 3600 * s.dev.adm.selftestH ≤ opsecNow s.env → s.dev.adm.test = none →
      NextDev .selftestPeriod s { s.dev with adm := { s.dev.adm with
        test := some (1, s.env.tick), lastPeriod := opsecNow s.env } })

/-- Keyspaces, programs, queue pairs and the map lease (R105–R107, R125, R127, R377–R379, R402–R408). A deletion takes away
the pair it was accepted for, not one created under its QID since; a REVOKE waits for the lease's reads that are issued. -/
def Obligations.KeyspacesProgramsAndQueues : Prop :=
  ∀ (s : State) (r : TaskRef) (t : Task) (opc : Nat) (value : Rd) (bs : List Byte) (at_ : Nat × Nat × Nat) (why : Nat × Nat)
    (p : Pair) (ks : Byte) (until_ : Nat),
    let c := t.capsule
    let k := capKsid c
    let x := ksOf s.dev k
    let fin (i : Instr) (status : Byte) (result : Nat) (d : Dev) : Prop :=
      NextDev i s (endJob s.env t status (BitVec.ofNat 64 result) false d)
    let took (n : Nat) : Dev := copied t n s.dev
    let salt := takeFreeBytes 32 (took 32)
    let erased := takeFreeBytes 32 s.dev
    let root := ksrOf k x.salt bs
    let id := imgId bs
    let q := capOpts c
    let lease := sglEntries (capLen c / 16) bs
    (serving s.dev r opc = some t →
      (opc = 0x4F → x.exist = false → x.deleting = false →
        (bitOf c 48 = false → fin (.keyspaceCreate r value) scOk 0 (createKs k (cap c 6 1) [] [] s.dev)) ∧
        (bitOf c 48 = true → fetchData s.dev t 32 value = .data bs →
          fin (.keyspaceCreate r value) scOk 0 (createKs k (cap c 6 1) salt.1 (ksrOf k salt.1 bs) salt.2))) ∧
      (opc = 0x4F → (x.exist = true ∨ x.deleting = true) → fin (.keyspaceCreate r value) scExists 0 s.dev) ∧
      (opc = 0x50 → x.exist = true → fin (.keyspaceDelete r) scOk 0 (deleteKs k s.dev)) ∧
      (opc = 0x50 → x.exist = false → fin (.keyspaceDelete r) scNotFound 0 s.dev) ∧
      (opc = 0x51 → x.exist = true → x.encrypted = true →
        fin (.keyspaceErase r) scOk 0 (deleteKs k (updKs k (fun y => { y with salt := erased.1 }) erased.2))) ∧
      (opc = 0x51 → x.exist = true → x.encrypted = false → fin (.keyspaceErase r) scInvalidField 0 s.dev) ∧
      (opc = 0x52 → capOpts c = 0 → x.exist = true → x.encrypted = true →
        (lockedOut s.env x = true → fin (.keyspaceUnlock r value) scAuthFail 0 s.dev) ∧
        (lockedOut s.env x = false → fetchData s.dev t 32 value = .data bs →
          (checkOf k root = x.check → fin (.keyspaceUnlock r value) scOk 0 (updKs k (fun y =>
            { y with locked := false, ksr := root, mismatches := 0, lockout := none }) (took 32))) ∧
          (checkOf k root ≠ x.check → fin (.keyspaceUnlock r value) scAuthFail 0 (unlockFailed s.env k (took 32))))) ∧
      (opc = 0x52 → capOpts c = 1 → x.exist = true → x.encrypted = true →
        fin (.keyspaceLock r) scOk 0 (updKs k (fun y => { y with locked := true }) s.dev)) ∧
      (opc = 0x49 → t.job.phase = .start → fwBusy s.dev = false → fetchData s.dev t (capLen c) value = .data bs →
        let d := took bs.length
        (imgReject bs = some why → fin (.programLoad r value) scImageRejected (why.1 + why.2 * 2 ^ 32) d) ∧
        (imgReject bs = none → hooksGranted d bs = true → heldByOther d bs = false →
          placement d bs = some at_ → (tblGet d.mea.programs id = none ∨ programBusy d id = false) →
          fin (.programLoad r value) scOk (id + at_.1 * 2 ^ 32) (installProgram s.env bs at_ (unbindProgram id d)))) ∧
      (opc = 0x49 → t.job.phase = .start → fwBusy s.dev = true → fin (.programLoad r value) scBusyActivation 0 s.dev) ∧
      (opc = 0x4A → t.job.phase = .start → fwBusy s.dev = false → tblGet s.dev.mea.programs q = none →
        fin (.programUnload r) scNotFound 0 s.dev) ∧
      (opc = 0x4A → t.job.phase = .start → fwBusy s.dev = false → (∃ g, tblGet s.dev.mea.programs q = some g ∧
        g.unloading = false) → programBusy s.dev q = false →
        NextDev (.programUnload r) s (endUnload s.env t q (unbindProgram q s.dev))) ∧
      (opc = 0x4B → pairOf s.dev q = none → fin (.queueCreate r) scOk q { s.dev with hqe := { s.dev.hqe with
        pairs := tblSet s.dev.hqe.pairs q { newPair c with born := s.dev.mea.nextArrival } } }) ∧
      (opc = 0x4B → (pairOf s.dev q).isSome = true → fin (.queueCreate r) scExists 0 s.dev) ∧
      (opc = 0x4C → t.job.phase = .start → pairOf s.dev q = none → fin (.queueDelete r) scNotFound 0 s.dev) ∧
      (opc = 0x4C → t.job.phase = .start → pairOf s.dev q = some p → p.deleting = none →
        NextDev (.queueDelete r) s (acceptDelete s.env t q p s.dev)) ∧
      (opc = 0x4C → t.job.phase = .waitDrive → pairBusy s.dev q = false → pairOf s.dev q = some p →
        (p.deleting = some t.ref → fin (.queueDelete r) scOk t.job.total
          { s.dev with hqe := { s.dev.hqe with pairs := tblErase s.dev.hqe.pairs q } }) ∧
        (p.deleting ≠ some t.ref → fin (.queueDelete r) scOk t.job.total s.dev)) ∧
      (opc = 0x4C → t.job.phase = .waitDrive → pairBusy s.dev q = true → NextDev (.queueDelete r) s s.dev) ∧
      (opc = 0x4D → capOpts c = 0 → s.dev.hqe.lease.active = false → fetchData s.dev t (capLen c) value = .data bs →
        let d := took bs.length
        (leaseOk (capLen c / 16) bs = true → fin (.mapLeaseGrant r value) scOk (leaseBytes lease / 2 ^ 20)
          { d with hqe := { d.hqe with lease :=
            { active := true, sizeMib := leaseBytes lease / 2 ^ 20, gen := d.hqe.lease.gen + 1,
              lastReason := d.hqe.lease.lastReason, regions := lease } } }) ∧
        (leaseOk (capLen c / 16) bs = false → fin (.mapLeaseGrant r value) scInvalidField 0 d)) ∧
      (opc = 0x4D → capOpts c = 0 → s.dev.hqe.lease.active = true → fin (.mapLeaseGrant r value) scExists 0 s.dev) ∧
      (opc = 0x4D → capOpts c = 1 → s.dev.hqe.lease.active = true → t.job.phase = .start →
        (s.dev.hqe.lease.reads = [] → fin (.mapLeaseRevoke r) scOk 0
          { s.dev with hqe := { s.dev.hqe with lease := { gen := s.dev.hqe.lease.gen } } }) ∧
        (s.dev.hqe.lease.reads ≠ [] → Does (.mapLeaseRevoke r) s (fun q => q.env = s.env ∧
          q.dev.hqe = { s.dev.hqe with lease := { s.dev.hqe.lease with revoking := true } }))) ∧
      (opc = 0x4D → capOpts c = 1 → s.dev.hqe.lease.active = true → t.job.phase = .waitDrive → t.job.asked = s.dev.hqe.lease.gen.toNat →
        (s.dev.hqe.lease.reads = [] → fin (.mapLeaseRevoke r) scOk 0
          { s.dev with hqe := { s.dev.hqe with lease := { gen := s.dev.hqe.lease.gen } } }) ∧
        (s.dev.hqe.lease.reads ≠ [] → NextDev (.mapLeaseRevoke r) s s.dev)) ∧
      (opc = 0x4D → capOpts c = 1 → s.dev.hqe.lease.active = true → t.job.phase = .waitDrive → t.job.asked ≠ s.dev.hqe.lease.gen.toNat →
        fin (.mapLeaseRevoke r) scOk 0 s.dev) ∧
      (opc = 0x4D → capOpts c = 1 → s.dev.hqe.lease.active = false → t.job.phase = .start →
        fin (.mapLeaseRevoke r) scNotFound 0 s.dev) ∧
      (opc = 0x4D → capOpts c = 2 → fin (.mapLeaseQuery r) scOk
        (s.dev.hqe.lease.sizeMib + s.dev.hqe.lease.lastReason * 2 ^ 32) s.dev)) ∧
    ((ksOf s.dev ks.toNat).lockout = some until_ →
      (until_ ≤ s.env.tick → NextDev (.unlockLockoutEnd ks) s
        (updKs ks.toNat (fun y => { y with lockout := none, mismatches := 0 }) s.dev)) ∧
      (s.env.tick < until_ → NextDev (.unlockLockoutEnd ks) s s.dev))

/-- Firmware (R413–R424, R235). A download is copied into the buffer; a commit writes the slot that is not confirmed when
every check of R414 passes, the slot holding no valid image until it has been read back, and reports the first that fails
when not; an activation waits for a reset or swaps once every old task has ended; a swap whose image fails verification
leaves the old one running; confirmation makes the trial slot the confirmed one, then takes its steps in order, each once
the one before is durable, and answers with the last; the end of a trial's seconds begins the fall-back. Recovery ends with nothing held (R235). -/
def Obligations.FirmwareUpdate : Prop :=
  ∀ (s : State) (r : TaskRef) (t : Task) (opc slot t0 secs : Nat) (value : Rd) (bs : List Byte) (sigOk slotOk : Bool)
    (why : Nat × Nat) (img : Image) (who : Option TaskRef) (facts : RecoveryFacts) (n seq : Nat),
    let c := t.capsule
    let fin (i : Instr) (status : Byte) (result : Nat) (d : Dev) : Prop :=
      NextDev i s (endJob s.env t status (BitVec.ofNat 64 result) false d)
    let d1 := download (bitOf c 48) (capOff c) bs (copied t bs.length s.dev)
    let target := 1 - s.dev.sec.conf
    let new := bufImage s.dev
    let failed := updSec (fun x => { x with pending := false, committed := none }) (passOver s.env slot slotOk s.dev)
    let sec := s.dev.sec
    (serving s.dev r opc = some t →
      (opc = 0x45 → fwBusy s.dev = false → fetchData s.dev t (capLen c) value = .data bs →
        fin (.fwDownload r value) scOk (4 * d1.sec.bufWords.length) d1) ∧
      (opc = 0x45 → fwBusy s.dev = true → fin (.fwDownload r value) scBusyActivation 0 s.dev) ∧
      (opc = 0x46 → (∀ k, t.job.phase ≠ .pieces k) → fwBusy s.dev = false → sec.trial = none →
        (imageBad s.dev sigOk = none → sec.recovery = false → NextDev (.fwCommit r sigOk slotOk) s
          (waitJob s.env t { t.job with phase := .pieces target } { s.dev with sec := { sec with
            slots := vset sec.slots target (some { new with valid := false, torn := true }), committed := none } })) ∧
        (imageBad s.dev sigOk = some why → fin (.fwCommit r sigOk slotOk) scImageRejected (why.1 + why.2 * 2 ^ 32)
          (event s.env 0x0E38 3 clsSecurity 0 why.1 why.2 0 s.dev))) ∧
      (opc = 0x46 → t.job.phase = .pieces slot → slotImage s.dev slot = some img →
        fin (.fwCommit r sigOk true) scOk (slot + img.svn * 256)
          (event s.env 0x0E30 1 clsSecurity 0 slot (img.version.toNat % 2 ^ 32) img.svn { s.dev with sec := { sec with
            slots := vset sec.slots slot (some { img with valid := true, torn := false }), committed := some slot } }) ∧
        fin (.fwCommit r sigOk false) scImageRejected 5 (event s.env 0x0E38 3 clsSecurity 0 5 0 0 s.dev)) ∧
      (opc = 0x46 → (∀ k, t.job.phase ≠ .pieces k) → (fwBusy s.dev = true ∨ sec.trial.isSome = true) →
        fin (.fwCommit r sigOk slotOk) scBusyActivation 0 s.dev) ∧
      (opc = 0x47 → cap c 6 1 = 0 → activateRefused s.dev false = none →
        fin (.fwActivateDeferred r) scOk 0
          { s.dev with sec := { s.dev.sec with pending := true, pendTrialS := trialSecs c } }) ∧
      (opc = 0x47 → cap c 6 1 = 0 → s.dev.sec.committed = none → fin (.fwActivateDeferred r) scNotFound 0 s.dev) ∧
      (opc = 0x47 → cap c 6 1 = 1 → t.job.phase = .start → activateRefused s.dev true = none →
        Does (.fwActivateImmediate r) s (fun q => q.dev.hqe.fetchPaused = true ∧ q.dev.xpt.creditHeld = true ∧
          q.dev.sec = { s.dev.sec with activating := some (some t.ref, s.env.tick, trialSecs c) } ∧ q.env = s.env)) ∧
      (opc = 0x48 → t.job.phase ≠ .waitDrive → sec.trial = none → fin (.fwConfirm r) scNotFound 0 s.dev) ∧
      (opc = 0x48 → t.job.phase ≠ .waitDrive → sec.trial = some slot → slotImage s.dev slot = some img →
        NextDev (.fwConfirm r) s (waitJob s.env t { t.job with phase := .waitDrive } { s.dev with sec := { sec with
          conf := slot, trial := none, trialBoots := 0, trialLeft := 0, confirming := some (slot, 2, 0) } })) ∧
      (opc = 0x48 → t.job.phase = .waitDrive → sec.confirming = some (slot, n, seq) → slotImage s.dev slot = some img →
        let fmt := max sec.driveFmt img.fmtWrite
        let last (d : Dev) : Prop := fin (.fwConfirm r) scOk 0
          (event s.env 0x0E32 1 clsSecurity 0 slot (img.version.toNat % 2 ^ 32) d.sec.driveFmt
            { d with sec := { d.sec with confirming := none } })
        (s.dev.trl.jDurable < seq → NextDev (.fwConfirm r) s s.dev) ∧
        (seq ≤ s.dev.trl.jDurable →
          (n = 2 → Does (.fwConfirm r) s (fun q => q.dev.sec.minSvn = max sec.minSvn img.svn ∧
            q.dev.sec.confirming = some (slot, 3, 0) ∧ q.env = s.env)) ∧
          (n = 3 → Does (.fwConfirm r) s (fun q => q.dev.sec.confirming = some (slot, 4, s.dev.trl.jNext) ∧
            q.dev.sec.driveFmt = sec.driveFmt ∧ q.dev.trl.jNext = s.dev.trl.jNext + 1)) ∧
          (n = 4 → img.loader = false → last { s.dev with sec := { sec with driveFmt := fmt } }) ∧
          (n = 4 → img.loader = true → NextDev (.fwConfirm r) s { s.dev with sec := { sec with
            driveFmt := fmt,
            loaderB := (img.loaderVersion, img.loaderDigest), confirming := some (slot, 5, 0) } }) ∧
          (n = 5 → last { s.dev with sec := { sec with loaderA := (img.loaderVersion, img.loaderDigest) } })))) ∧
    (s.dev.sec.activating = some (who, t0, secs) → swapState s.env = true → swapReady s.dev who = true →
      s.dev.sec.fallingBack = false → s.dev.sec.committed = some slot →
      (candidateOk s.dev slot slotOk = true → s.dev.sec.recovery = false → who = none →
        Does (.activationSwap slotOk) s (fun q => q.env = s.env ∧ q.dev.sec.trial = some slot ∧ q.dev.sec.runSlot = slot ∧
          q.dev.sec.activating = none ∧ q.dev.sec.committed = none ∧ q.dev.hqe.fetchPaused = false ∧
          q.dev.sec.conf = s.dev.sec.conf)) ∧
      (candidateOk s.dev slot slotOk = false →
        NextDev (.activationSwap slotOk) s (answerActivate s.env who scImageRejected 0 (activationResume s.env failed)))) ∧
    (s.dev.sec.activating = some (who, t0, secs) → s.dev.sec.fallingBack = false → t0 + 37500000 ≤ s.env.tick →
      (oldTasks s.dev who).isEmpty = false →
      NextDev .fwActivationAbandoned s (answerActivate s.env who scBusyActivation 0
        (event s.env 0x0E34 3 clsSecurity 0 (oldTasks s.dev who).length 0 0
          (activationResume s.env { s.dev with sec := { s.dev.sec with pending := false } })))) ∧
    (s.dev.sec.trial = some slot → trialLeftNow s.env s.dev = 0 → s.dev.sec.activating = none → s.env.pw.resetStep = none →
      (s.env.pw.st = .active ∨ s.env.pw.st = .dormant) →
      Does .fwTrialExpiry s (fun q => q.env = s.env ∧ q.dev.sec.trial = none ∧ q.dev.sec.fallingBack = true ∧
        q.dev.sec.activating = some (none, s.env.tick, 0) ∧ q.dev.hqe.fetchPaused = true ∧ q.dev.mea = s.dev.mea)) ∧
    (s.env.pw.st = .bringup → 4 ≤ s.env.pw.bringStep → s.dev.trl.recovering = true →
      Does (.recoveryDone facts) s (fun q => q.env = { s.env with pw := { s.env.pw with recovered := true, sealed := true } } ∧
        q.dev.flt.held = [] ∧ q.dev.trl.recovering = false))

/-! ### Chain ports and transport (08, 09) -/

/-- Frames (R264–R268, R275–R277, R282). On a port that is up and inserted a good frame is handled by the first row of R264
that matches; one to be forwarded joins the other port's egress buffer unchanged while the drive forwards and there is
room, one that breaks the rules is counted, and a frame whose turn it is leaves its buffer. A pause ends with its quanta,
is refreshed every 20 µs, and a storm, found at a step of the timer wheel, discards what waits at its priority until
pauses have ceased. -/
def Obligations.FramesAreForwarded : Prop :=
  ∀ (s : State) (p n t0 : Nat) (f : FrameIn) (g : EFrame), p < 2 →
    let x := portOf s.dev p
    let h := frameHead f.bytes
    let prio := rxPrio x h
    let d1 := portCount p 0 s.dev
    let row := frameRow s.dev f.bytes h
    let i : Instr := .frameReceive p f
    let waiting := x.egress.filter (fun y => y.prio == n)
    (x.link = true → s.dev.cpt.bypass = 1 → f.respond = false → badFrame s.env p f d1 = none →
      (row = .forward → NextDev i s (forwardFrame s.env p prio f.bytes d1)) ∧
      (row = .forward → forwards s.dev = true → vget (portOf s.dev (1 - p)).storm prio none = none →
        egressRoom d1 p prio (f.bytes.length + 4) = true → Does i s (fun q => q.env = s.env ∧
          (portOf q.dev (1 - p)).egress = (portOf s.dev (1 - p)).egress ++ [⟨f.bytes, some p, prio, s.env.tick, false⟩] ∧
          (portOf q.dev p).egress = x.egress ∧ q.dev.xpt.rx = s.dev.xpt.rx)) ∧
      (row = .pause → NextDev i s (pauseIn s.env p f.bytes h.body d1)) ∧
      (row = .macctl → NextDev i s (event s.env 0x020C 2 clsProtocol p (beAt f.bytes h.body 2) 0 0 (partnerErr s.env p 12 d1))) ∧
      (row = .linkLocal → NextDev i s (partnerErr s.env p 11 d1)) ∧
      (row = .station → actFrame d1 (portOf d1 p) h = true → s.env.pw.st ≠ .dormant →
        NextDev i s (deliverXpt s.env p h.src false (f.bytes.drop h.body) d1)) ∧
      (row = .station → actFrame d1 (portOf d1 p) h = false → NextDev i s (rejectLocal s.env p h d1))) ∧
    (x.link = true → s.dev.cpt.bypass = 1 → f.respond = false → f.mergeErr = none → f.linkFails = false →
      60 ≤ f.bytes.length → f.bytes.length ≤ 9212 → f.fcsOk = false → f.stomped = false → startedOn s.env p prio f s.dev = false →
      NextDev i s (event s.env 0x0201 2 clsProtocol p (f.bytes.length + 4) 0 0 (partnerErr s.env p 2 d1))) ∧
    ((x.link = false ∨ s.dev.cpt.bypass ≠ 1) → NextDev i s s.dev) ∧
    (x.link = true → s.dev.cpt.op ≠ .removing → nextFrame s.env (forwardHeld s.dev) x = some g →
      let out := portCount p 1 (updPort p (fun y => { y with
        egress := y.egress.erase g, sent := y.sent ++ [g], ownLast := vset y.ownLast g.prio g.from?.isNone }) s.dev)
      (g.from? = none → NextDev (.egressFrameStart p) s out) ∧
      (∀ k, g.from? = some k → NextDev (.egressFrameStart p) s
        (pfcCheck s.env k g.prio (charge 0 (energyV2 out 1000 (g.bytes.length + 4) 1024) out)))) ∧
    (vget x.pausedUntil n none = some t0 →
      (t0 ≤ s.env.tick → NextDev (.pauseExpiry p n) s (updPort p (fun y => { y with
        pausedUntil := vset y.pausedUntil n none, pausedSince := vset y.pausedSince n none }) s.dev)) ∧
      (s.env.tick < t0 → NextDev (.pauseExpiry p n) s s.dev)) ∧
    (vget x.xoff n none = some t0 → t0 + 500 ≤ s.env.tick → xonBytes x < heldFrom s.dev p n → x.link = true →
      NextDev (.pfcXoffRefresh p n) s (sendPfc s.env p n 65535
        (updPort p (fun y => { y with xoff := vset y.xoff n (some s.env.tick) }) s.dev))) ∧
    (vget x.pausedSince n none = some t0 → pausedNow s.env x n = true → waiting ≠ [] →
      t0 + stormTicks x ≤ 250 * (s.env.tick / 250) →
      vget x.storm n none = none → NextDev (.pfcStorm p n) s (event s.env 0x0204 4 clsProtocol p n 0 0 (setCause s.env 2 0x90
        (pfcCheck s.env (1 - p) n (updPort p (fun y => { y with
          storm := vset y.storm n (some s.env.tick), pausedUntil := vset y.pausedUntil n none,
          pausedSince := vset y.pausedSince n none, egress := y.egress.filter (fun z => z.prio != n),
          counts := vupd y.counts 16 (· + waiting.length) }) s.dev))))) ∧
    (vget x.storm n none = some t0 → vget x.lastPause n 0 + recoverTicks x ≤ s.env.tick →
      NextDev (.pfcStormEnd p n) s (event s.env 0x0205 1 clsProtocol p n ((s.env.tick - t0) / 25000) 0
        (updPort p (fun y => { y with storm := vset y.storm n none }) s.dev)))

/-- Links, the ring and the bypass switch (R252–R263, R269, R270, R273, R280, R365, R409). -/
def Obligations.LinksRingAndSwitch : Prop :=
  ∀ (s : State) (p ms k t0 : Nat) (lanes : W32) (a b : Bool) (r : TaskRef) (t : Task) (c : ChainCmd) (rest : List ChainCmd),
    p < 2 →
    let x := portOf s.dev p
    let up := event s.env 0x020E 0 clsHardware p ms 0 0 (setCause s.env 2 1 (pfcCheckAll s.env p (updPort p (fun y => { y with
      link := true, fecLock := true, preempt := false, verify := b2n (bitOf y.pctrl 24), verifyAt := s.env.tick, resetting := false }) s.dev)))
    let old (y : Nat × EFrame) : Bool := decide (y.2.tick + 25000000 < s.env.tick)
    let ready (q : ChainCmd) : ChainCmd :=
      if q.resp.isSome && q.waits.isNone && q.since + 250000 ≤ s.env.tick then { q with resp := none } else q
    let mine : ChainCmd := { task := some t.ref, action := cap t.capsule 6 1, port := cap t.capsule 7 1, since := s.env.tick }
    let t1 : Task := { t with job := { t.job with phase := .waitDrive } }
    let alone := (s.dev.mea.tasks.takeWhile (fun y => y.ref != t.ref)).any (fun y => capOpc y.capsule == 0x54 &&
      !y.completed && y.job.phase == .start && y.kind != .hook) = false
    (1 ≤ k → k ≤ 3 → NextDev (.linkDown p k) s (portDown s.env p k s.dev)) ∧
    (x.link = false → s.dev.cpt.bypass = 1 → s.dev.cpt.op ≠ .removing → s.dev.cpt.cmds = [] → NextDev (.linkUp p ms) s up) ∧
    (x.verify = 1 → x.verifyAt + 750000 ≤ s.env.tick → NextDev (.preemptVerifyFailed p) s (event s.env 0x0207 3 clsProtocol p 0 0 0 (setCause s.env 2 0x20
      (portCount p 21 (updPort p (fun y => { y with verify := 3, preempt := false }) s.dev))))) ∧
    NextDev .heldFrameExpiry s ((s.dev.cpt.heldFrames.filter old).foldl (fun d y => loseFrame y.2 d)
      { s.dev with cpt := { s.dev.cpt with heldFrames := s.dev.cpt.heldFrames.filter (fun y => !old y) } }) ∧
    (s.dev.cpt.probeMs ≠ 0 → s.dev.cpt.lastProbe + probeTicks s.dev ≤ s.env.tick → NextDev .ringProbe s
      (sendProbe s.env 1 (sendProbe s.env 0 { s.dev with cpt := { s.dev.cpt with lastProbe := s.env.tick } }))) ∧
    (s.dev.cpt.ringOpen = false → ringSeen s.env s.dev = true → recent s.env s.dev s.dev.cpt.lowerProbe = false →
      NextDev .ringOpened s (event s.env 0x0212 3 clsProtocol ringSrc 0 0 0 (setCause s.env 2 0x40
        { s.dev with cpt := { s.dev.cpt with ringOpen := true } }))) ∧
    (s.dev.cpt.ringOpen = true → ringSeen s.env s.dev = false →
      NextDev .ringClosed s (event s.env 0x0213 1 clsProtocol ringSrc 1 0 0 (setCause s.env 2 0x40
        { s.dev with cpt := { s.dev.cpt with ringOpen := false } }))) ∧
    (s.dev.cpt.op = .selftest →
      NextDev (.insertSelftestDone true lanes) s { s.dev with cpt := { s.dev.cpt with
        selftestOk := true, hold := true, bypass := 2, op := .inserting, opTick := s.env.tick,
        lastCause := s.dev.cpt.opCause } } ∧
      NextDev (.insertSelftestDone false lanes) s (chainDone s.env 0 scChainDown (insertFailed s.env 1 lanes.toNat
        { s.dev with cpt := { s.dev.cpt with selftestOk := false, op := .none, optics := false } }))) ∧
    (s.dev.cpt.op = .inserting → NextDev .bypassChanged s (event s.env 0x020F 1 clsHardware 0xFF 1 s.dev.cpt.lastCause 0
      (setCause s.env 2 2 { s.dev with cpt := { s.dev.cpt with bypass := 1, sensed := true, op := .locking s.env.tick } }))) ∧
    (s.dev.cpt.op = .removing → NextDev .bypassChanged s (bypassed s.env s.dev)) ∧
    (s.dev.cpt.op = .locking t0 → t0 + 5000000 ≤ s.env.tick → x.link = true →
      let ended : Dev := { s.dev with cpt := { s.dev.cpt with op := .none } }
      let f := takeFree ended
      ((portOf s.dev (1 - p)).link = true → NextDev .insertDecision s (chainDone s.env 0 scOk ended)) ∧
      ((portOf s.dev (1 - p)).link = false → NextDev .insertDecision s
        (chainDone s.env 0 scOk (reportDown s.env (1 - p) (1 + f.1.toNat % 3) f.2)))) ∧
    (s.dev.cpt.op = .inserting → s.dev.cpt.opTick + 750000 ≤ s.env.tick → s.dev.cpt.sensed ≠ s.dev.cpt.hold →
      Does .bypassFault s (fun q => ∃ d, q.dev = chainNext s.env (chainDone s.env 0 scChainDown (insertFailed s.env 3 0 d)) ∧
        d.cpt.bypass = 3 ∧ d.cpt.op = .none ∧ d.cpt.optics = false)) ∧
    (s.env.pw.aux12 = true → s.env.pw.main = true →
      let env' : Env := { s.env with pw := { s.env.pw with aux12 := false } }
      exec .aux12vLoss s = .next { s with env := env', dev := removeNow env' 3 (supplyLost env' s.dev) }) ∧
    exec .aux12vPresent s = .next { s with env := { s.env with pw := { s.env.pw with aux12 := true } } } ∧
    exec (.senseChange a b) s = .next { s with env := { s.env with pw := { s.env.pw with sense0 := a, sense1 := b } } } ∧
    (serving s.dev r 0x54 = some t → alone → t.job.phase = .start → t.kind ≠ .act →
      let queued := chainNext s.env { park s.env t1 (putTask t1 s.dev) with
        cpt := { (park s.env t1 (putTask t1 s.dev)).cpt with cmds := s.dev.cpt.cmds ++ [mine] } }
      (cap t.capsule 6 1 = 0 → NextDev (.chainControlInsert r) s queued) ∧
      (cap t.capsule 6 1 = 1 → NextDev (.chainControlBypass r) s queued) ∧
      (cap t.capsule 6 1 = 2 → NextDev (.portReset r) s queued)) ∧
    (s.dev.cpt.cmds = c :: rest → c.started = true → c.action = 2 → c.since + 5000000 ≤ s.env.tick →
      (portOf s.dev c.port).link = false → NextDev .portResetTimeout s (chainDone s.env 2 scChainDown s.dev)) ∧
    NextDev .respAckWaitExpiry s (chainNext s.env { s.dev with cpt := { s.dev.cpt with cmds := s.dev.cpt.cmds.map ready } })

/-- Messages of flows (R289–R303). Each row takes the oldest message delivered when it is of its kind. A good OPEN opens a
flow and answers; a command in sequence joins the arrivals or, rejected, is answered; DATA in sequence extends its
command's stream; an acknowledgement frees what it covers; the timers acknowledge, retransmit at a step of the wheel that
serves the flow's slot, time out and reset. -/
def Obligations.FlowMessages : Prop :=
  ∀ (s : State) (m : ActMsg) (rest : List ActMsg) (id t0 : Nat) (fl : Flow) (u : Unacked) (us : List Unacked) (st : Stream)
    (v : Verdict),
    let h := hdrOf m.bytes
    let d := { s.dev with xpt := { s.dev.xpt with rx := rest } }
    let c := bytesV512 (slice h.payload 0 64)
    let seen (d : Dev) : Dev := updFlow id (fun f => { f with lastRx := s.env.tick }) d
    let here : Dev := updFlow id (fun f => { f with port := m.port }) (seen d)
    let taken : Dev := acceptSeq s.env id here
    let bound := s.dev.xpt.rx = m :: rest ∧ flowOf d h.dflow = some fl ∧ h.dflow = id ∧ fl.client = m.src ∧
      fl.sflow.toNat = h.sflow
    let good := bound ∧ h.ackValid = false
    let next := good ∧ h.seq = fl.rxNext ∧ seqBefore h.seq fl.rxWin = true
    let rto := min (2 * fl.rto) (64 * xptRto s.dev)
    (s.dev.xpt.rx = m :: rest → h.kind = 1 →
      d.xpt.flows.find? (fun y => y.2.client == m.src && y.2.sflow.toNat == h.sflow) = none →
      ((openStatus d m.src h).1 = scOk → NextDev .actOpen s (openFlow s.env m h d) ∧
        ∃ f, flowOf (openFlow s.env m h d) ((freeFlowId d).getD 0) = some f ∧ f.client = m.src ∧ f.rxNext = h.seq) ∧
      (∀ tok status, openStatus d m.src h = (status, tok) → status ≠ scOk →
        NextDev .actOpen s (refuseOpen s.env m h status tok d))) ∧
    (next → h.kind = 3 → NextDev .actClose s (consumeOne id fl.group (updFlow id (fun f => { f with closing := true })
      taken))) ∧
    (next → h.kind = 5 → fl.closing = false → fl.stream = none → h.payload.length = 64 → h.doff = 0 →
      streamKey c + streamData c = 0 → checkEntry taken { kind := .act, id := id } c = some v →
      NextDev .actCmd s (sendResp s.env id none h.cid v.1 v.2 false (consumeOne id fl.group
        (if v.1 = scInvalidOpcode ∨ v.1 = scInvalidField ∨ v.1 = scTooLarge then setCause s.env 3 2 taken else taken)))) ∧
    (next → h.kind = 5 → fl.closing = false → fl.stream = none → h.payload.length = 64 → h.doff = 0 →
      streamKey c + streamData c = 0 → checkEntry taken { kind := .act, id := id } c = none →
      Does .actCmd s (fun q => q.env = s.env ∧ q.dev.mea.arrivals.length = s.dev.mea.arrivals.length + 1 ∧
        ∃ a, q.dev.mea.arrivals.getLast? = some a ∧ a.kind = .act ∧ a.capsule = c ∧ a.source = BitVec.ofNat 16 id ∧
          a.no = s.dev.mea.nextArrival)) ∧
    (next → h.kind = 6 → fl.stream = some st → st.cid.toNat = h.cid → st.have_ = h.doff →
      st.have_ + h.payload.length ≤ st.need → NextDev .actData s (takeData s.env h id fl st here)) ∧
    (next → h.kind = 6 → fl.stream = none → NextDev .actData s (streamError s.env m h id here)) ∧
    (good → h.kind = 8 → NextDev .actAck s (seen d)) ∧
    (bound → h.kind = 8 → h.ackValid = true →
      (seqBefore (firstUnsent fl) h.ack = false → NextDev .actAck s (takeAck s.env id fl h (seen d))) ∧
      (seqBefore (firstUnsent fl) h.ack = true →
        NextDev .actAck s (xptFault s.env 7 0x0307 2 m.port id h.ack.toNat 0 (seen d)))) ∧
    (good → h.kind = 10 → NextDev .actReset s (chainAcked s.env (freeFlow id (seen d)))) ∧
    (flowOf s.dev id = some fl →
      (fl.closing = true → fl.unacked = [] → fl.queue = [] → fl.inbound = [] → fl.stream = none →
        NextDev (.closeAck id) s (chainAcked s.env (freeFlow id (sendOnFlow s.env id fl kCloseAck 0 0 0 false false [] s.dev)))) ∧
      (fl.ackSince = some t0 → t0 + 500 ≤ s.env.tick → NextDev (.ackDelay id) s (bareAck s.env id false s.dev)) ∧
      (fl.rtoDue = some t0 → fl.unacked = u :: us → t0 ≤ 250 * (s.env.tick / 250) →
        (List.range 8).any (stormDue s.env (portOf s.dev fl.port)) = false →
        slotServed s.env (portOf s.dev fl.port) fl.pcp (1 + id % 7) = true →
        let served := updPort fl.port (countServed s.env fl.pcp (1 + id % 7)) s.dev
        (fl.retries + 1 < xptRetryMax s.dev → NextDev (.retransmitTimeout id) s (resend s.env id [u]
          (updFlow id (fun f => { f with retries := f.retries + 1, rto := rto, rtoDue := some (s.env.tick + 250 * rto),
                                         rtoFired := some s.env.tick }) served))) ∧
        (xptRetryMax s.dev ≤ fl.retries + 1 → NextDev (.retransmitTimeout id) s (resetFlow s.env id 4 served))) ∧
      (fl.rtoDue = some t0 → 250 * (s.env.tick / 250) < t0 → NextDev (.retransmitTimeout id) s s.dev) ∧
      (xptIdleS s.dev ≠ 0 → fl.lastRx + xptIdleS s.dev * 25000000 ≤ s.env.tick →
        NextDev (.idleTimeout id) s (resetFlow s.env id 6 s.dev)) ∧
      (fl.stream = some st → st.since + 250000000 ≤ s.env.tick → st.arr = none →
        (st.ended = false → NextDev (.streamTimeout id) s (sendResp s.env id none st.cid.toNat scTimeout 0 false
          (updFlow id (fun f => { f with stream := some { st with ended := true } }) s.dev))) ∧
        (st.ended = true → NextDev (.streamTimeout id) s s.dev)) ∧
      (fl.attnDue = true → (∀ y, fl.lastAttn = some y → y / 25000 < s.env.tick / 25000) →
        NextDev (.attn id) s (sendSeq s.env id kAttn 0 0 false
          (natLe 4 (attnSummary s.dev.attn).toNat ++ natLe 4 0 ++ natLe 8 s.env.tick)
          (updFlow id (fun f => { f with attnDue := false, lastAttn := some s.env.tick }) s.dev))))

/-! ### Power, the governor, the blower and the management bus (11, 16–19) -/

/-- Main power and VAUX (R447, R450–R453, R456, R460, R462, R463). Power-on starts bring-up with the power registers at their
reset values, PCYC counted and the hold-up bank not yet measured; bring-up goes on step by step to ACTIVE, or to RECOVERY where no image runs;
a loss of main power starts the drain, stops fetching and running, and counts as unsafe without SHUTDOWN_DONE; the drain
ends in OFF, or starts bring-up at once where main power has come back; RDM restarts its time base at 0. -/
def Obligations.MainPower : Prop :=
  ∀ (s : State) (rail ms mj : Nat) (b : BringFacts) (x y v w : Bool),
    let pw := s.env.pw
    let at_ (n : Nat) (d : Dev) : Prop :=
      exec (.bringupStep b) s = .next { s with env := { s.env with pw := { pw with bringStep := n } }, dev := d }
    let stepping (n : Nat) : Prop := pw.st = .bringup ∧ pw.resetStep = none ∧ pw.trans = .none ∧ pw.bringStep = n
    let env2 : Env := { s.env with pw := { pw with bringStep := 2 } }
    let loader := verifyLoader s.env b.loaderA b.loaderB s.dev
    let chosen := bootSelect s.env (fun n => if n = 0 then b.slot0Ok else b.slot1Ok) s.dev
    (pw.main = false → pw.st = .off → Does .mainPowerGood s (fun q => q.env.pw.st = .bringup ∧ q.env.pw.bringStep = 1 ∧
      q.env.pw.main = true ∧ q.env.pw.pcyc = pw.pcyc + 1 ∧ q.env.pw.measured = false ∧ q.env.pw.limitMib = 0 ∧
      q.env.pw.energyMj = 0 ∧ q.env.pw.capDmf = 0 ∧ q.env.pw.periodH = 0x18 ∧ q.env.pw.measStart = false ∧
      q.env.pw.wakeCause = 0 ∧ q.dev.lastReset = 1 ∧
      (pw.loopOpen = false → q.env.pw.resetStep = none ∧ q.dev.hqe.enable = false ∧ q.dev.mea.tasks = [] ∧ q.dev.cpt.bypass = 0) ∧
      (pw.loopOpen = true → pw.loopActed = false → q.dev.sec.tamperSeen = true ∧ q.dev.ccl.keys = []))) ∧
    (pw.main = false → pw.st = .drain →
      exec .mainPowerGood s = .next { s with env := { s.env with pw := { pw with mainBack := true } } }) ∧
    (stepping 1 → at_ 2 (takeSupply env2 s.dev)) ∧
    (stepping 2 → bitOf s.dev.attn.holding 1 = false →
      ((b.loaderA = true ∨ b.loaderB = true) → at_ 3 loader.2) ∧
      (b.loaderA = false → b.loaderB = false → at_ 2 loader.2)) ∧
    (stepping 3 → (chosen.sec.recovery = false → at_ 4 chosen) ∧
      (chosen.sec.recovery = true → Does (.bringupStep b) s (fun q => q.env.pw.st = .recovery ∧ q.dev.sec = chosen.sec))) ∧
    (stepping 4 → at_ 5 (applyBlowerBudget { s.env with pw := { pw with bringStep := 5 } } s.dev)) ∧
    (stepping 5 → (pw.recovered = true → at_ 6 s.dev) ∧ (pw.recovered = false → at_ 5 s.dev)) ∧
    (stepping 6 → (pw.measured = true → at_ 7 s.dev) ∧ (pw.measured = false → at_ 6 s.dev)) ∧
    (stepping 7 → Does (.bringupStep b) s (fun q => q.env.pw.st = .active ∧ q.env.pw.bringStep = 8 ∧ q.env.tick = s.env.tick ∧
      (s.dev.hqe.enableHeld = true → s.dev.hqe.resetBusy = false → fld s.dev.hqe.admSize 0 12 ≠ 0 →
        q.dev.hqe.enable = true ∧ q.dev.hqe.ready = true))) ∧
    (pw.st = .active → pw.bringStep = 8 → at_ 9 (if s.dev.adm.autoInsert = 1 then autoInsert s.env s.dev else s.dev)) ∧
    (pw.main = true → (pw.st = .active ∨ pw.st = .dormant ∨ pw.st = .bringup ∨ pw.st = .recovery) →
      Does (.mainPowerLost rail) s (fun q => q.env.pw.st = .drain ∧ q.env.pw.main = false ∧ q.env.pw.trans = .none ∧
        q.env.pw.resetStep = none ∧ q.env.pw.opsecBase = opsecNow s.env ∧ q.env.tick = s.env.tick ∧
        q.env.pw.unsafePending = !s.dev.hqe.shutdownDone ∧
        q.env.pw.unsafeOff = (if s.dev.hqe.shutdownDone then pw.unsafeOff else sat32 (pw.unsafeOff + 1)) ∧
        q.dev.mea.arrivals = [] ∧ q.dev.mea.tasks = [] ∧ q.dev.hqe.linkSpeed = 0 ∧ q.dev.hqe.fetchStopped = true ∧
        q.dev.bgv.setpoint = 50)) ∧
    (pw.main = true → pw.st = .retention →
      ((pw.aux33 = true ∨ pw.auxAlt = true) → exec (.mainPowerLost rail) s = .next { s with env := stopClock (loseSlot33 rail s.env) }) ∧
      (pw.aux33 = false → pw.auxAlt = false → Does (.mainPowerLost rail) s (fun q => q.env.pw.st = .off))) ∧
    (pw.st = .drain →
      (pw.mainBack = false → Does (.drainDone ms mj x) s (fun q => q.env.pw.st = .off ∧
        q.env.pw.sealed = (if s.dev.trl.recovering then pw.sealed else x) ∧
        q.dev.mea.tasks = [] ∧ q.dev.hqe.pairs = [])) ∧
      (pw.mainBack = true → Does (.drainDone ms mj x) s (fun q => q.env.pw.st = .bringup ∧ q.env.pw.main = true ∧
        q.env.pw.pcyc = pw.pcyc + 1))) ∧
    (pw.st = .retention → pw.main = false → Does .vauxLoss s (fun q => q.env.pw.st = .off ∧ q.dev.mea.dr = [])) ∧
    (¬ (pw.st = .retention ∧ pw.main = false) →
      exec .vauxLoss s = .next { s with env := { s.env with pw := { pw with aux33 := false, auxAlt := false } } }) ∧
    (pw.st = .off → pw.aux33 = false → pw.auxAlt = false → pw.slot33 = false → Does (.timebaseRestart x y v w) s (fun q => q.env.tick = 0 ∧ q.env.pw.st = .off ∧ q.env.pw.m2 = x ∧
      q.env.pw.m3 = y ∧ q.env.pw.aux33 = v ∧ q.env.pw.auxAlt = w ∧ q.env.pw.restarted = true))

/-- DORMANT and RETENTION (R447–R449, R454). Entry to DORMANT begins from ACTIVE only, a wake cause abandons it or wakes the
drive, which resumes in ACTIVE; entry to RETENTION takes the effects of a controller reset and ends with VCORE off, no
program, every flow reset; WAKE# and the rising edge of PERST# start bring-up from step 2 with main power. -/
def Obligations.DormantAndRetention : Prop :=
  ∀ (s : State) (t0 : Nat) (th : Bool),
    let pw := s.env.pw
    let with_ (p : Power) : Env := { s.env with pw := p }
    let quietNow := s.dev.mea.tasks.all (fun t => !cmdKind t.kind) = true ∧
      s.dev.mea.arrivals.all (fun a => a.kind != .host && a.kind != .loop) = true ∧
      (s.dev.trl.recovering = true ∨ s.dev.flt.held.all (fun h => h.settled s.dev) = true)
    let waking (i : Instr) (cause : Nat) : Prop := Does i s (fun q => q.env.pw.st = .bringup ∧ q.env.pw.bringStep = 1 ∧
      q.env.pw.wakeCause = cause ∧ q.env.pw.bringCause = 2 ∧ (pw.selfRefresh = true → q.dev.mea.dr = s.dev.mea.dr) ∧
      (pw.selfRefresh = false → q.dev.mea.dr = []))
    let wakes (i : Instr) (cause : Nat) : Prop :=
      (pw.trans = .dormant → Does i s (fun q => q.env = with_ { pw with trans := .none, wakeCause := cause } ∧
        q.dev.hqe.fetchStopped = s.dev.hqe.shutdown)) ∧
      (pw.st = .dormant → pw.trans = .none → exec i s = .next { s with env := with_ { pw with trans := .wakeup, wakeCause := cause } })
    let up := toState .active (if pw.wakeCause = 4 then 1 else 2) (with_ { pw with trans := .none }, s.dev)
    let resumed := up.2.xpt.lost.foldl (fun d id => resetFlow up.1 id 3 d) (deliverHeld up.1 { up.2 with
      hqe := { up.2.hqe with fetchStopped := up.2.hqe.shutdown }
      xpt := { up.2.xpt with creditHeld := up.2.sec.activating.isSome, lost := [] } })
    let granted := resumed.xpt.flows.foldl (fun d f => grantCredit f.1 (throttledGroup d f.2.group) d) resumed
    (pw.st = .active → pw.trans = .none → pw.resetStep = none → exec .reqDormant s = .next { s with
      env := with_ { pw with trans := .dormant }
      dev := { s.dev with hqe := { s.dev.hqe with fetchStopped := true }, xpt := { s.dev.xpt with creditHeld := true } } }) ∧
    (pw.st ≠ .active → NextDev .reqDormant s s.dev) ∧
    (hostAlive s.env = true → wakes .reqActive 4) ∧
    (pw.st ≠ .retention → enteringRetention pw = false → wakes .wakePin 3) ∧
    ((pw.st = .active ∨ pw.st = .dormant) → enteringRetention pw = false → pw.resetStep = none → Does .reqRetention s (fun q =>
      q.env = with_ { pw with trans := .retention false, resetStep := none, wakeKept := none } ∧ q.dev.hqe.enable = false ∧
      q.dev.hqe.pairs = [] ∧ q.dev.hqe.fetchStopped = true ∧ q.dev.xpt.creditHeld = true)) ∧
    (pw.st ≠ .active → pw.st ≠ .dormant → NextDev .reqRetention s s.dev) ∧
    (pw.trans = .dormant → quiet s.dev = true → Does .dormantEntered s (fun q =>
      q.env = with_ { pw with trans := .none, st := .dormant } ∧ q.dev.mea = s.dev.mea ∧ q.dev.cpt = s.dev.cpt)) ∧
    (pw.st = .dormant → pw.trans = .wakeup → Does .dormantExit s (fun q =>
      q.env = with_ { pw with trans := .none, st := .active } ∧ q.dev = updCpt (fun c => { c with wakeOutDone := true }) granted)) ∧
    (pw.trans = .retention th → quietNow → s.dev.xpt.flows ≠ [] → NextDev .retentionEntered s (resetAllFlows s.env s.dev)) ∧
    (pw.trans = .retention th → quietNow → s.dev.xpt.flows = [] → ownWaiting s.env s.dev = false →
      (th = true ∨ pw.wakeKept = none) → Does .retentionEntered s (fun q =>
      q.env.pw.st = .retention ∧ q.env.pw.trans = .none ∧ q.env.pw.selfRefresh = true ∧
      q.env.pw.holdUntil = (if th then some (s.env.tick + 300 * Config.second) else none) ∧
      q.dev.mea.tasks = [] ∧ q.dev.mea.programs = [] ∧ q.dev.xpt.flows = [] ∧ q.dev.mea.lsShared = [] ∧
      (s.dev.cpt.bypass ≠ 3 → q.dev.cpt.bypass = 0))) ∧
    (pw.st = .retention → pw.main = true → enteringRetention pw = false → (∀ t, pw.holdUntil = some t → t ≤ s.env.tick) →
      waking .wakePin 3 ∧ (s.dev.hqe.perst = true → waking .perstRisingEdge 6 ∧ waking (.perst false) 6)) ∧
    (s.dev.hqe.perst = false → hostAlive s.env = true → Does (.perst true) s (fun q => q.env = s.env ∧ q.dev.hqe.perst = true ∧
      q.dev.hqe.enable = false ∧ q.dev.hqe.pairs = [] ∧ q.dev.hqe.msix = [] ∧ q.dev.lastReset = 3 ∧ q.dev.cpt = s.dev.cpt)) ∧
    (pw.holdUntil = some t0 → t0 ≤ s.env.tick →
      exec .thermalWakeHoldEnd s = .next { s with env := with_ { pw with holdUntil := none } }) ∧
    (pw.st = .retention → exec .selfrefreshLost s = .next { s with env := with_ { pw with selfRefresh := false } })

/-- The hold-up bank and the hardware's own alarms (R369, R390, R441, R447, R457–R459, R464, R494). A measurement runs when one
is due and answers E and C of R457 and the limit of R458, which acts at once; a limit below the last sets LIMIT_REDUCED (R459);
below 256 MiB the limit is 0 and
HOLDUP_FAIL is set. The tamper loop opening is tier 2, or tier 3 with the erase armed, while RDM runs; a glitch is tier 1 and the fourth
within a second tier 2; a controller sensor at 115 °C enters RETENTION, except in DRAIN. -/
def Obligations.HoldupAndAlarms : Prop :=
  ∀ (s : State) (v0 v1 t0 n ppm : Nat) (temp : Int),
    let pw := s.env.pw
    let e := (v0 * v0 - 144000000) / (50 * (v0 - v1))
    let l := min 8192 (64 * ((v0 * v0 - 144000000 - 190000 * (v0 - v1)) * 100 / (1100800 * (v0 - v1))))
    let trips := s.env.tick :: s.dev.sec.glitches.filter (fun t => s.env.tick < t + Config.second)
    let tripped := event s.env 0x0E10 3 clsSecurity 0 n 0 0 (setCause s.env 14 1
      (updSec (fun q => { q with glitches := if 4 ≤ trips.length then [] else trips }) s.dev))
    let opened : Env := { s.env with pw := { pw with loopOpen := true, loopActed := rdmOn s.env } }
    let hot := setBudget (reachHard s.env 0 n temp (setFatal s.env 0 0x060B
      (event s.env 0x060B 7 clsHardware 0 n (i32 temp) 0 s.dev)))
    (measDue s.env = true →
      exec .holdupMeasureStart s = .next { s with env := { s.env with pw := { pw with measuring := some s.env.tick } } }) ∧
    (measDue s.env = false → NextDev .holdupMeasureStart s s.dev) ∧
    (pw.measuring = some t0 → t0 + 525000 ≤ s.env.tick → v1 < v0 → Does (.holdupMeasured v0 v1) s (fun q =>
      q.env.pw.energyMj = e ∧ q.env.pw.capDmf = 400000 / (v0 - v1) ∧ q.env.pw.measured = true ∧ q.env.pw.measuring = none ∧
      ((if l < 256 then 0 else l) < pw.lastLimit → bitOf (vget q.dev.attn.cause 18 0) 1 = true) ∧
      (256 ≤ l → q.env.pw.limitMib = l ∧ bitOf q.dev.attn.holding 3 = false) ∧
      (l < 256 → q.env.pw.limitMib = 0 ∧ bitOf q.dev.attn.holding 3 = true ∧ bitOf (vget q.dev.attn.cause 0 0) 3 = true))) ∧
    (pw.measuring = some t0 → t0 + 525000 ≤ s.env.tick → v0 ≤ v1 → Does (.holdupMeasured v0 v1) s (fun q =>
      q.env.pw.measured = true ∧ q.env.pw.measuring = none ∧ q.dev.free = s.dev.free + 1)) ∧
    (pw.measuring = none → NextDev (.holdupMeasured v0 v1) s s.dev) ∧
    ((rdmOn s.env = false → exec .tamperOpen s = .next { s with env := opened }) ∧
      (rdmOn s.env = true → s.dev.sec.eraseArm = false → Does .tamperOpen s (fun q => q.env = opened ∧ q.dev = tier2 opened 2 s.dev ∧
        q.dev.ccl.keys = [] ∧ q.dev.ccl.sealed = [] ∧ q.dev.sec.tamperSeen = true ∧
        ∀ k x, (k, x) ∈ q.dev.kdr.ks → x.ksr = [] ∧ (x.encrypted = true → x.locked = true))) ∧
      (rdmOn s.env = true → s.dev.sec.eraseArm = true →
        exec .tamperOpen s = .next { s with env := (tier3 opened 2 s.dev).1, dev := (tier3 opened 2 s.dev).2 })) ∧
    (governs s.env = true →
      (trips.length < 4 → NextDev (.glitchTrip n) s tripped) ∧
      (4 ≤ trips.length → s.dev.sec.eraseArm = false → NextDev (.glitchTrip n) s (tier2 s.env 1 tripped)) ∧
      (4 ≤ trips.length → s.dev.sec.eraseArm = true →
        exec (.glitchTrip n) s = .next { s with env := (tier3 s.env 1 tripped).1, dev := (tier3 s.env 1 tripped).2 }) ∧
      NextDev .internalEcc s (releaseFatal 2 (setFatal s.env 2 (Config.unstated 0).toNat s.dev))) ∧
    NextDev (.xtalFault ppm) s (event s.env 0x1103 6 clsHardware 0 ppm 0 0 (setCause s.env 17 4 s.dev)) ∧
    (pw.main = true → NextDev .supplyFault s (setCause s.env 18 8 s.dev)) ∧
    (n < 16 → 1840 ≤ temp → governs s.env = true →
      (pw.st = .drain → NextDev (.thermalCritical n temp) s hot) ∧
      (pw.st ≠ .drain → enteringRetention pw = false → Does (.thermalCritical n temp) s (fun q =>
        q.env.pw.trans = .retention true ∧ q.env.pw.st = pw.st ∧ q.dev.hqe.enable = false ∧ q.dev.hqe.fetchStopped = true ∧
        q.dev.xpt.creditHeld = true)))

/-- The governor (R31, R350, R356–R358, R364, R367, R369–R372). A boundary opens the window of its tick, takes the cap, grants
WC1 what BGV_WC1 asks and sets every class's spend to 0; a lowered cap acts at once; VCORE moves 5 mV every 250 ticks;
a group moves to a vat, is refused while it drains or for a vat that does not exist; a sensor without a reading has
failed; a blower fault lowers therm_w and withdraws what WC2–WC15 hold. -/
def Obligations.Governor : Prop :=
  ∀ (s : State) (m : Meas) (v : W32) (n : Nat),
    let b := s.dev.bgv
    let w := fld v 0 9
    let g := b.groupSel
    let vat := fld v 0 4
    let pinned := updGroup g (fun x => { x with pinned := bitOf v 4 }) s.dev
    let capped := setBudget { s.dev with bgv := { b with cap := w, capInForce := w } }
    let unread : Dev := { s.dev with bgv := { b with temps := b.temps.set n none } }
    let failed := event s.env 0x0607 4 clsHardware 0 n 0 0 (setCause s.env 6 0x20
      { unread with bgv := { unread.bgv with failed := b.failed ++ [n] } })
    let budget := setBudget { s.dev with bgv := { b with blowerFault := true, blowerCw := 100 * blowerBudgetW s.dev } }
    (governs s.env = true → b.window < s.env.tick / 25000 → Does (.windowBoundary m) s (fun q => q.env = s.env ∧
      q.dev.bgv.window = s.env.tick / 25000 ∧ q.dev.bgv.inputUj = m.inputUj ∧ q.dev.bgv.capInForce = b.cap ∧
      q.dev.bgv.eAvailUj = some (q.dev.bgv.effectiveW * 1000) ∧ (wcOf q.dev 1).fund = 256 * (max 1000 b.wc1 : Nat) ∧
      (∀ c, c < 16 → (wcOf q.dev c).spend = 0) ∧ (s.env.pw.st = .drain → q.dev.bgv.setpoint = 50))) ∧
    ((governs s.env = false ∨ s.env.tick / 25000 ≤ b.window) → NextDev (.windowBoundary m) s s.dev) ∧
    (hostAlive s.env = true →
      (w = b.cap → NextDev (.bgvCapWrite v) s s.dev) ∧
      (w ≠ b.cap → b.capInForce ≤ w → NextDev (.bgvCapWrite v) s (event s.env 0x060C 1 clsPower 0 w b.cap 0
        { s.dev with bgv := { b with cap := w } })) ∧
      (w ≠ b.cap → w < b.capInForce → NextDev (.bgvCapWrite v) s (event s.env 0x060C 1 clsPower 0 w b.cap 0
        (if min w b.supplyW < min b.capInForce b.supplyW
         then scaleFunding (min w b.supplyW) (min b.capInForce b.supplyW) capped else capped))) ∧
      (bitOf v 31 = true →
        (11 < vat → NextDev (.bgvGroupMove v) s (updGroup g (fun x => { x with lastMove := 3 }) s.dev)) ∧
        (vat ≤ 11 → (groupOf s.dev g).vat = vat → NextDev (.bgvGroupMove v) s pinned) ∧
        (vat ≤ 11 → (groupOf s.dev g).vat ≠ vat → (groupOf s.dev g).draining = true →
          NextDev (.bgvGroupMove v) s (updGroup g (fun x => { x with lastMove := 2 }) s.dev)) ∧
        (vat ≤ 11 → (groupOf s.dev g).vat ≠ vat → (groupOf s.dev g).draining = false →
          NextDev (.bgvGroupMove v) s (migrate s.env g vat true (updGroup g (fun x => { x with lastMove := 1 }) pinned)))) ∧
      (bitOf v 31 = false → NextDev (.bgvGroupMove v) s s.dev)) ∧
    (governs s.env = true → b.lastStep + 250 ≤ s.env.tick → b.vcore ≠ b.setpoint → NextDev .vcoreStep s { s.dev with
      bgv := { b with vcore := if b.vcore < b.setpoint then b.vcore + 1 else b.vcore - 1, lastStep := s.env.tick } }) ∧
    (b.vcore = b.setpoint → NextDev .vcoreStep s s.dev) ∧
    (governs s.env = true → n < 76 → n ∉ b.failed →
      (sensorGroup n = 5 → NextDev (.sensorFail n) s failed) ∧
      (sensorGroup n ≠ 5 →
        let k := sensorGroup n
        let x := hottest failed k
        let hard : Int := 16 * ((vget b.tg k (tgroupDefault k)).hard : Int)
        (x.2 < hard → NextDev (.sensorFail n) s failed) ∧
        (hard ≤ x.2 → NextDev (.sensorFail n) s (setBudget (reachHard s.env k x.1 x.2 failed))))) ∧
    (governs s.env = true → s.dev.bld.healthy = false → b.blowerFault = false → NextDev .blowerBudget s
      (event s.env 0x0606 5 clsPower 0 (scaleFunding 0 1 budget).bgv.thermW 0 0 (setCause s.env 6 0x10 (scaleFunding 0 1 budget))))

/-- The blower drive's starts (R469–R472, R474, R478). A start tests the chopper, then reads the back-EMF for 50 ms; the first
row of R470 that matches brakes, aligns or catches the rotor; ALIGN lasts 200 ms, RAMP 500 ms and ends in RUN at the handover;
a failed attempt waits 1 s, the third in a row 30 s; a blower coasting down returns to RUN at its demand. A speed below 85 % of
the demand at the current limit for 1 s is reported; that the limit holds from 6.0 A on is the model's reading (log 160). -/
def Obligations.BlowerStarts : Prop :=
  ∀ (s : State) (onMa offMa mv rpm conf cause : Nat) (rev caught : Bool), bldAlive s.env s.dev = true →
    let b := s.dev.bld
    let r := chopperResult onMa offMa mv
    let tested (d : Dev) : Dev := updBld (fun b =>
      { b with chopper := r, busMv := mv, peakMv := max b.peakMv mv, st := if r = 3 then .fault else .sense, since := s.env.tick,
               chopperOn := r == 1 && (decide (13000 < mv) || (b.chopperOn && decide (12800 ≤ mv))) }) d
    let found (d : Dev) : Dev := bldEvent s.env 0x1001 4 onMa offMa r (bldCause s.env 4 (tested d))
    let test (d d' : Dev) : Prop := (r = 1 → d' = tested d) ∧ (r = 2 → d' = found d) ∧
      (r = 3 → d' = reportFaulty s.env (found d))
    let sensed := updBld (fun b => { b with rpm := rpm, reverse := rev && decide (300 ≤ rpm) }) s.dev
    let told (outcome : Nat) := bldEvent s.env 0x1002 1 rpm (if rev then 2 else 1) outcome sensed
    let slow := updBld (fun b => { b with rpm := rpm }) s.dev
    (b.st = .off → ∃ d', NextDev (.blowerStart onMa offMa mv) s d' ∧ test (beginStart s.env s.dev) d') ∧
    (b.st = .test → ∃ d', NextDev (.blowerStart onMa offMa mv) s d' ∧ test s.dev d') ∧
    (b.st = .sense → s.env.tick < b.since + 50 * Config.ms → NextDev (.windmill rpm rev caught) s s.dev) ∧
    (b.st = .sense → b.since + 50 * Config.ms ≤ s.env.tick →
      (rpm < 300 → NextDev (.windmill rpm rev caught) s (enterBld s.env .align sensed)) ∧
      (rev = false → 1500 ≤ rpm → caught = true →
        NextDev (.windmill rpm rev caught) s (enterRun s.env rpm b.lockEff (told 1))) ∧
      (rev = false → 1500 ≤ rpm → caught = false → NextDev (.windmill rpm rev caught) s (enterBld s.env .brake (told 1))) ∧
      (300 ≤ rpm → (rev = true ∨ rpm < 1500) → NextDev (.windmill rpm rev caught) s (enterBld s.env .brake (told 2)))) ∧
    (b.st = .brake →
      (rpm < 500 → b.restart = false → NextDev (.brakeDone false rpm) s (enterBld s.env .align slow)) ∧
      (rpm < 500 → b.restart = true → NextDev (.brakeDone false rpm) s (beginStart s.env slow)) ∧
      (b.restart = false → b.since + 3 * Config.second ≤ s.env.tick →
        NextDev (.brakeDone true rpm) s (failStart s.env 3 slow) ∧ NextDev (.startFailed 3) s (failStart s.env 3 s.dev))) ∧
    (b.st = .align → b.since + 200 * Config.ms ≤ s.env.tick → NextDev .alignDone s
      (enterBld s.env .ramp (updBld (fun b => { b with rpm := 0, reverse := false }) s.dev))) ∧
    (b.st = .align → s.env.tick < b.since + 200 * Config.ms → NextDev .alignDone s s.dev) ∧
    (b.st = .ramp →
      (b.lockEff ≤ conf → b.since + 500 * Config.ms ≤ s.env.tick → s.env.tick ≤ b.since + 520 * Config.ms →
        (∀ t, b.unlockAt = some t → t + 20 * Config.ms ≤ s.env.tick) → Does (.handover rpm conf) s (fun q => q.dev.bld.attempts = 0 ∧ q.dev.bld.rpm = rpm ∧
        q.dev.bld.conf = conf ∧ (rpm ≤ q.dev.bld.demand → q.dev.bld.st = .run))) ∧
      (conf < b.lockEff ∨ s.env.tick < b.since + 500 * Config.ms → NextDev (.handover rpm conf) s s.dev) ∧
      (cause = 1 ∧ 36 ≤ crossings (s.env.tick - b.since) ∨ cause = 2 ∧ b.since + 520 * Config.ms ≤ s.env.tick → NextDev (.startFailed cause) s (failStart s.env cause s.dev) ∧
        Does (.startFailed cause) s (fun q => q.dev.bld.st = .wait ∧ q.dev.bld.healthy = false ∧
          (b.attempts < 2 → q.dev.bld.attempts = b.attempts + 1 ∧ q.dev.bld.retryAt = s.env.tick + Config.second) ∧
          (2 ≤ b.attempts → q.dev.bld.attempts = 0 ∧ q.dev.bld.series = b.series + 1 ∧
            q.dev.bld.retryAt = s.env.tick + 30 * Config.second)))) ∧
    (b.st = .wait → (b.retryAt ≤ s.env.tick → NextDev .startRetry s (beginStart s.env s.dev)) ∧
      (s.env.tick < b.retryAt → NextDev .startRetry s s.dev)) ∧
    (b.st = .coast → b.ov = none → rpm ≤ b.demand → NextDev (.coastReturn rpm) s (enterRun s.env rpm b.conf s.dev)) ∧
    (b.st = .run → 100 * rpm < 85 * b.demand → 6000 ≤ onMa → b.since + Config.second ≤ s.env.tick →
      (∀ t, b.fastAt = some t → t + Config.second ≤ s.env.tick) → NextDev (.speedDeficit rpm onMa) s (reportFaulty s.env (bldEvent s.env 0x100A 3 b.demand rpm onMa (bldCause s.env 0x80
        (updBld (fun b => { b with rpm := rpm, phaseMa := onMa, fastAt := some s.env.tick }) s.dev)))))

/-- The rotor lost and found, and the blower bus (R475–R478). A lost rotor is sought with the switches off, or braked where
its back-EMF exceeds the bus less 0.5 V, and counts as a blower fault; it is re-acquired within 300 ms or the drive
brakes and starts again; OV1 coasts, OV2 shorts the windings in every state (to go back to OFF or FAULT after it is the model's
choice, log 159), below 12.6 V the episode ends, the short lasting while the back-EMF is over the bus; 1 s in RUN at speed and
lock reports healthy, which ends the blower-fault budget. While CHOPPER reads 1 the chopper is on above 13.0 V and off below
12.8 V (R467). -/
def Obligations.RotorAndBus : Prop :=
  ∀ (s : State) (rpm conf mv t0 : Nat),
    let b := s.dev.bld
    let alive := bldAlive s.env s.dev = true
    let lost (how : BldSt) (code : Nat) : Dev := reportFaulty s.env (bldEvent s.env 0x1005 4 rpm conf code (bldCause s.env 8
      (updBld (fun b =>
        { b with st := how, since := s.env.tick, rpm := rpm, conf := conf, busMv := mv, peakMv := max b.peakMv mv, weak := false,
                 chopperOn := b.chopper == 1 && (decide (13000 < mv) || (b.chopperOn && decide (12800 ≤ mv))),
                 losses := sat32 (b.losses + 1), declared := some s.env.tick, ovAsc := false }) s.dev)))
    let seen (b : Bld) : Bld :=
      { b with busMv := mv, peakMv := max b.peakMv mv, rpm := rpm,
               chopperOn := b.chopper == 1 && (decide (13000 < mv) || (b.chopperOn && decide (12800 ≤ mv))) }
    let weak (b : Bld) : Bld := { seen b with
      weak := (b.st == .run && decide (mv < rpm + 500)) || (b.st == .coast && b.weak) }
    let powered := s.env.pw.st ≠ .off ∧ s.env.pw.st ≠ .retention
    let unbroken (mark : Option Nat) (n : Nat) := ∀ t, mark = some t → t + n ≤ s.env.tick
    let ok := updBld (fun b => { b with healthy := true, faultAt := none, rpm := rpm, conf := conf }) s.dev
    (alive → (b.st = .run ∨ b.st = .coast) → conf < b.lossEff → b.heldAt.getD b.since + 2 * Config.ms ≤ s.env.tick →
      (rpm + 500 ≤ mv → NextDev (.observerLost rpm conf mv) s (lost .lost 1)) ∧
      (mv < rpm + 500 → NextDev (.observerLost rpm conf mv) s (lost .asc 2))) ∧
    (alive → (b.st = .run ∨ b.st = .coast) →
      (b.lossEff ≤ conf → NextDev (.observerLost rpm conf mv) s (updBld (fun b => { b with heldAt := some s.env.tick }) s.dev)) ∧
      (conf < b.lossEff → s.env.tick < b.heldAt.getD b.since + 2 * Config.ms → NextDev (.observerLost rpm conf mv) s s.dev)) ∧
    (b.st = .asc → b.ovAsc = false → rpm + 500 ≤ mv → NextDev (.ascRelease rpm mv) s
      (enterBld s.env (if b.stopping then .off else b.ovBack.getD .lost) (updBld (fun b => { seen b with ovBack := none }) s.dev))) ∧
    (b.st = .asc → mv < rpm + 500 → NextDev (.ascRelease rpm mv) s s.dev) ∧
    (alive → b.declared = some t0 →
      (b.st = .lost → b.lockEff ≤ conf → b.since + 10 * Config.ms ≤ s.env.tick → unbroken b.unlockAt (10 * Config.ms) → s.env.tick ≤ t0 + 300 * Config.ms → NextDev (.reacquired rpm conf) s
        (bldEvent s.env 0x1006 1 ((s.env.tick - t0) / Config.ms) rpm 0 (enterRun s.env rpm conf s.dev))) ∧
      ((b.st = .lost ∨ b.st = .asc ∧ b.ovAsc = false) → t0 + 300 * Config.ms ≤ s.env.tick →
        NextDev (.reacquireFailed rpm) s (bldEvent s.env 0x1007 3 rpm 0 0 (updBld (fun b => { b with
          st := .brake, since := s.env.tick, rpm := rpm, restart := true, declared := none }) s.dev)))) ∧
    (powered → b.ov = none → mv ≤ 13200 → NextDev (.overvoltage mv rpm) s (updBld weak s.dev)) ∧
    (¬ powered → NextDev (.overvoltage mv rpm) s s.dev) ∧
    (powered → 14000 < mv → Does (.overvoltage mv rpm) s (fun q => q.dev.bld.ov.isSome = true ∧ q.dev.bld.busMv = mv ∧
      q.dev.bld.st = .asc ∧ q.dev.bld.ovAsc = true ∧ ((b.st = .off ∨ b.st = .fault) → q.dev.bld.ovBack = some b.st))) ∧
    (powered → 13200 < mv → mv ≤ 14000 → Does (.overvoltage mv rpm) s (fun q => q.dev.bld.ov.isSome = true ∧ q.dev.bld.busMv = mv ∧
      ((b.st = .run ∨ b.st = .align ∨ b.st = .ramp) → q.dev.bld.st = .coast) ∧
      (b.st ≠ .run → b.st ≠ .align → b.st ≠ .ramp → q.dev.bld.st = b.st))) ∧
    (powered → mv < 12600 → b.ov.isSome = true → Does (.overvoltage mv rpm) s (fun q => q.dev.bld.ov = none ∧
      (b.st = .asc → b.ovAsc = true → b.stopping = false → b.ovBack = none → q.dev.bld.declared = some (b.declared.getD s.env.tick) ∧
        (rpm + 500 ≤ mv → q.dev.bld.st = .lost) ∧ (mv < rpm + 500 → q.dev.bld.st = .asc ∧ q.dev.bld.ovAsc = false)))) ∧
    (b.st = .asc → b.ovAsc = true → b.ovReported = false → b.stopping = false → b.since + 300 * Config.ms ≤ s.env.tick →
      NextDev .ov2AscLimit s (reportFaulty s.env (updBld (fun b => { b with ovReported := true }) s.dev))) ∧
    (alive → b.st = .run → 85 * b.demand ≤ 100 * rpm → b.lockEff ≤ conf → b.since + Config.second ≤ s.env.tick →
      unbroken b.unfitAt Config.second →
      (b.faultAt = none → NextDev (.blowerHealthy rpm conf) s ok) ∧
      (b.faultAt = some t0 → NextDev (.blowerHealthy rpm conf) s (bldEvent s.env 0x1009 0 rpm ((s.env.tick - t0) / Config.ms) 0
        (bldCause s.env 2 { ok with bgv := { ok.bgv with blowerFault := false } })) ∧
        Does (.blowerHealthy rpm conf) s (fun q => q.dev.bgv.blowerFault = false ∧ q.dev.bld.healthy = true)))

/-- The management bus (R348, R498–R501, R507–R509). A transaction with a wrong packet error code is not acknowledged and
changes nothing but the response; STATUS tells state, supplies, attention and time; a page register reaches BAR0; RSTAT is
0, or 1 while the bus is restricted, or 2 where nothing answers or the register is the local host's; DEVICE_RESET and WAKE
act on their one value alone. A value not acknowledged leaves the rest of the drive. -/
def Obligations.ManagementBus : Prop :=
  ∀ (s : State) (port : Nat) (page v8 : Byte) (off : BitVec 16) (v : W32), rdmOn s.env = true → port < 2 →
    let a := (mgPort s.dev port).page.toNat * 65536 + off.toNat
    let st (always : Bool) := rstat s.env s.dev (mgPort s.dev port).page.toNat a always
    let r := mgRead s.env port a s.dev
    let wrong (i : Instr) : Prop := NextDev i s (mgNack port s.dev)
    let noted := mgAck port [] s.dev
    let to_ (i : Instr) (x : Env × Dev) : Prop := exec i s = .next { s with env := x.1, dev := x.2 }
    NextDev (.status port) s (mgAck port (statusBytes s.env s.dev) s.dev) ∧
    (statusBytes s.env s.dev).length = 16 ∧
    NextDev (.pageSet port page true) s (mgAck port [] { s.dev with mg := vupd s.dev.mg port (fun m => { m with page := page }) }) ∧
    NextDev (.pageGet port) s (mgAck port [(mgPort s.dev port).page] s.dev) ∧
    NextDev (.smbusTimeout port) s noted ∧
    (st (readAlways a) = 0 → NextDev (.regRead port off true) s (mgAck port (natLe 1 0 ++ natLe 4 r.1) r.2)) ∧
    (st (readAlways a) ≠ 0 → NextDev (.regRead port off true) s (mgAck port (natLe 1 (st (readAlways a)) ++ natLe 4 0) s.dev)) ∧
    (st (a == 0x1210) = 0 →
      (hostOwned a = true → NextDev (.regWrite port off v true) s (mgAck port (natLe 1 2) s.dev)) ∧
      (hostOwned a = false → to_ (.regWrite port off v true)
        ((regWrite a v s.env s.dev).1, mgAck port (natLe 1 0) (regWrite a v s.env s.dev).2))) ∧
    (st (a == 0x1210) ≠ 0 → NextDev (.regWrite port off v true) s (mgAck port (natLe 1 (st (a == 0x1210))) s.dev)) ∧
    to_ (.deviceReset port 0x5D true) (requestDeviceReset s.env noted) ∧
    (v8 ≠ 0x5D → wrong (.deviceReset port v8 true)) ∧
    ((s.env.pw.st = .retention ∨ enteringRetention s.env.pw = true) → to_ (.wake port 0x01 true) (retentionCause 5 s.env noted)) ∧
    (s.env.pw.st ≠ .retention → enteringRetention s.env.pw = false → to_ (.wake port 0x01 true) (wakeDormant 5 s.env noted)) ∧
    (v8 ≠ 0x01 → wrong (.wake port v8 true)) ∧
    wrong (.pageSet port page false) ∧ wrong (.regRead port off false) ∧ wrong (.regWrite port off v false) ∧
    wrong (.deviceReset port v8 false) ∧ wrong (.wake port v8 false)

/-! ### The whole machine -/

/-- Taking a command: with a command in front of the queue a step is that command's effect on the state with the queue's
rest; on an empty queue a tick of the time base passes and nothing else changes (the model's choice, log 1). -/
def Obligations.StepTakesFront : Prop :=
  (∀ (s : State) (c : Instr) (rest : List Instr), s.pending = c :: rest → step s = exec c { s with pending := rest }) ∧
  (∀ s : State, s.pending = [] → step s = .next { s with env := { s.env with tick := s.env.tick + 1 } })

/-- Every command answers a next state in every state: none faults and none refuses. No command touches the queue, and none
but a restart of RDM, which comes after a loss of its every input, sets the time base: by TIMEBASE_RESTART, or by the return of
main power to a drive without VAUX (R347, R349, R450, R454). -/
def Obligations.CommandsKeepQueueAndClock : Prop :=
  ∀ (c : Instr) (s : State), ∃ t, exec c s = .next t ∧ t.pending = s.pending ∧
    ((rdmOn s.env = true ∨ (∀ m2 m3 aux33 auxAlt, c ≠ .timebaseRestart m2 m3 aux33 auxAlt) ∧ c ≠ .mainPowerGood ∧
      (∀ ms mj sealed, c ≠ .drainDone ms mj sealed)) → t.env.tick = s.env.tick)

/-- The machine right after power-on reset (R14, R439, R444, R446, R454): every register whose reset value the manual
gives reads it; no task, arrival, pair, flow, key slot or program exists, the queue is empty, memory lists nothing. -/
def Obligations.ResetState : Prop :=
  (∀ p : Nat × Nat, p ∈
      [(0x1150, 0), (0x15000, 0x4009C4), (0x15004, 0), (0x15008, 0), (0x8, 0xFFFFFFFF), (0x10, 0), (0x14, 0), (0x1C, 0),
       (0x20, 0), (0x28, 0), (0x1110, 0), (0x11000, 0x3010408), (0x11004, 0), (0x11008, 0), (0x1100C, 0), (0x11010, 0),
       (0x11014, 0), (0x11018, 0), (0x1180, 0), (0x18000, 0xFFFF0001), (0x18008, 0), (0x18010, 0), (0x18014, 0),
       (0x1A100, 0x1020), (0x1A104, 0), (0x1A108, 0), (0x1170, 0), (0x17004, 0), (0x11B0, 0), (0x1B000, 0), (0x11C0, 0),
       (0x1C000, 0x2000800), (0x1C004, 0x80258), (0x1C008, 0x80032), (0x1C00C, 0x7807), (0x1C010, 0x9C4),
       (0x1C014, 0x100258), (0x1120, 0), (0x12000, 0), (0x12010, 0x88B5), (0x12018, 0x564B03), (0x12020, 0x64),
       (0x12028, 0), (0x1130, 0), (0x13000, 0x3C081440), (0x13004, 0x10000000), (0x1190, 0), (0x19000, 0x9C4),
       (0x19004, 0), (0x1160, 0), (0x16000, 0xF0), (0x16004, 0), (0x16008, 0x460032), (0x1600C, 0), (0x16010, 0x320601),
       (0x16014, 0), (0x16018, 0), (0x1601C, 0), (0x16020, 0), (0x16024, 0x7CF), (0x16028, 0x5A), (0x21000, 0),
       (0x11E0, 0), (0x1E000, 0), (0x1D000, 0x20), (0x1000, 0), (0x1004, 0), (0x1008, 0), (0x1100, 0), (0x11F0, 0),
       (0x1F000, 0x53C08), (0x18, 0x11), (0x11A0, 0), (0x1210, 0), (0x1220, 0), (0x22000, 0), (0x22004, 0), (0x22008, 0),
       (0x2200C, 0x18), (0x1200, 0), (0x20000, 0), (0x20004, 0), (0x20008, 0x3E800000), (0x2000C, 0xA04000), (0x20010, 0),
       (0x20014, 0x3E8007D0), (0x20018, 0), (0x20020, 0), (0x1140, 0), (0x11D0, 0)] →
    regRead State.reset.env State.reset.dev none p.1 = some p.2) ∧
  (∀ n, n < 19 → regRead State.reset.env State.reset.dev none (0x1104 + 16 * n) = some 0xFFFFFFFF) ∧
  (State.reset.pending = [] ∧ State.reset.env.tick = 0 ∧ State.reset.env.pw.st = .bringup) ∧
  (let d := State.reset.dev
   d.mea.tasks = [] ∧ d.mea.arrivals = [] ∧ d.mea.programs = [] ∧ d.mea.fe = [] ∧ d.mea.dr = [] ∧ d.mea.lsShared = [] ∧
   d.hqe.pairs = [] ∧ d.xpt.flows = [] ∧ d.ccl.keys = [] ∧ d.ccl.sealed = [] ∧ d.cpt.bypass = 0 ∧ d.bld.st = .off)

/-- What relates the power state to the entries and resets under way: an entry to DORMANT runs in ACTIVE, a wake-up in DORMANT,
an entry to RETENTION and a device reset in a state with VCORE on, and never both (R447–R449, R455). -/
def Obligations.PowerInvariant : Prop :=
  ∀ s t : State, PowerOk s.env.pw → step s = .next t → PowerOk t.env.pw

/-- The power invariant holds right after reset. -/
def Obligations.PowerInvariantAtReset : Prop :=
 PowerOk State.reset.env.pw

/-- The drive changes state only as R447 states: where the power invariant holds, a step keeps the state or makes one of the
table's changes, or two of them at once (a drain that ends with main power back, R462, and a wake cause kept to the end of
an entry to RETENTION, R449). -/
def Obligations.PowerStateMoves : Prop :=
  ∀ s t : State, PowerOk s.env.pw → step s = .next t → t.env.pw.st = s.env.pw.st ∨
    (s.env.pw.st, t.env.pw.st) ∈ ([(.off, .bringup), (.bringup, .active), (.bringup, .recovery), (.recovery, .bringup),
      (.active, .dormant), (.dormant, .active), (.active, .retention), (.dormant, .retention), (.bringup, .retention),
      (.recovery, .retention), (.retention, .bringup), (.active, .drain), (.dormant, .drain), (.bringup, .drain),
      (.recovery, .drain), (.drain, .off), (.retention, .off), (.active, .bringup), (.dormant, .bringup),
      (.drain, .bringup)] : List (PState × PState))

/-- Shuan words (R70, R73): every major opcode stands for its instruction in its format; reading the word of an instruction
gives the instruction back, with every field at every value; the word of an instruction read from a word is that word, so
no bit is dropped; a word reads as none exactly where its OP is reserved. -/
def Obligations.ShuanWordRoundTrip : Prop :=
  (∀ (e : Nat) (ecc : LsEcc) (f : BitVec 10) (i : BitVec 15) (j : BitVec 20) (pf : BitVec 6) (u : BitVec 4)
      (b a d : BitVec 5),
    let is (c : Instr) (w : W32) : Prop := encodeWord c = some w
    is (.alu e f b a d) (f ++ b ++ a ++ d ++ 0x00#7) ∧ is (.rdsys e f b a d) (f ++ b ++ a ++ d ++ 0x0B#7) ∧
    is (.valu e f b a d) (f ++ b ++ a ++ d ++ 0x30#7) ∧ is (.vcmp e f b a d) (f ++ b ++ a ++ d ++ 0x31#7) ∧
    is (.vsplat e f b a d) (f ++ b ++ a ++ d ++ 0x32#7) ∧ is (.vext e f b a d) (f ++ b ++ a ++ d ++ 0x33#7) ∧
    is (.vins e f b a d) (f ++ b ++ a ++ d ++ 0x34#7) ∧ is (.vperm e f b a d) (f ++ b ++ a ++ d ++ 0x35#7) ∧
    is (.vclmul e f b a d) (f ++ b ++ a ++ d ++ 0x36#7) ∧ is (.vpopc e f b a d) (f ++ b ++ a ++ d ++ 0x37#7) ∧
    is (.vred e f b a d) (f ++ b ++ a ++ d ++ 0x38#7) ∧ is (.pred e f b a d) (f ++ b ++ a ++ d ++ 0x39#7) ∧
    is (.amoswap ⟨e, ecc⟩ f b a d) (f ++ b ++ a ++ d ++ 0x60#7) ∧ is (.amoadd ⟨e, ecc⟩ f b a d) (f ++ b ++ a ++ d ++ 0x61#7) ∧
    is (.amoand ⟨e, ecc⟩ f b a d) (f ++ b ++ a ++ d ++ 0x62#7) ∧ is (.amoor ⟨e, ecc⟩ f b a d) (f ++ b ++ a ++ d ++ 0x63#7) ∧
    is (.amoxor ⟨e, ecc⟩ f b a d) (f ++ b ++ a ++ d ++ 0x64#7) ∧ is (.amominu ⟨e, ecc⟩ f b a d) (f ++ b ++ a ++ d ++ 0x65#7) ∧
    is (.amomaxu ⟨e, ecc⟩ f b a d) (f ++ b ++ a ++ d ++ 0x66#7) ∧ is (.casAtomic ⟨e, ecc⟩ f b a d) (f ++ b ++ a ++ d ++ 0x67#7) ∧
    is (.fence e f b a d) (f ++ b ++ a ++ d ++ 0x68#7) ∧ is (.addi e i a d) (i ++ a ++ d ++ 0x02#7) ∧
    is (.andi e i a d) (i ++ a ++ d ++ 0x03#7) ∧ is (.ori e i a d) (i ++ a ++ d ++ 0x04#7) ∧
    is (.xori e i a d) (i ++ a ++ d ++ 0x05#7) ∧ is (.slti e i a d) (i ++ a ++ d ++ 0x06#7) ∧
    is (.sltiu e i a d) (i ++ a ++ d ++ 0x07#7) ∧ is (.shi e i a d) (i ++ a ++ d ++ 0x08#7) ∧
    is (.slori e i a d) (i ++ a ++ d ++ 0x0A#7) ∧ is (.sb e i a d) (i ++ a ++ d ++ 0x18#7) ∧
    is (.sh e i a d) (i ++ a ++ d ++ 0x19#7) ∧ is (.sw e i a d) (i ++ a ++ d ++ 0x1A#7) ∧
    is (.sd e i a d) (i ++ a ++ d ++ 0x1B#7) ∧ is (.vst e i a d) (i ++ a ++ d ++ 0x1C#7) ∧
    is (.beq e i a d) (i ++ a ++ d ++ 0x20#7) ∧ is (.bne e i a d) (i ++ a ++ d ++ 0x21#7) ∧
    is (.blt e i a d) (i ++ a ++ d ++ 0x22#7) ∧ is (.bge e i a d) (i ++ a ++ d ++ 0x23#7) ∧
    is (.bltu e i a d) (i ++ a ++ d ++ 0x24#7) ∧ is (.bgeu e i a d) (i ++ a ++ d ++ 0x25#7) ∧
    is (.jalr e i a d) (i ++ a ++ d ++ 0x27#7) ∧ is (.bp e i a d) (i ++ a ++ d ++ 0x28#7) ∧
    is (.lui e j d) (j ++ d ++ 0x09#7) ∧ is (.jal e j d) (j ++ d ++ 0x26#7) ∧ is (.pcadd e j d) (j ++ d ++ 0x29#7) ∧
    is (.lb e i a d ecc) (i ++ a ++ d ++ 0x10#7) ∧ is (.lbu e i a d ecc) (i ++ a ++ d ++ 0x11#7) ∧
    is (.lh e i a d ecc) (i ++ a ++ d ++ 0x12#7) ∧ is (.lhu e i a d ecc) (i ++ a ++ d ++ 0x13#7) ∧
    is (.lw e i a d ecc) (i ++ a ++ d ++ 0x14#7) ∧ is (.lwu e i a d ecc) (i ++ a ++ d ++ 0x15#7) ∧
    is (.ld e i a d ecc) (i ++ a ++ d ++ 0x16#7) ∧ is (.vld e i a d ecc) (i ++ a ++ d ++ 0x17#7) ∧
    is (.post ⟨e, ecc⟩ pf u b a d) (pf ++ u ++ b ++ a ++ d ++ 0x50#7) ∧
    is (.wait e pf u b a d) (pf ++ u ++ b ++ a ++ d ++ 0x51#7) ∧
    is (.test e pf u b a d) (pf ++ u ++ b ++ a ++ d ++ 0x52#7) ∧
    is (.yield e pf u b a d) (pf ++ u ++ b ++ a ++ d ++ 0x53#7) ∧
    is (.endTask e pf u b a d) (pf ++ u ++ b ++ a ++ d ++ 0x54#7) ∧
    is (.budget e pf u b a d) (pf ++ u ++ b ++ a ++ d ++ 0x55#7) ∧
    is (.charge e pf u b a d) (pf ++ u ++ b ++ a ++ d ++ 0x56#7) ∧
    is (.event e pf u b a d) (pf ++ u ++ b ++ a ++ d ++ 0x57#7) ∧
    is (.hash ⟨e, ecc⟩ pf u b a d) (pf ++ u ++ b ++ a ++ d ++ 0x58#7) ∧ is (.crc ⟨e, ecc⟩ pf u b a d) (pf ++ u ++ b ++ a ++ d ++ 0x59#7)) ∧
  (∀ (i : Instr) (w : W32), encodeWord i = some w → ∃ e ecc, decodeWord e ecc w = some i) ∧
  (∀ (e : Nat) (ecc : LsEcc) (w : W32) (i : Instr), decodeWord e ecc w = some i → encodeWord i = some w) ∧
  (∀ (e : Nat) (ecc : LsEcc) (w : W32),
    let op := (w.extractLsb' 0 7).toNat
    decodeWord e ecc w = none ↔ op = 0x01 ∨ (0x0C ≤ op ∧ op ≤ 0x0F) ∨ (0x1D ≤ op ∧ op ≤ 0x1F) ∨ (0x2A ≤ op ∧ op ≤ 0x2F) ∨
      (0x3A ≤ op ∧ op ≤ 0x4F) ∨ (0x5A ≤ op ∧ op ≤ 0x5F) ∨ 0x69 ≤ op)

/-- A few Shuan words of the manual's formats, one of each, with the instruction each stands for (R70, R73): ADDI, BEQ with a
negative offset, LUI, ALU and POST. -/
def Obligations.ShuanWordsRead : Prop :=
  decodeWord 3 .clean 0x00301182#32 = some (.addi 3 0x18 1 3) ∧
  decodeWord 3 .clean 0xFFFE02A0#32 = some (.beq 3 0x7FFF 0 5) ∧
  decodeWord 3 .clean 0x12345489#32 = some (.lui 3 0x12345 9) ∧
  decodeWord 3 .clean 0x00443280#32 = some (.alu 3 1 2 3 5) ∧
  decodeWord 3 .clean 0x94C4A3D0#32 = some (.post ⟨3, .clean⟩ 0x25 3 2 10 7) ∧
  decodeWord 3 .clean 0x00000001#32 = none
end

