-- ==== Sys2Proof/Laws/Keeps.lean ====
section
/-! SUPPORT. What shared operations of one part of the drive may change, said once each, for the proofs that cite them instead of
unfolding them. -/

namespace Sys2Proof.Laws

open Sys2Proof.Machine

/-! ### The blower drive (R467, R469, R474–R478) -/

/-- A reading of the bus changes the voltage, its peak and the chopper's switch. -/
theorem seeBus_changes (mv : Nat) (b : Bld) :
    ∃ on, b.seeBus mv = { b with busMv := mv, peakMv := max b.peakMv mv, chopperOn := on } := ⟨_, rfl⟩

/-- Field weakening is the one thing a change of speed, bus or state settles. -/
theorem weaken_changes (b : Bld) : ∃ w, b.weaken = { b with weak := w } := ⟨_, rfl⟩

/-- Steering moves the reference alone. -/
theorem steer_changes (n : Nat) (b : Bld) : ∃ r, b.steer n = { b with ref := r } := ⟨_, rfl⟩

/-- A reading moves the four marks of continuous times, and settles field weakening. -/
theorem note_changes (tick : Nat) (b : Bld) :
    ∃ u h f g w, b.note tick = { b with unlockAt := u, heldAt := h, unfitAt := f, fastAt := g, weak := w } :=
  ⟨_, _, _, _, _, rfl⟩

/-- The reference never leaves the way from where it was to the demand. -/
theorem steer_between (n : Nat) (b : Bld) :
    min b.ref b.demand ≤ (b.steer n).ref ∧ (b.steer n).ref ≤ max b.ref b.demand := by
  simp only [Bld.steer]
  generalize 4 * n / Config.ms = u
  split
  · omega
  · generalize (if b.chopper = 1 then 2 * n / Config.ms else 0) = k
    omega

/-- A continuous time that has passed has passed since the state was entered. -/
theorem lasted_since {b : Bld} {mark : Option Nat} {n tick : Nat} (h : b.lasted mark n tick = true) : b.since + n ≤ tick := by
  simp only [Bld.lasted, decide_eq_true_eq] at h
  omega

/-- A state of the blower is entered at the tick of its command. -/
@[simp] theorem enterBld_st (env : Env) (st : BldSt) (d : Dev) : (enterBld env st d).bld.st = st := rfl
@[simp] theorem enterBld_since (env : Env) (st : BldSt) (d : Dev) : (enterBld env st d).bld.since = env.tick := rfl

/-! ### Host reads and self-tests -/

/-- AER takes note of a failed request in its status alone (R96). -/
theorem noteAer_changes (code : Byte) (d : Dev) :
    ∃ u, noteAer code d = { d with hqe := { d.hqe with aer := { d.hqe.aer with uncorrStatus := u } } } := ⟨_, rfl⟩

/-- A self-test that ends changes nothing but the test and its results (R400). -/
theorem endTest_changes (env : Env) (kind outcome segment : Nat) (code : BitVec 16) (d : Dev) :
    ∃ rs, endTest env kind outcome segment code d = { d with adm := { d.adm with test := none, results := rs } } := ⟨_, rfl⟩

end Sys2Proof.Laws
end

