-- ==== Sys2Proof/WellFormed.lean ====
section
/-! DEFINITION. The commands that name a thing the drive has: every engine, context, tag, port, channel, lane, slot,
flow and group number within the bounds the manual gives. A command outside them names nothing and changes nothing. -/

namespace Sys2Proof

/-- Engines 0–95 (02). -/
def engOk (e : Nat) : Bool := decide (e < 96)
/-- Contexts 0–63 of an engine (R33). -/
def taskOk (t : TaskRef) : Bool := engOk t.eng && decide (t.ctx < 64)
/-- Tags 0–31 of a task (R49). -/
def postOk (p : PostRef) : Bool := engOk p.eng && decide (p.ctx < 64) && decide (p.tag < 32)
/-- Chain ports 0 and 1, management ports slot and header (08, 18). -/
def portOk (p : Nat) : Bool := decide (p < 2)
/-- Priorities 0–7 (R265). -/
def prioOk (p : Nat) : Bool := decide (p < 8)
/-- Couch channels 0–63 (R310). -/
def channelOk (c : Nat) : Bool := decide (c < 64)
/-- NAND channels 0–31 (R206). -/
def nandChannelOk (c : Nat) : Bool := decide (c < 32)
/-- Dies 0–23 of a NAND channel (R206). -/
def nandDieOk (d : Nat) : Bool := decide (d < 24)
/-- Calender lanes 0–15 (R204). -/
def laneOk (l : Nat) : Bool := decide (l < 16)
/-- Slots of the key directory: 2^27 buckets of 8 (R221). -/
def slotOk (s : Nat) : Bool := decide (s < 1073741824)
/-- Flow ids (R288). -/
def flowOk (f : Nat) : Bool := decide (f < 4096)
/-- Affinity groups 0–4,095 (R57). -/
def groupOk (g : Nat) : Bool := decide (g < 4096)
/-- The channel or page a host read belongs to. -/
def hostReqOk : HostReq → Bool
  | .couch c _ => channelOk c
  | .lease _ => true

/-- A command is well-formed when everything it names by number exists. -/
def Instr.wf : Instr → Bool
  | .alu e _ _ _ _ => engOk e
  | .addi e _ _ _ => engOk e
  | .andi e _ _ _ => engOk e
  | .ori e _ _ _ => engOk e
  | .xori e _ _ _ => engOk e
  | .slti e _ _ _ => engOk e
  | .sltiu e _ _ _ => engOk e
  | .shi e _ _ _ => engOk e
  | .lui e _ _ => engOk e
  | .slori e _ _ _ => engOk e
  | .rdsys e _ _ _ _ => engOk e
  | .lb e _ _ _ _ => engOk e
  | .lbu e _ _ _ _ => engOk e
  | .lh e _ _ _ _ => engOk e
  | .lhu e _ _ _ _ => engOk e
  | .lw e _ _ _ _ => engOk e
  | .lwu e _ _ _ _ => engOk e
  | .ld e _ _ _ _ => engOk e
  | .vld e _ _ _ _ => engOk e
  | .sb e _ _ _ => engOk e
  | .sh e _ _ _ => engOk e
  | .sw e _ _ _ => engOk e
  | .sd e _ _ _ => engOk e
  | .vst e _ _ _ => engOk e
  | .beq e _ _ _ => engOk e
  | .bne e _ _ _ => engOk e
  | .blt e _ _ _ => engOk e
  | .bge e _ _ _ => engOk e
  | .bltu e _ _ _ => engOk e
  | .bgeu e _ _ _ => engOk e
  | .jal e _ _ => engOk e
  | .jalr e _ _ _ => engOk e
  | .bp e _ _ _ => engOk e
  | .pcadd e _ _ => engOk e
  | .valu e _ _ _ _ => engOk e
  | .vcmp e _ _ _ _ => engOk e
  | .vsplat e _ _ _ _ => engOk e
  | .vext e _ _ _ _ => engOk e
  | .vins e _ _ _ _ => engOk e
  | .vperm e _ _ _ _ => engOk e
  | .vclmul e _ _ _ _ => engOk e
  | .vpopc e _ _ _ _ => engOk e
  | .vred e _ _ _ _ => engOk e
  | .pred e _ _ _ _ => engOk e
  | .amoswap e _ _ _ _ => engOk e.eng
  | .amoadd e _ _ _ _ => engOk e.eng
  | .amoand e _ _ _ _ => engOk e.eng
  | .amoor e _ _ _ _ => engOk e.eng
  | .amoxor e _ _ _ _ => engOk e.eng
  | .amominu e _ _ _ _ => engOk e.eng
  | .amomaxu e _ _ _ _ => engOk e.eng
  | .casAtomic e _ _ _ _ => engOk e.eng
  | .fence e _ _ _ _ => engOk e
  | .post e _ _ _ _ _ => engOk e.eng
  | .wait e _ _ _ _ _ => engOk e
  | .test e _ _ _ _ _ => engOk e
  | .yield e _ _ _ _ _ => engOk e
  | .endTask e _ _ _ _ _ => engOk e
  | .budget e _ _ _ _ _ => engOk e
  | .charge e _ _ _ _ _ => engOk e
  | .event e _ _ _ _ _ => engOk e
  | .hash e _ _ _ _ _ => engOk e.eng
  | .crc e _ _ _ _ _ => engOk e.eng
  | .fRunlimit e => engOk e
  | .fHooktime t => taskOk t
  | .waitTimeout t => taskOk t
  | .unitCompletion p => postOk p
  | .arrivalDispatch _ t => taskOk t
  | .groupDrained group => groupOk group
  | .frameParser t hook _ _ => taskOk t && taskOk hook
  | .sqTailDoorbell _ _ => true
  | .cqHeadDoorbell _ _ => true
  | .entryFetch _ _ _ => true
  | .aggTimeExpiry _ => true
  | .enable _ => true
  | .controllerReset _ => true
  | .resetBusyClear => true
  | .shutdown _ => true
  | .shutdownDone => true
  | .devrst _ => true
  | .deviceResetStep => true
  | .functionLevelReset => true
  | .perst _ => true
  | .pcieLinkDown => true
  | .pcieLinkUp _ _ => true
  | .completionTimeout r => hostReqOk r
  | .hostReadCompletion r _ => hostReqOk r
  | .busMasterDisable => true
  | .bmeHoldExpiry => true
  | .protEccUncorr _ _ => true
  | .barAccessInvalid _ _ _ => true
  | .registerWrite _ _ _ => true
  | .attnMaskWrite _ => true
  | .attnSignal => true
  | .rdmTickLowRead port => decide (port < 3)
  | .put t _ => taskOk t
  | .get t _ => taskOk t
  | .delete t => taskOk t
  | .exist t _ => taskOk t
  | .append t _ => taskOk t
  | .rangeRead t _ => taskOk t
  | .rangeWrite t _ => taskOk t
  | .punch t => taskOk t
  | .cas t _ => taskOk t
  | .list t _ _ => taskOk t
  | .flush t => taskOk t
  | .framePut t _ _ => taskOk t
  | .roiRead t _ => taskOk t
  | .batch t _ _ _ => taskOk t
  | .userCommand _ t _ => taskOk t
  | .slotLockGrant slot => slotOk slot
  | .slotLockTimeout t => taskOk t
  | .protectedFeltAdmit t => taskOk t.task
  | .streamedPortionAdmit t => taskOk t.task
  | .identify t _ => taskOk t
  | .logRead t _ => taskOk t
  | .featureSet t => taskOk t
  | .featureGet t => taskOk t
  | .selfTestShort t => taskOk t
  | .selfTestExtended t => taskOk t
  | .selfTestAbort t => taskOk t
  | .selfTestEnd _ _ _ => true
  | .selftestPeriod => true
  | .keyspaceCreate t _ => taskOk t
  | .keyspaceDelete t => taskOk t
  | .keyspaceErase t => taskOk t
  | .keyspaceUnlock t _ => taskOk t
  | .keyspaceLock t => taskOk t
  | .unlockLockoutEnd _ => true
  | .programLoad t _ => taskOk t
  | .programUnload t => taskOk t
  | .queueCreate t => taskOk t
  | .queueDelete t => taskOk t
  | .mapLeaseGrant t _ => taskOk t
  | .mapLeaseRevoke t => taskOk t
  | .mapLeaseQuery t => taskOk t
  | .eventClear t => taskOk t
  | .attest t _ => taskOk t
  | .chainControlInsert t => taskOk t
  | .chainControlBypass t => taskOk t
  | .portReset t => taskOk t
  | .fwDownload t _ => taskOk t
  | .fwCommit t _ _ => taskOk t
  | .fwActivateDeferred t => taskOk t
  | .fwActivateImmediate t => taskOk t
  | .activationSwap _ => true
  | .fwActivationAbandoned => true
  | .fwConfirm t => taskOk t
  | .fwTrialExpiry => true
  | .encodeTile p lane _ => postOk p && laneOk lane
  | .decodeTile p lane _ => postOk p && laneOk lane
  | .encodeBytes p lane => postOk p && laneOk lane
  | .decodeBytes p lane _ => postOk p && laneOk lane
  | .stagingGrant => true
  | .copy p => postOk p
  | .channelTakePost channel => channelOk channel
  | .linkedDescriptorRead channel => channelOk channel
  | .beatGrant _ => true
  | .ageTicksExpiry channel => channelOk channel
  | .descTimeout channel => channelOk channel
  | .lateCompletion channel _ => channelOk channel
  | .lookup p => postOk p
  | .lock p => postOk p
  | .commit p => postOk p
  | .unlock p => postOk p
  | .remove p => postOk p
  | .seq p => postOk p
  | .scan p => postOk p
  | .mediaRead p _ => postOk p
  | .mediaWrite p => postOk p
  | .mediaErase p _ => postOk p
  | .readRaw p => postOk p
  | .quireProgrammed _ _ => true
  | .programFail _ _ => true
  | .eraseFail _ _ => true
  | .dieFailed channel die => nandChannelOk channel && nandDieOk die
  | .quireClose => true
  | .broke => true
  | .fold => true
  | .refresh => true
  | .patrol _ _ => true
  | .wearLevel => true
  | .checkpointRound => true
  | .journalMax => true
  | .recoveryDone _ => true
  | .fwd p => postOk p
  | .inv p => postOk p
  | .derive p => postOk p
  | .tagCheck p => postOk p
  | .free p => postOk p
  | .sealFree p => postOk p
  | .record p => postOk p
  | .sync p => postOk p
  | .loopbackCapsule p _ => postOk p
  | .sendData p => postOk p
  | .recvData p => postOk p
  | .timerDelay p => postOk p
  | .timerAbsolute p => postOk p
  | .timerDue p => postOk p
  | .rateWindowClose _ => true
  | .frameReceive port _ => portOk port
  | .egressFrameStart port => portOk port
  | .pauseExpiry port prio => portOk port && prioOk prio
  | .pfcXoffRefresh port prio => portOk port && prioOk prio
  | .pfcStorm port prio => portOk port && prioOk prio
  | .pfcStormEnd port prio => portOk port && prioOk prio
  | .linkDown port _ => portOk port
  | .linkUp port _ => portOk port
  | .preemptVerifyFailed port => portOk port
  | .heldFrameExpiry => true
  | .ringProbe => true
  | .ringOpened => true
  | .ringClosed => true
  | .insertSelftestDone _ _ => true
  | .bypassChanged => true
  | .insertDecision => true
  | .bypassFault => true
  | .aux12vLoss => true
  | .aux12vPresent => true
  | .senseChange _ _ => true
  | .actOpen => true
  | .actClose => true
  | .closeAck flow => flowOk flow
  | .actCmd => true
  | .actData => true
  | .actAck => true
  | .actReset => true
  | .ackDelay flow => flowOk flow
  | .retransmitTimeout flow => flowOk flow
  | .idleTimeout flow => flowOk flow
  | .streamTimeout flow => flowOk flow
  | .attn flow => flowOk flow
  | .windowBoundary _ => true
  | .bgvCapWrite _ => true
  | .vcoreStep => true
  | .bgvGroupMove _ => true
  | .thermalCritical _ _ => true
  | .sensorFail _ => true
  | .blowerBudget => true
  | .mainPowerGood => true
  | .bringupStep _ => true
  | .mainPowerLost _ => true
  | .drainDone _ _ _ => true
  | .reqActive => true
  | .reqDormant => true
  | .reqRetention => true
  | .dormantEntered => true
  | .retentionEntered => true
  | .wakePin => true
  | .perstRisingEdge => true
  | .dormantExit => true
  | .thermalWakeHoldEnd => true
  | .vauxLoss => true
  | .selfrefreshLost => true
  | .timebaseRestart _ _ _ _ => true
  | .holdupMeasureStart => true
  | .holdupMeasured _ _ => true
  | .tamperOpen => true
  | .glitchTrip _ => true
  | .blowerStart _ _ _ => true
  | .windmill _ _ _ => true
  | .brakeDone _ _ => true
  | .alignDone => true
  | .handover _ _ => true
  | .startFailed _ => true
  | .startRetry => true
  | .observerLost _ _ _ => true
  | .reacquired _ _ => true
  | .reacquireFailed _ => true
  | .overvoltage _ _ => true
  | .ov2AscLimit => true
  | .speedDeficit _ _ => true
  | .blowerHealthy _ _ => true
  | .status port => portOk port
  | .pageSet port _ _ => portOk port
  | .pageGet port => portOk port
  | .regRead port _ _ => portOk port
  | .regWrite port _ _ _ => portOk port
  | .deviceReset port _ _ => portOk port
  | .wake port _ _ => portOk port
  | .smbusTimeout port => portOk port
  | .lsScrubError eng _ => engOk eng
  | .internalEcc => true
  | .xtalFault _ => true
  | .supplyFault => true
  | .configurationRequest _ => true
  | .portResetTimeout => true
  | .respAckWaitExpiry => true
  | .coastReturn _ => true
  | .ascRelease _ _ => true

end Sys2Proof
end

