-- ==== Sys2Proof/Tests/Slice0.lean ====
section
/-! SUPPORT. Tests: ill-formed commands refused, examples and tables of the manual, and for every statement of
`Obligations` a state and operands that meet its hypotheses, clause by clause. -/

set_option Elab.async false

namespace Sys2Proof.Tests

open Sys2Proof.Machine Sys2Proof.Claims

/-! ### States the tests use -/

/-- 400 s after the time base began. -/
abbrev now : Nat := 10000000000
/-- An ACTIVE drive's power state. -/
def pwA : Power := { st := .active, bringStep := 9, bringCause := 4, recovered := true, measured := true, limitMib := 8192 }
def envA : Env := { tick := now, pw := pwA }
/-- A RUNNING vendor task on engine 3. -/
def tA : Task := { eng := 3, ctx := 1, st := .running, kind := .host, runFrom := now, dispTick := now }
def devOf (t : Task) : Dev := { mea := { tasks := [t] }, trl := { recovering := false } }
def stOf (d : Dev) : State := { env := envA, dev := d }
/-- A drive in a power state. -/
def stIn (p : Power) (d : Dev) : State := { env := { tick := now, pw := p }, dev := d }
/-- The drive with one task. -/
def run1 (t : Task) : State := stOf (devOf t)

/-! ### Well-formed commands -/

theorem test_wf_engine : Instr.wf (.addi 96 0 0 0) = false := by decide
theorem test_wf_context : Instr.wf (.put ⟨0, 64⟩ (.ok [])) = false := by decide
theorem test_wf_tag : Instr.wf (.fwd ⟨0, 0, 32⟩) = false := by decide
theorem test_wf_port : Instr.wf (.linkDown 2 1) = false := by decide
theorem test_wf_prio : Instr.wf (.pfcStorm 0 8) = false := by decide
theorem test_wf_channel : Instr.wf (.channelTakePost 64) = false := by decide
theorem test_wf_host_read : Instr.wf (.completionTimeout (.couch 64 0)) = false := by decide
theorem test_wf_nand : Instr.wf (.dieFailed 32 0) = false ∧ Instr.wf (.dieFailed 0 24) = false := by decide
theorem test_wf_lane : Instr.wf (.encodeTile ⟨0, 0, 0⟩ 16 .pass) = false := by decide
theorem test_wf_slot : Instr.wf (.slotLockGrant 1073741824) = false := by decide
theorem test_wf_flow : Instr.wf (.attn 4096) = false := by decide
theorem test_wf_group : Instr.wf (.groupDrained 4096) = false := by decide
theorem test_wf_tick_port : Instr.wf (.rdmTickLowRead 3) = false := by decide
theorem test_wf_ok : Instr.wf (.addi 95 0 0 0) = true ∧ Instr.wf (.fwd ⟨95, 63, 31⟩) = true := by decide

/-! ### Shuan instructions -/

theorem wit_ImmediateForms : Runs (run1 tA) 3 tA := ⟨rfl, rfl, rfl⟩
theorem wit_ShiftImmediate : Runs (run1 tA) 3 tA := wit_ImmediateForms

/-- sA = −2^63 and sB = −1 (R76), and a task with a 1 bit in place 63 alone. -/
def tDiv : Task := (tA.setS 1 0x8000000000000000).setS 2 0xFFFFFFFFFFFFFFFF
theorem wit_AluOperations : Runs (run1 tDiv) 3 tDiv ∧ tDiv.sreg 2 ≠ 0 ∧ tDiv.sreg 0 = 0 ∧ (tDiv.sreg 1).toNat / 2 ^ 63 = 1 ∧
    bitOf (tDiv.sreg 1) 63 = true ∧ (∀ i, i < 63 → bitOf (tDiv.sreg 1) i = false) ∧
    ((0x21#10).toNat = 0x21 ∧ 0x020 < (0x21#10).toNat) :=
  ⟨⟨rfl, rfl, rfl⟩, by decide, by decide, by decide, by decide, by decide, by decide⟩
theorem test_div_corner : aluOp 0x014 0 (tDiv.sreg 1) (tDiv.sreg 2) = .val 0x8000000000000000 ∧
    aluOp 0x016 0 (tDiv.sreg 1) (tDiv.sreg 2) = .val 0 := ⟨rfl, rfl⟩

def tUser : Task := { tA with program := 5 }
def prog5 : Program :=
  { psBase := 0x1800000, psLen := 0x1000, feOff := 0, feLen := 0x1000, drOff := 0, drLen := 0, wclass := 12, grants := 0 }
def devUser (t : Task) : Dev := { devOf t with mea := { (devOf t).mea with programs := [(5, prog5)] } }
theorem wit_SystemValues : Runs (run1 tA) 3 tA ∧ tA.program = 0 ∧
    (let t := { tUser with pc := 0x1800000 }; Runs (stOf (devUser t)) 3 t ∧ t.program ≠ 0) :=
  ⟨⟨rfl, rfl, rfl⟩, rfl, ⟨rfl, rfl, rfl⟩, by decide⟩

/-- Loads at the last byte, halfword, word, doubleword and vector of the frame at LS 0x0BFF down. -/
theorem wit_Loads : Runs (run1 tA) 3 tA ∧ (∀ p ∈ [(0xBFF, 1), (0xBFE, 2), (0xBFC, 4), (0xBF8, 8), (0xBC0, 64)],
    let x : Word := tA.sreg 0 + (BitVec.ofNat 15 p.1).signExtend 64
    accessFault (devOf tA) tA .load x p.2 p.2 = none ∧ (spaceOf x = 0 → lsBad (devOf tA) tA (offOf x) p.2 = false)) ∧
    (15#5).toNat < 16 := ⟨⟨rfl, rfl, rfl⟩, by decide, by decide⟩

theorem wit_MemoryAndFetchFaults :
    Runs (run1 tA) 3 tA ∧
    (let x : Word := tA.sreg 0 + (4#15).signExtend 64; accessFault (devOf tA) tA .load x 8 8 = some fAlign) ∧
    (let x : Word := tA.sreg 0 + (2#15).signExtend 64; accessFault (devOf tA) tA .load x 4 4 = some fAlign) ∧
    (let x : Word := tA.sreg 0 + (8#15).signExtend 64
     let d := { devOf tA with mea := { (devOf tA).mea with badWords := [] } }
     accessFault d tA .load x 8 8 = none ∧ spaceOf x = 0 ∧ lsBad d tA (offOf x) 8 = false) ∧
    (let t := tA.setS 1 0x30000
     let d := { devOf t with mea := { (devOf t).mea with badWords := [(3 * 0x40000 + 0x30000) / 8] } }
     let x : Word := t.sreg 1 + (0#15).signExtend 64
     Runs (stOf d) 3 t ∧ accessFault d t .load x 8 8 = none ∧ spaceOf x = 0 ∧ lsBad d t (offOf x) 8 = true) ∧
    (pcOk (devOf tA) tA ((tA.pc.toNat : Int) + 4 * (0xFFFFF#20).toInt) = false ∧
      pcOk (devOf tA) tA ((tA.pc.toNat : Int) + 4 * (0x7FFF#15).toInt) = false ∧ tA.sreg 0 = tA.sreg 1) ∧
    (let t := { tA with pc := 0x1800000 }
     running (devOf t) 3 = some t ∧ boundaryFault envA (devOf t) t = none ∧ pcOk (devOf t) t t.pc.toNat = false) ∧
    (let t := { tA with runFrom := now - 25001 }
     running (devOf t) 3 = some t ∧ t.kind ≠ .hook ∧ t.runFrom + runLimit (devOf t) t < envA.tick) :=
  ⟨⟨rfl, rfl, rfl⟩, by decide, by decide, by decide, ⟨⟨rfl, rfl, rfl⟩, by decide⟩, by decide, ⟨rfl, by decide⟩,
   ⟨rfl, by decide⟩⟩

theorem wit_StoresWriteOnlyTheirBytes : Runs (run1 tA) 3 tA ∧
    (∀ p ∈ [(0xBFF, 1), (0xBFE, 2), (0xBFC, 4), (0xBF8, 8), (0xBC0, 64)],
      accessFault (devOf tA) tA .store (tA.sreg 0 + (BitVec.ofNat 15 p.1).signExtend 64) p.2 p.2 = none) :=
  ⟨⟨rfl, rfl, rfl⟩, by decide⟩

theorem wit_ControlTransfers :
    (let t : Task := { (tA.setS 1 1).setP 1 5 with pc := 0x100 }
     Runs (run1 t) 3 t ∧ t.sreg 0 = t.sreg 2 ∧ t.sreg 0 ≠ t.sreg 1 ∧ t.preg 1 ≠ 0 ∧ t.preg 2 = 0 ∧
       t.preg 0 = 0xFFFFFFFFFFFFFFFF ∧ (1#5).toNat < 8 ∧
       pcOk (devOf t) t ((t.pc.toNat : Int) + 4 * (0x7FC0#15).toInt) = true ∧
       pcOk (devOf t) t ((t.pc.toNat : Int) + 4 * (0x40000#20).toInt) = true) ∧
    (let t := tA.setS 1 0x17FFFFC
     Runs (run1 t) 3 t ∧ (t.sreg 1 + (0#15).signExtend 64).toNat / 2 ^ 60 ≠ 3 ∧
       pcOk (devOf t) t (t.sreg 1 + (0#15).signExtend 64).toNat = true) ∧
    (let t := tA.setS 1 0x3000000000000100
     Runs (run1 t) 3 t ∧ (t.sreg 1 + (0x7FFC#15).signExtend 64).toNat / 2 ^ 60 = 3 ∧
       pcOk (devOf t) t (((t.sreg 1 + (0x7FFC#15).signExtend 64).toNat % 2 ^ 60 : Nat) : Int) = true) :=
  ⟨⟨⟨rfl, rfl, rfl⟩, by decide⟩, ⟨⟨rfl, rfl, rfl⟩, by decide⟩, ⟨rfl, rfl, rfl⟩, by decide⟩

theorem wit_VectorLanes : Runs (run1 tA) 3 tA ∧ (15#5).toNat < 16 ∧ ∀ c, c < 0x12 → fld (BitVec.ofNat 10 c) 0 5 = c :=
  ⟨⟨rfl, rfl, rfl⟩, by decide, by decide⟩
theorem wit_VectorByLanes : Runs (run1 tA) 3 tA ∧ (15#5).toNat < 16 ∧ (7#5).toNat < 8 ∧
    (∀ c, c < 7 → fld (BitVec.ofNat 10 c) 0 5 = c) ∧ fld (0x060#10) 0 5 = 0 ∧ fld (0x060#10) 7 3 = 0 ∧
    2 ^ fld (0x000#10) 5 2 = 1 :=
  ⟨⟨rfl, rfl, rfl⟩, by decide⟩
theorem wit_VectorCarryLess : Runs (run1 tA) 3 tA ∧ (15#5).toNat < 16 ∧ fld (0x063#10) 2 5 = 0b11000 ∧
    fld (0x067#10) 2 5 ≠ 0b11000 := ⟨⟨rfl, rfl, rfl⟩, by decide⟩
theorem test_clmul : clmul 0x3 0x3 64 0 = 0x5 := by decide
theorem wit_ReductionsAndPredicates :
    (let t := (tA.setP 1 0x8000000000000000).setP 2 0
     Runs (run1 t) 3 t ∧ (∀ c, c < 10 → fld (BitVec.ofNat 10 c) 0 5 = c) ∧ (7#5).toNat < 8 ∧ t.preg 2 = 0 ∧
       bitOf (t.preg 1) 63 = true ∧ ∀ k, k < 63 → bitOf (t.preg 1) k = false) ∧
    fld (0x020#10) 5 5 ≠ 0 ∧ 9 < fld (0x00A#10) 0 5 ∧ 8 ≤ (8#5).toNat :=
  ⟨⟨⟨rfl, rfl, rfl⟩, by decide⟩, by decide⟩
theorem wit_Atomics :
    (let t := tA.setS 1 0x3FFF8
     Runs (run1 t) 3 t ∧ (∀ n ∈ [4, 8], accessFault (devOf t) t .atomic (t.sreg 1) n n = none ∧
       lsBad (devOf t) t (offOf (t.sreg 1)) n = false)) := ⟨⟨rfl, rfl, rfl⟩, by decide⟩

/-! ### Primitives and posts -/

/-- A descriptor or capsule from its fields: byte offset and value. -/
def fields (l : List (Nat × Nat)) : V512 := BitVec.ofNat 512 (l.map (fun p => p.2 * 256 ^ p.1)).sum
/-- A captured post of engine 3, context 1. -/
def postN (tag : Nat) (unit : BitVec 4) (pf : BitVec 6) (c : V512) (a : Word) : Post :=
  { tag := tag, unit := unit, pf := pf, desc := c, addr := a, tick := now - 100 }
def refN (tag : Nat) : PostRef := ⟨3, 1, tag⟩
/-- The drive with one task that has one captured post, with tag 0. -/
def withPost (t : Task) (unit : BitVec 4) (pf : BitVec 6) (c : V512) : Task :=
  { t with posts := [postN 0 unit pf c 0x100] }
/-- All 32 tags taken. -/
def tFull : Task := { tA with posts := (List.range 32).map (fun k => postN k 7 0 0 1) }

theorem wit_Posting :
    Runs (run1 tFull) 3 tFull ∧ tFull.program = 0 ∧ (∀ k, k < 32 → ∃ p ∈ tFull.posts, p.tag = k) ∧
    (let t := (withPost tA 7 0 0).setS 1 5000
     Runs (run1 t) 3 t ∧ (∀ p ∈ t.posts, p.tag ≠ 1) ∧ (∀ k, k < 1 → ∃ p ∈ t.posts, p.tag = k) ∧ t.program = 0 ∧
       (0 : Nat) < [1, 4, 6, 4, 7, 2, 3, 2].getD 7 0) ∧
    (let t := tA.setS 1 0xA00
     let d := devOf t
     let x := t.sreg 1
     Runs (stOf d) 3 t ∧ t.program = 0 ∧ t.posts = [] ∧
       (∀ n ∈ [32, 64], accessFault d t .load x n n = none ∧ lsBad d t (offOf x) n = false ∧ spaceOf x = 0 ∧
         leNat (readSpace d t (spaceOf x) (offOf x) n) = 0) ∧
       descOk d t 5 0 0 = true ∧ descOk d t 1 0 0 = false ∧ (accessFault d t .load 0xA01 64 64).isSome = true) ∧
    (let t := tA.setS 1 0x30000
     let d := { devOf t with mea := { (devOf t).mea with badWords := [(3 * 0x40000 + 0x30000) / 8] } }
     let x := t.sreg 1
     Runs (stOf d) 3 t ∧ accessFault d t .load x 64 64 = none ∧ spaceOf x = 0 ∧ lsBad d t (offOf x) 64 = true) ∧
    (let t := { tUser with pc := 0x1800000 }
     Runs (stOf (devUser t)) 3 t ∧ t.program ≠ 0 ∧ (5 : Nat) < [1, 4, 6, 4, 7, 2, 3, 2].getD 2 0 ∧
       userMay 7 0 = true ∧ lookupDenied (devUser t) t 7 0 = false) :=
  ⟨⟨rfl, rfl, rfl⟩, rfl, by decide, ⟨⟨rfl, rfl, rfl⟩, by decide, by decide, rfl, by decide⟩,
   ⟨⟨rfl, rfl, rfl⟩, by decide +kernel⟩, ⟨⟨rfl, rfl, rfl⟩, by decide +kernel⟩, ⟨rfl, rfl, rfl⟩, by decide +kernel⟩

/-- Tag 31 delivered first, tag 0 second. -/
def tTwo : Task :=
  { (tA.setS 1 0x80000001) with posts := [{ postN 0 7 0 0 1 with st := .delivered 4 }, { postN 31 7 0 0 1 with st := .delivered 2 }] }
def tOne : Task := withPost (tA.setS 1 1) 7 0 0
theorem wit_Waiting :
    (Runs (run1 tTwo) 3 tTwo ∧ ((2#5) ≠ 3#5 ∨ (2#5) = 0) ∧
      (let mask : W32 := (tTwo.sreg 1).setWidth 32
       mask ≠ 0 ∧ (∀ k, k < 32 → mask.getLsbD k = true → ∃ q ∈ tTwo.posts, q.tag = k) ∧
       (∃ p ∈ tTwo.posts, p.tag = 31 ∧ mask.getLsbD p.tag = true ∧ p.st = .delivered 2) ∧
         ∀ q ∈ tTwo.posts, q.tag ≠ 31 → q.st = .delivered 4)) ∧
    (Runs (run1 tOne) 3 tOne ∧ (tOne.sreg 2).setWidth 32 = 0#32 ∧ tOne.posts ≠ [] ∧
      (∀ q ∈ tOne.posts, q.st = .captured) ∧ tOne.sreg 2 = 0) ∧
    (Runs (run1 (tA.setS 1 0x80000000)) 3 (tA.setS 1 0x80000000) ∧
      ∃ k, k < 32 ∧ (((tA.setS 1 0x80000000).sreg 1).setWidth 32 : W32).getLsbD k = true ∧
        ∀ q ∈ (tA.setS 1 0x80000000).posts, q.tag ≠ k) :=
  ⟨⟨⟨rfl, rfl, rfl⟩, by decide, by decide, by decide, by decide, by decide⟩, ⟨⟨rfl, rfl, rfl⟩, by decide⟩,
   ⟨rfl, rfl, rfl⟩, 31, by decide⟩

theorem wit_EndsAndBudgets :
    (let t := (((tA.setS 1 0x15).setS 2 0x80).setS 3 0x16).setS 4 0x7F
     Runs (run1 t) 3 t ∧ ((t.sreg 1).setWidth 8 : Byte).toNat < 0x16 ∧ 0x80 ≤ ((t.sreg 2).setWidth 8 : Byte).toNat ∧
       0x16 ≤ ((t.sreg 3).setWidth 8 : Byte).toNat ∧ ((t.sreg 4).setWidth 8 : Byte).toNat < 0x80) ∧
    (Runs (run1 tA) 3 tA ∧ tA.program = 0 ∧ 2 ≤ tA.wclass ∧ tA.wclass < 16) ∧
    (let t := { tUser with pc := 0x1800000 }; Runs (stOf (devUser t)) 3 t ∧ t.program ≠ 0) :=
  ⟨⟨⟨rfl, rfl, rfl⟩, by decide⟩, ⟨⟨rfl, rfl, rfl⟩, by decide⟩, ⟨rfl, rfl, rfl⟩, by decide⟩

theorem wit_RecordsHashesAndChecks :
    (let t := (tA.setS 1 0x5705C0).setS 3 4096
     Runs (run1 t) 3 t ∧ t.program = 0 ∧ fld (t.sreg 1) 16 4 ≤ 7 ∧ fld (t.sreg 1) 20 4 ≤ 5 ∧ fld (t.sreg 0) 8 8 = 0 ∧
       (t.sreg 0).toNat = 0 ∧ (t.sreg 3).toNat ≤ 4096) ∧
    (let t := ((tA.setS 1 0xB9D).setS 2 0x0B00).setS 3 99
     let x := t.sreg 1
     Runs (run1 t) 3 t ∧ accessFault (devOf t) t .load x (fld (t.sreg 2) 8 8) 1 = none ∧ spaceOf x = 0 ∧
       lsBad (devOf t) t (offOf x) (fld (t.sreg 2) 8 8) = false ∧ accessFault (devOf t) t .load x (t.sreg 3).toNat 1 = none ∧
       lsBad (devOf t) t (offOf x) (t.sreg 3).toNat = false) ∧
    (let t := tA.setS 3 4097; Runs (run1 t) 3 t ∧ 4096 < (t.sreg 3).toNat) ∧
    (let t := { tUser with pc := 0x1800000 }; Runs (stOf (devUser t)) 3 t ∧ t.program ≠ 0) :=
  ⟨⟨⟨rfl, rfl, rfl⟩, by decide⟩, ⟨⟨rfl, rfl, rfl⟩, by decide⟩, ⟨⟨rfl, rfl, rfl⟩, by decide⟩, ⟨rfl, rfl, rfl⟩, by decide⟩

/-- A FRAME_PUT whose FRAME_PARSER is a hook of program 5 on keyspace 0. -/
def tPut : Task :=
  { tA with capsule := fields [(0, 0x0C), (16, 4096)], st := .waiting, arrNo := 7, group := 24, job := { lock := .held 9 } }
def progHook : Program := { prog5 with hooks := [(1, 0, 0x1800000)] }
def devHook : Dev := { devOf tPut with mea := { (devOf tPut).mea with programs := [(5, progHook)] } }
/-- A slot two tasks wait for, free or locked. -/
def slotW (lock : Option Owner) : Slot :=
  { live := true, ksid := 0, key := [1], hash := 1, lock := lock,
    waiters := [⟨⟨3, 1, 0, none⟩, none, none, false⟩, ⟨⟨4, 1, 0, none⟩, none, none, false⟩] }
/-- A slot whose first waiter is member 1 of a BATCH, and one whose first waiter is a LOCK post. -/
def slotMem : Slot := { slotW none with waiters := [⟨⟨3, 1, 0, some 1⟩, none, none, false⟩] }
def slotPost : Slot := { slotW none with waiters := [⟨⟨3, 1, 0, none⟩, some 2, none, false⟩] }
def slotMine : Slot := { slotW none with lock := some ⟨3, 1, 0, none⟩ }
def devSlot (t : Task) (y : Slot) : Dev := { devOf t with kdr := { slots := [(9, y)] } }
def tLock : Task := { tA with st := .waiting, job := { lock := .waiting 9, lockDue := now } }
/-- The drive whose task holds 64 locks and waits for slot 9 with a LOCK post. -/
def devLocks : Dev :=
  { devOf tLock with kdr := { slots := (9, slotPost) :: (List.range 64).map (fun k => (k + 16, slotMine)) } }

theorem wit_TaskEventsLocksAndHooks :
    (let t := { tA with runFrom := now - 25000 }
     running (devOf t) 3 = some t ∧ t.runFrom + runLimit (devOf t) t ≤ now) ∧
    (let t := { tA with kind := .hook, dispTick := now - 25000 }
     taskOf (devOf t) ⟨3, 1⟩ = some t ∧ t.kind = .hook ∧ t.st ≠ .draining ∧ t.dispTick + 25000 ≤ now) ∧
    (let w : WaitInfo := ⟨1, 2, 3, some now⟩
     let t := { withPost tA 7 0 0 with st := .waiting, wait := some w }
     taskOf (devOf t) ⟨3, 1⟩ = some t ∧ t.st = .waiting ∧ t.wait = some w ∧ w.due = some now) ∧
    (∀ st ∈ [TaskSt.draining, .ready, .running, .waiting],
      let p : Post := { postN 5 7 0 0 1 with st := .finished }
      let t := { tA with st := st, posts := [p], wait := some ⟨0x20, 2, 3, none⟩ }
      taskOf (devOf t) ⟨3, 1⟩ = some t ∧ t.posts.find? (fun q => q.tag == 5 && q.st == .finished) = some p ∧
        t.posts.filter (fun q => q.tag != 5) = [] ∧ (0x20#32).getLsbD 5 = true) ∧
    (let p : Post := { postN 5 7 0 0 1 with st := .finished }
     let t := { tA with st := .draining, posts := [p, postN 6 7 0 0 1] }
     taskOf (devOf t) ⟨3, 1⟩ = some t ∧ t.posts.find? (fun q => q.tag == 5 && q.st == .finished) = some p ∧
        t.posts.filter (fun q => q.tag != 5) ≠ []) ∧
    (let d := { devOf tA with mea := { (devOf tA).mea with groups := [(0, { vat := 0, draining := true, epoch := 0 })] } }
     (groupOf d 0).draining = true ∧ ∀ x ∈ d.mea.tasks, x.epoch = (groupOf d 0).epoch) ∧
    (serving devHook ⟨3, 1⟩ 0x0C = some tPut ∧ tPut.kind ≠ .loop ∧
      hookFor devHook 1 (capKsid tPut.capsule) = some (5, progHook, 0x1800000) ∧ tPut.job.phase = .start ∧
      tPut.job.lock = .held 9 ∧ devHook.trl.worn = false ∧ frameEarly tPut.capsule none = none ∧
      progHook.quarantined = false ∧ ctxFree devHook ⟨2, 4⟩ false = true ∧ vatOk devHook ⟨2, 4⟩ tPut.group = true ∧
      fits devHook progHook.wclass 0 = true) ∧
    (fetchData { devHook with hqe := { bmeHold := some 0 } } tPut 2 (.ok [7, 8]) = .wait ∧
      fetchData { devHook with hqe := { busMaster := true, enable := true } } tPut 2 (.ok [7, 8]) = .data [7, 8] ∧
      fetchData { devHook with hqe := { busMaster := true, enable := true } } tPut 2 (.fail .timeout) = .fail 0x11) ∧
    (let d := devSlot tLock (slotW none)
     slotAt d 9 = some (slotW none) ∧ firstEligible (slotW none) = some ⟨⟨3, 1, 0, none⟩, none, none, false⟩ ∧
      ownerTask d ⟨3, 1, 0, none⟩ = some tLock) ∧
    (let d := devSlot tLock slotMem
     slotAt d 9 = some slotMem ∧ firstEligible slotMem = some ⟨⟨3, 1, 0, some 1⟩, none, none, false⟩ ∧
      ownerTask d ⟨3, 1, 0, some 1⟩ = some tLock) ∧
    (let d := devLocks
     slotAt d 9 = some slotPost ∧ firstEligible slotPost = some ⟨⟨3, 1, 0, none⟩, some 2, none, false⟩ ∧
      64 ≤ locksHeld d ⟨3, 1, 0, none⟩) ∧
    (slotAt (devSlot tLock (slotW (some ⟨8, 1, 0, none⟩))) 9 = some (slotW (some ⟨8, 1, 0, none⟩)) ∧
      firstEligible (slotW (some ⟨8, 1, 0, none⟩)) = none) ∧
    (taskOf (devOf tLock) ⟨3, 1⟩ = some tLock ∧ tLock.job.lock = .waiting 9 ∧ tLock.job.lockDue ≤ now ∧
      tLock.job.phase = .start ∧ tLock.completed = false) ∧
    (95 < 96 ∧ 0x3FFF8 < 0x40000) := by
  refine ⟨⟨rfl, by decide⟩, ⟨rfl, rfl, by decide, by decide⟩, ⟨rfl, rfl, rfl, rfl⟩, ?_, ⟨rfl, rfl, ?_⟩,
    by decide, by decide +kernel, by decide +kernel, ⟨rfl, rfl, rfl⟩, ⟨rfl, rfl, rfl⟩, ⟨rfl, rfl, by decide +kernel⟩,
    ⟨rfl, rfl⟩, ⟨rfl, rfl, by decide, rfl, rfl⟩, by decide⟩
  · intro st h; simp at h; rcases h with rfl | rfl | rfl | rfl <;> exact ⟨rfl, rfl, rfl, rfl⟩
  · exact List.cons_ne_nil _ _

/-! ### Posts of the units -/

/-- The drive with task t and its captured post; t and post found. -/
abbrev Posted (d : Dev) (t : Task) (unit : BitVec 4) (pf : BitVec 6) (c : V512) : Prop :=
  postOf d (refN 0) unit pf = some (withPost t unit pf c, postN 0 unit pf c 0x100)
/-- A chain task: flow 1, arrival 7. -/
def tAct : Task := { tA with kind := .act, source := 1, arrNo := 7 }
def flow1 : Flow := { client := 2, sflow := 9, isn := 0, port := 0, pcp := 3, group := 0, rxNext := 1, rxWin := 16, txNext := 1, txWin := 8 }
def devFlow (t : Task) (f : Flow) : Dev := { devOf t with xpt := { flows := [(1, f)] } }
def flowIn : Flow := { flow1 with inbound := [{ no := 7, held := [[(0, 3)]], bytes := [1, 2, 3] }] }
def cLoop : V512 := fields [(0, 0x20)]
def cLoopKey : V512 := fields [(0, 0x02), (5, 16), (32, 16)]

theorem wit_RecorderTimerTransportPosts :
    (∀ k ∈ [(5, 0), (5, 1), (7, 0), (7, 1), (6, 0), (6, 1), (6, 2)],
      let un := BitVec.ofNat 4 k.1
      let pf := BitVec.ofNat 6 k.2
      Posted (devOf (withPost tA un pf 0)) tA un pf 0) ∧
    ((0x100#64).toNat ≤ (postN 0 7 1 0 0x100).tick ∧ (postN 0 7 1 0 (-1)).tick < (-1 : Word).toNat) ∧
    (let x : Post := { postN 0 7 0 0 5 with st := .working, due := some now }
     let t := { tA with posts := [x] }
     taskAt (devOf t) 3 1 = some t ∧ t.posts.find? (fun y => y.tag == 0 && y.unit == 7 && y.st == .working) = some x ∧
       now ≤ now) ∧
    (let t := withPost tA 6 0 cLoop
     checkEntry (devOf t) { kind := .loop, id := 0 } cLoop = some (scPrivilege, 0)) ∧
    (let d := { devOf (withPost tA 6 0 cLoopKey) with hqe := { busMaster := true }, kdr := { ks := [(0, { exist := true })] } }
     let src : Src := { kind := .loop, id := 0, bufLen := 32 }
     checkEntry d src cLoopKey = none ∧ needsKey d cLoopKey = true ∧ d.hqe.busMaster = true) ∧
    (flowOf (devOf tAct) 1 = none ∧ (flowOf (devFlow tAct flow1) 1).isSome = true ∧
      tAct.arrNo < ({ flow1 with first := 8 } : Flow).first ∧ flow1.first ≤ tAct.arrNo ∧
      inboundOf (devFlow tAct flow1) 1 7 = none ∧ inboundOf (devFlow tAct flowIn) 1 7 = some ⟨7, [[(0, 3)]], [1, 2, 3]⟩ ∧
      cap (fields [(8, 1), (16, 2)]) 8 8 + cap (fields [(8, 1), (16, 2)]) 16 4 ≤ 3) ∧
    (let w : RateWin := ⟨now - 60 * 25000000, 60, 8, 3, 4, 5, 0⟩
     let d := { devOf tA with evr := { windows := [(0x0D02, w)] } }
     tblGet d.evr.windows 0x0D02 = some w ∧ w.start + w.secs * 25000000 ≤ now) := by
  refine ⟨?_, by decide, ⟨rfl, rfl, by decide⟩, by decide +kernel, by decide +kernel,
    ⟨rfl, rfl, by decide, by decide, rfl, rfl, by decide +kernel⟩, ⟨rfl, by decide⟩⟩
  intro k h; simp at h; rcases h with rfl | rfl | rfl | rfl | rfl | rfl | rfl <;> rfl


/-- A cipher task: its frame from LS 0xC00 on is free to use. -/
def devKey (t : Task) : Dev := { devOf t with ccl := { keys := [(5, { key := [], ops := 1048576 })], limit := 20 } }
def cKey : V512 := fields [(0, 5), (4, 16)]

theorem wit_CipherPosts :
    (∀ k, k < 6 → Posted (devOf (withPost tA 2 (BitVec.ofNat 6 k) 0)) tA 2 (BitVec.ofNat 6 k) 0) ∧
    (¬ (2 ^ min 32 (max 20 (fld (devOf tA).ccl.limit 0 6)) < (keySlot (devOf tA) 0).ops + 0 / 16)) ∧
    (postOf (devKey (withPost tA 2 1 cKey)) (refN 0) 2 1 = some (withPost tA 2 1 cKey, postN 0 2 1 cKey 0x100) ∧
      bitOf cKey 16 = false ∧
      2 ^ min 32 (max 20 (fld (devKey tA).ccl.limit 0 6)) < (keySlot (devKey tA) (cap cKey 0 2)).ops + cap cKey 4 4 / 16) ∧
    (cap (fields [(32, 1)]) 32 1 = 1 ∧ cap (0 : V512) 32 1 = 0 ∧ (ksOf (devOf tA) 0).locked = false ∧
      (ksOf (devOf tA) 0).ksr = []) ∧
    (let d := { devOf tA with kdr := { ks := [(0, { ksr := [1] })] } }
     (ksOf d 0).locked = false ∧ (ksOf d 0).ksr ≠ []) ∧
    (alarmed (devOf tA) tA 0 true true = false ∧ alarmed (devKey tA) tA cKey true false = false) ∧
    (∀ pf ∈ [0, 3],
      let t := withPost tA 2 (BitVec.ofNat 6 pf) 0
      let d := { devOf t with ccl := { alarmKeys := [0] } }
      Posted d tA 2 (BitVec.ofNat 6 pf) 0 ∧ alarmed d t 0 true true = true) := by
  refine ⟨?_, by decide, ⟨rfl, by decide +kernel⟩, by decide +kernel, by decide, by decide +kernel, ?_⟩
  rotate_left
  · intro pf hp
    simp at hp
    rcases hp with rfl | rfl <;> exact ⟨rfl, by decide +kernel⟩
  intro k h
  match k, h with
  | 0, _ | 1, _ | 2, _ | 3, _ | 4, _ | 5, _ => rfl
/-- AES-256 of the zero block under the zero key (FIPS 197's cipher, as 12 takes it). -/
theorem test_aes : aesEnc (List.replicate 32 0) (List.replicate 16 0) = natLe 16 179614621782202055820004664903534155228 := by decide +kernel
/-- A descriptor whose tag TAG_CHECK matches, and one whose tag it does not. -/
def cTag : V512 := fields [(32, 179614621782202055820004664903534155228)]
theorem wit_CipherPosts_tag :
    let pad (c : V512) : List Byte := xorBytes (slice (v512Bytes c) 48 16)
      (aesEnc (keySlot (devOf tA) (cap c 0 2)).key (readFor tA (devOf tA) (cap c 8 8) 16))
    Posted (devOf (withPost tA 2 3 cTag)) tA 2 3 cTag ∧ pad cTag = slice (v512Bytes cTag) 32 16 ∧
      pad 0 ≠ slice (v512Bytes 0) 32 16 ∧ alarmed (devOf tA) tA cTag true true = false :=
  ⟨rfl, by decide +kernel, by decide +kernel, by decide +kernel⟩

/-- A descriptor naming keyspace 0, the one-byte key at LS 0xA00 and the given hash 0. -/
def cDir : V512 := fields [(1, 1), (2, 1), (8, 0xA00)]
def slotFree : Slot := { live := true, ksid := 0, key := [0], hash := 0 }
def slotHeld : Slot := { slotFree with lock := some ⟨9, 1, 0, none⟩ }
def devDir (t : Task) (y : Slot) : Dev := { devOf t with kdr := { slots := [(9, y)] } }
/-- Every slot in reach of hash 0 is taken. -/
def fullSlots : Tbl Slot := (List.range' 0 512).map (fun k => (k, { slotFree with hash := 1 }))
def devDirFull (t : Task) : Dev := { devOf t with kdr := { slots := fullSlots } }
theorem emptyFrom_none (d : Dev) (h : Word) : ∀ n i,
    (∀ j, j < n → (tblGet d.kdr.slots ((homeBucket h + (i + j) / 8) % 2 ^ 27 * 8 + (i + j) % 8)).isSome = true) →
    emptyFrom d h n i = none
  | 0, _, _ => rfl
  | n + 1, i, H => by
    have h0 := H 0 (by omega)
    simp only [Nat.add_zero] at h0
    unfold emptyFrom
    cases hx : tblGet d.kdr.slots ((homeBucket h + i / 8) % 2 ^ 27 * 8 + i % 8) with
    | none => rw [hx] at h0; cases h0
    | some _ =>
      simp only [hx]
      apply emptyFrom_none d h n (i + 1)
      intro j hj
      have := H (j + 1) (by omega)
      simpa [Nat.add_assoc, Nat.add_comm 1 j] using this
theorem tblGet_row (y : Slot) (k : Nat) : ∀ n a, a ≤ k → k < a + n →
    (tblGet ((List.range' a n).map (fun i => (i, y))) k).isSome = true
  | 0, a, h1, h2 => by omega
  | n + 1, a, h1, h2 => by
    simp only [List.range'_succ, List.map_cons, tblGet]
    split
    · rfl
    · exact tblGet_row y k n (a + 1) (by omega) (by omega)
theorem full_none (d : Dev) (hd : d.kdr.slots = fullSlots) (key : List Byte) : findOrInsert 0 0 key d = none := by
  have e : emptySlot d 0 = none := by
    apply emptyFrom_none
    intro j hj
    have e : (homeBucket 0 + (0 + j) / 8) % 2 ^ 27 * 8 + (0 + j) % 8 = j := by
      have : homeBucket 0 = 0 := by decide
      omega
    rw [e, hd]
    exact tblGet_row _ j 512 0 (by omega) (by omega)
  have h : findSlot d 0 0 key = none := by simp [findSlot, hd, fullSlots, slotFree]
  simp only [findOrInsert, h, e]
def cSlot : V512 := fields [(24, 9), (40, 0xFFFFFFFF)]

theorem wit_DirectoryPosts :
    (∀ y ∈ [slotFree, slotHeld], ∀ pf ∈ [0, 1],
      let t := withPost tA 4 (BitVec.ofNat 6 pf) cDir
      let d := devDir t y
      let d1 := countProbe 0 0 [0] d
      postOf d (refN 0) 4 (BitVec.ofNat 6 pf) = some (t, postN 0 4 (BitVec.ofNat 6 pf) cDir 0x100) ∧
        findSlot d 0 0 [0] = some (9, y) ∧ y.live = true ∧ findOrInsert 0 0 [0] d1 = some (9, d1) ∧ slotAt d1 9 = some y ∧
        y.waiters = [] ∧ y.reservation = none ∧ locksHeld d1 t.owner < 64) ∧
    (slotFree.lock = none ∧ slotHeld.lock.isSome = true) ∧
    (readFor tA (devOf tA) (cap cDir 8 8) (cap cDir 1 1) = [0] ∧ bitOf cDir 16 = true ∧ cap cDir 16 8 = 0 ∧ cap cDir 0 1 = 0) ∧
    (let t := withPost tA 4 1 cDir
     let d := devDirFull t
     postOf d (refN 0) 4 1 = some (t, postN 0 4 1 cDir 0x100) ∧
       findOrInsert 0 0 [0] (countProbe 0 0 [0] d) = none) ∧
    (∀ pf ∈ [2, 3, 4],
      let t := withPost tA 4 (BitVec.ofNat 6 pf) cSlot
      let d := devDir t slotFree
      postOf d (refN 0) 4 (BitVec.ofNat 6 pf) = some (t, postN 0 4 (BitVec.ofNat 6 pf) cSlot 0x100) ∧
        slotAt d (cap cSlot 24 8) = some slotFree ∧ runAllowed d slotFree.ksid.toNat 1 = true) ∧ cap cSlot 40 4 ≠ 0 ∧
    (let c := fields [(4, 16384)]
     let t := withPost tA 4 5 c
     postOf (devOf t) (refN 0) 4 5 = some (t, postN 0 4 5 c 0x100) ∧ runAllowed (devOf t) (cap c 0 1) (cap c 4 4) = true) ∧
    (let t := withPost tA 4 6 cDir; postOf (devOf t) (refN 0) 4 6 = some (t, postN 0 4 6 cDir 0x100)) := by
  refine ⟨?_, ⟨rfl, rfl⟩, by decide +kernel, ⟨rfl, full_none _ rfl _⟩, ?_, by decide +kernel, ⟨rfl, by decide +kernel⟩, rfl⟩
  · intro y hy pf hp
    simp at hy hp
    rcases hy with rfl | rfl <;> rcases hp with rfl | rfl <;> exact ⟨rfl, rfl, rfl, rfl, rfl, rfl, rfl, by decide +kernel⟩
  · intro pf hp
    simp at hp
    rcases hp with rfl | rfl | rfl <;> exact ⟨rfl, by decide +kernel, by decide +kernel⟩

/-! ### Calender, media, couch -/

def cTile : V512 := fields [(0, 0x15), (2, 8), (4, 8), (20, 3)]
def tStage : Task := { tA with st := .waiting }
def wRoi : StageReq := ⟨true, 4096, ⟨3, 1⟩, false⟩
def wCal : StageReq := ⟨false, 4096, ⟨3, 1⟩, false⟩
def devStage (ws : List StageReq) : Dev := { devOf tStage with flt := { waits := ws } }

theorem wit_CalenderAndStaging :
    (∀ pf ∈ [0, 1, 2, 3],
      let t := withPost tA 1 (BitVec.ofNat 6 pf) cTile
      laneOn (devOf t) 15 = true ∧ postOf (devOf t) (refN 0) 1 (BitVec.ofNat 6 pf) =
        some (t, postN 0 1 (BitVec.ofNat 6 pf) cTile 0x100)) ∧ lossy (cap cTile 0 1) = true ∧ lossy (cap (0 : V512) 0 1) = false ∧
    (firstUnmet 0 0x15 3 0 [9, 200] [12, 204] = none ∧ firstUnmet 0 0x15 3 0 [9, 200] [12, 209] = some 1 ∧
      bitOf ({ ctrl := 1 } : Cal).ctrl 0 = true) ∧
    (stageFirst (devStage [wRoi, wCal]) false = some wCal ∧ stageFits (devStage [wRoi, wCal]) false 4096 = true) ∧
    (stageFirst (devStage [wRoi]) false = none ∧ stageFirst (devStage [wRoi]) true = some wRoi ∧
      stageFits (devStage [wRoi]) true 4096 = true) := by
  refine ⟨?_, by decide +kernel, by decide +kernel, by decide +kernel, ⟨rfl, by decide +kernel⟩, ⟨rfl, rfl, by decide +kernel⟩⟩
  intro pf hp
  simp at hp
  rcases hp with rfl | rfl | rfl | rfl <;> exact ⟨rfl, rfl⟩

/-- A pixel at the top of each type, the ends of E, P and M, and a pixel at its floor. -/
theorem wit_CalenderBounds : (∀ p ∈ [(0, 255), (1, 65535), (2, 4294967295)], p.1 ≤ 2 ∧ p.2 ≤ [255, 65535, 4294967295].getD p.1 0) ∧
    (1 ≤ 1073741824 ∧ 8 ≤ 256 ∧ 1 ≤ 31 ∧ 31 < 8 * bpp 2) ∧ (2 ≤ 5 ∧ (0 : Nat) ≤ 0) := by decide

/-- The drive with translation-layer state x. -/
def devTrl (t : Task) (x : Trl) : Dev := { devOf t with trl := { x with recovering := false } }
def cWrite (flags : Nat) : V512 := fields [(0, 3), (1, flags), (2, 1)]

theorem wit_MediaPosts :
    (∀ k, k < 4 → Posted (devOf (withPost tA 3 (BitVec.ofNat 6 k) 0)) tA 3 (BitVec.ofNat 6 k) 0) ∧ cap (0 : V512) 24 8 = 0 ∧
    (∀ f ∈ [0, 1],
      let t := withPost tA 3 1 (cWrite f)
      let sh : Sheet := ⟨readFor t (devOf t) 0 4096, BitVec.ofNat 128 (leNat (readFor t (devOf t) 0 16)), false⟩
      postOf (devOf t) (refN 0) 3 1 = some (t, postN 0 3 1 (cWrite f) 0x100) ∧ 3 ≤ cap (cWrite f) 0 1 ∧
        (placeSheets envA 3 (wantsSlc (devOf t) 3 false) [sh] (devOf t)).isSome = true) ∧
    bitOf (cWrite 0) 8 = false ∧ bitOf (cWrite 1) 8 = true ∧
    (psaDieKey (cap (0 : V512) 8 8) ∉ (devOf tA).trl.failedDies ∧
      psaDieKey (cap (0 : V512) 8 8) ∈ ({ failedDies := [0] } : Trl).failedDies ∧
      postOf { devOf (withPost tA 3 2 0) with trl := { recovering := false, failedDies := [0] } } (refN 0) 3 2 =
        some (withPost tA 3 2 0, postN 0 3 2 0 0x100)) ∧
    (∀ e ∈ [ReadEnd.hard 3, .soft 1, .rebuild, .channel 2, .unrecoverable],
      let d := devOf (withPost tA 3 0 (fields [(2, 1)]))
      Posted d tA 3 0 (fields [(2, 1)]) ∧ (readPages envA (psaRun d 0 1) [e] d).1.map (fun y => y.2.1) = [e]) := by
  refine ⟨?_, by decide +kernel, ?_, by decide +kernel, by decide +kernel, ⟨by decide, by decide +kernel, rfl⟩, by decide +kernel⟩
  · intro k h
    match k, h with
    | 0, _ | 1, _ | 2, _ | 3, _ => rfl
  · intro f hf
    simp at hf
    rcases hf with rfl | rfl <;> exact ⟨rfl, by decide +kernel, by decide +kernel⟩

/-- A closed ream of the record stream with two quires closed and one programmed. -/
def ream0 : Ream :=
  { slc := true, stream := 2, st := .closed, closedQ := [0, 767], programmedQ := [1], refreshQ := some 3, members := List.range 15,
    parity := 15 }
def reamIdle : Ream := { ream0 with refreshQ := none }
def devReam : Dev := devTrl tA { reams := [(5, ream0)] }
def devIdle : Dev := devTrl tA { reams := [(5, reamIdle)] }
def psaTop : Nat := 31 * 2 ^ 32 + 23 * 2 ^ 27 + 3 * 2 ^ 25 + 1823 * 2 ^ 14 + 2303 * 4 + 3
/-- What a program failure on a PSA records before it looks for the ream (R244). -/
def markFail (psa : Nat) (d : Dev) : Dev :=
  updBlock (psaBlockKey psa) (fun b => { b with retireQ := some (b.retireQ.getD 2) })
    (event envA 0x0B05 3 clsMedia (psaChannel psa) (psa % 2 ^ 32) (psa / 2 ^ 32) (1#32).toNat (setCause envA 11 2 d))
theorem wit_MediaUpkeep :
    (tblGet devReam.trl.reams 5 = some ream0 ∧ 767 ∈ ream0.closedQ ∧ 767 ∉ ream0.programmedQ ∧ internalWork envA devReam = true) ∧
    (psaOk devReam psaTop = true ∧ reamOf (markFail psaTop devReam) psaTop = none ∧ psaOk devReam (2 ^ 37) = false ∧
      (31 < 32 ∧ 23 < 24)) ∧
    (∀ q ∈ [0, 1], ∀ pos ∈ [0, 15],
      let psa := memberPsa devReam 5 pos q 0
      psaOk devReam psa = true ∧ reamOf (markFail psa devReam) psa = some (5, ream0) ∧ psaPage psa / wlPages ream0.slc = q ∧
        (q ∈ ream0.programmedQ ↔ q = 1)) := by
  refine ⟨⟨rfl, by decide, by decide, rfl⟩, by decide +kernel, by decide +kernel⟩
theorem wit_MediaUpkeep_work :
    (let d := devTrl tA { reams := [(5, { reamIdle with rebuild := true })] }
     reclaimNext (advanceMoves envA d) = none ∧ rebuildNext (advanceMoves envA d) = some (5, { reamIdle with rebuild := true })) ∧
    reclaimNext (advanceMoves envA { devIdle with kdr := { ks := [(7, { deleting := true })] } }) = some 7 ∧
    (let go := advanceMoves envA devIdle
     reclaimNext go = none ∧ rebuildNext go = none ∧ freeLow go ≤ freeReams envA go) ∧
    (let go := advanceMoves envA (devTrl tA { retiredGroups := List.range 48 })
     reclaimNext go = none ∧ rebuildNext go = none ∧ freeReams envA go < freeLow go ∧ spaceWorn envA go = true ∧
       brokeVictim (enterWorn envA 2 0 go) = none) ∧
    (let go := advanceMoves envA (devTrl tA { reams := [(330000, reamIdle)], retiredGroups := List.range 46, brokeReg := 0x0040FFFF })
     reclaimNext go = none ∧ rebuildNext go = none ∧ freeReams envA go < freeLow go ∧ spaceWorn envA go = false ∧
       (∀ m ∈ go.trl.moves, m.owner ≠ .broke) ∧ brokeVictim go = some (330000, reamIdle)) ∧
    (let go := advanceMoves envA (devTrl tA { reams := [(5, { reamIdle with placed := 1 })] })
     burstHeld go ≠ 0 ∧ go.trl.lastHostWrite + 2500000 ≤ now ∧
       (go.trl.reams.filter (fun q => q.2.slc && q.2.stream < 3 && !owned go q.1 && q.2.refreshQ.isNone)).find?
        (fun q => q.2.st == .closed) = some (5, { reamIdle with placed := 1 })) ∧
    (let go := advanceMoves envA devReam
     go.trl.reams.find? (fun q => q.2.refreshQ.isSome && !owned go q.1) = some (5, ream0)) ∧
    (let pass := patrolPass envA devIdle
     let psa := memberPsa devIdle 5 15 1 0
     reamOf pass psa = some (5, reamIdle) ∧ psaOk pass psa = true ∧ psaPage psa / wlPages reamIdle.slc ∈ reamIdle.programmedQ ∧
       psa / 4 ∉ pass.trl.patrolled) ∧
    (let go := advanceMoves envA (devTrl tA { reams := [(5, reamIdle)], blocks := [(525318, { wear := 601 })] })
     0 ∉ go.trl.retiredGroups ∧ freeReams envA go ≠ 0 ∧ wearSpread go 0 = true ∧ leastWorn go 0 = some (5, reamIdle) ∧ mostWornFree go 0 = some 6 ∧
       reamWear go 5 reamIdle.all < reamWear go 6 (livePos go 0)) := by
  refine ⟨by decide +kernel, by decide +kernel, by decide +kernel, by decide +kernel, by decide +kernel, by decide +kernel,
    by decide +kernel, by decide +kernel, by decide +kernel⟩

/-- A relocation of ream 5 in each of its stages, with its internal work dispatched (R237). -/
def tWork : Task := { tA with kind := .internal, arrNo := 40, st := .waiting }
def moveIn (st : MoveSt) (ms : List (Nat × Nat)) : Move :=
  { ream := 5, owner := .broke, arr := 40, cls := 6, st := st, moves := ms, seq := 9 }
def devMove (m : Move) (ps : List Nat) : Dev :=
  { devReam with mea := { tasks := [tWork, { tA with job := { psas := ps } }] }, trl := { devReam.trl with moves := [m] } }
theorem wit_RelocationOrder :
    owned (devMove (moveIn .queued []) []) 5 = true ∧
    (∀ st ∈ [MoveSt.copying, .remapping, .holding, .erasing],
      let m := moveIn st [(memberPsa devReam 5 0 0 0, memberPsa devReam 6 0 0 0)]
      let d := devMove m [memberPsa devReam 5 0 1 0]
      moveTask d m = some tWork ∧ tblGet d.trl.reams m.ream = some ream0 ∧ m.st = st ∧ m.moves ≠ [] ∧
        (∃ e ∈ m.moves, psaOnMedia d e.2 = false) ∧ d.trl.jDurable < m.seq ∧ (∃ a ∈ heldPsas d, inReam d m.ream a = true)) ∧
    (let m := moveIn .copying [(0, memberPsa devReam 5 0 1 0)]
     let d := devMove m []
     moveTask d m = some tWork ∧ ∀ e ∈ m.moves, psaOnMedia d e.2 = true) ∧
    (let y : Slot := { live := true, ksid := 0, key := [1], hash := 1, obj := some { objId := 7, len := 4096, map := [(0, .psa 8)] } }
     let d : Dev := { kdr := { slots := [(9, y)] } }
     slotAt d 9 = some y ∧ recordPsa y ≠ some 81920 ∧
       ∀ b, y.obj = some b → (∀ e ∈ b.map, e.2 ≠ .psa 81920) ∧ ∀ e ∈ b.coded, e.loc ≠ .psa 81920) := by
  refine ⟨by decide, by decide +kernel, by decide +kernel, rfl, by decide +kernel, ?_⟩
  intro b h
  cases h
  decide
theorem wit_MediaUpkeep_journal : ∃ l, journalMax (devTrl tA { journal := l }) ≤ 64 * l.length :=
  ⟨List.replicate (2 ^ 28) ⟨.map, 1, 0, 0, 0⟩, by rw [List.length_replicate]; decide⟩

/-! ### Couch engine -/

def cCopy : V512 := fields [(2, 0), (3, 0), (8, 0xA00), (16, 0xB00), (24, 64), (28, 1), (36, 64), (40, 1)]
def devCh (t : Task) (ch : Chan) : Dev := { devOf t with cch := { chans := (Vector.replicate 64 {}).set 63 ch } }
def chRun : Chan := { st := .run, vendor := true, eng := 3, ctx := 1, tag := 0, desc := cCopy, descAddr := 0x100 }
def chHost (r : HRead) : Chan :=
  { chRun with desc := fields [(2, 4), (3, 0), (4, 40), (16, 0xB00), (24, 64), (28, 1), (36, 64), (40, 1)], reads := [r] }
def pendA : Pend := ⟨7, true, refN 0, cCopy, 0x100, rightsOf (devOf tA) tA⟩
def rightsA : Rights := rightsOf (devOf tA) tA
def page0 : List Byte := slice [] 0 2060 ++ natLe 4 (crcStd (slice [] 0 2060)).toNat

set_option maxRecDepth 20000 in
theorem wit_CouchAndHostReads :
    Posted (devOf (withPost tA 0 0 cCopy)) tA 0 0 cCopy ∧
    (let d := { devOf tA with cch := { pend := [pendA] } }
     (chanOf d 63).st = .idle ∧ nextPend d 63 = some pendA) ∧
    (let ok := memStore [] 0xB80 (v512Bytes cCopy)
     let t := { tA with frame := ok }
     ∀ a ∈ [0xB80, 0xB81],
       let d := devCh t { chRun with st := .fetch, descAddr := BitVec.ofNat 64 a, rights := rightsA }
       (chanOf d 63).st = .fetch ∧ taskAt d 3 1 = some t ∧
         (linkOk d t (chanOf d 63).rights (BitVec.ofNat 64 a) (descAt d t (BitVec.ofNat 64 a) 64) = true ↔ a = 0xB80)) ∧
    (let d := refill envA (devCh tA chRun)
     let c := chanOf d 63
     pickChan d = some 63 ∧ sourceBad d c false = false ∧ cdHostDst c.desc = false ∧ (beatData d c).isSome = true) ∧
    (let d := devCh tA { chRun with readySince := now - 2500 }
     beatReady d (chanOf d 63) = true ∧ (chanOf d 63).readySince + max 250 (fld d.cch.ctrl 0 16) ≤ now) ∧
    (let r : HRead := { pos := 0, len := 64, tick := now - 10000 }
     let me := chanOf (devCh tA (chHost r)) 63
     me.st = .run ∧ cap me.desc 4 2 ≠ 0 ∧ 250 * cap me.desc 4 2 ≤ ctoTicks (devCh tA (chHost r)) ∧
       me.reads.find? (fun q => q.data.isNone && q.tick + 250 * cap me.desc 4 2 ≤ now) = some r) ∧
    (let old : LateRead := { pos := 64, did := 2, tick := now - 1250000, tag := 1 }
     let young : LateRead := { pos := 64, did := 3, tick := now - 1249999, tag := 2 }
     let d := devCh tA { chRun with records := [old, young] }
     (chanOf d 63).records.find? (fun q => q.pos == 64 && q.tick + ctoTicks d ≤ now) = some old ∧
       (chanOf d 63).records.filter (fun q => q.pos == 64 && now < q.tick + ctoTicks d) = [young]) ∧
    (∀ k ∈ [1250000, 1249999],
     let r : HRead := { pos := 64, len := 64, tick := now - k }
     let d := devCh tA (chHost r)
     (chanOf d 63).reads.find? (fun q => q.pos == 64 && q.data.isNone) = some r ∧ (r.tick + ctoTicks d ≤ now ↔ k = 1250000) ∧
       (chanOf d 63).records.find? (fun q => q.pos == 64 && q.tick + ctoTicks d ≤ now) = none) ∧
    (let p := slice page0 0 2112
     ∀ since ∈ [now, now - 1250000],
     let d := { devOf tA with hqe := { lease := { active := true, gen := 0, reads := [(0, since)] } } }
     d.hqe.lease.active = true ∧ d.hqe.lease.reads.find? (fun q => q.1 == 0) = some (0, since) ∧
       (crcStd (p.take 2060)).toNat = leAt p 2060 4 ∧ leAt p 2056 4 = d.hqe.lease.gen.toNat ∧ leAt p 2048 8 = 0 ∧
       pageTagsOk d 0 p = true ∧ (since + ctoTicks d ≤ now ↔ since ≠ now)) :=
  ⟨rfl, ⟨rfl, by decide +kernel⟩, by decide +kernel, by decide +kernel,
   by decide +kernel, by decide +kernel, by decide +kernel, by decide +kernel, by decide +kernel⟩

/-! ### Host queues -/

/-- Queue pair 3: 16 slots, entry 0 to fetch, two completions not released. -/
def pairA : Pair := { size := 16, tail := 1, cqTail := 15, cqHead := 13, unreleased := 2, aggFirst := some (now - 250), aggTime := 10 }
def hqeA : Hqe := { enable := true, ready := true, busMaster := true, perst := false, linkSpeed := 5, linkWidth := 16, pairs := [(3, pairA)] }
def devH (h : Hqe) : Dev := { devOf tA with hqe := h, kdr := { ks := [(0, { exist := true })] } }
def devA : Dev := devH hqeA

theorem wit_Doorbells : barAlive envA devA = true ∧ devA.hqe.enabled = true ∧ (devOf tA).hqe.enabled = false ∧
    pairA.deleting = none ∧ ({ pairA with deleting := some ⟨3, 1⟩ } : Pair).deleting.isSome = true ∧
    pairOf devA (4#16).toNat = none ∧ pairOf devA (3#16).toNat = some pairA ∧
    (pairA.size ≤ 16 ∧ pairA.tail < pairA.size ∧ 15 ≠ pairA.tail ∧ 15 < pairA.size) ∧
    (envA.pw.trans ≠ .dormant ∧ envA.pw.st ≠ .dormant) ∧ barAlive { envA with pw := { pwA with st := .dormant } } devA = true ∧
    barAlive { envA with pw := { pwA with trans := .dormant } } devA = true ∧
    ((0 + pairA.size - pairA.cqHead) % pairA.size = 3 ∧ pairA.unreleased < 3 ∧
      (15 + pairA.size - pairA.cqHead) % pairA.size ≤ pairA.unreleased) := by decide

/-- RETRIEVE of a 16-byte key in keyspace 0, and an entry with an opcode nobody serves. -/
def cGet : V512 := fields [(0, 0x02), (5, 16), (8, 0x1000), (16, 4096), (32, 0x2000)]
def bsGet : List Byte := v512Bytes cGet
theorem wit_EntriesAreFetched :
    fetching envA devA = true ∧ fetching envA (devOf tA) = false ∧ devA.hqe.issues = true ∧
    (let d1 := ((arbitrate devA).getD (0, devA)).2
     (arbitrate devA).map (·.1) = some 3 ∧ (pairOf d1 3).isSome = true ∧
      checkEntry (takeEntry 3 d1) { kind := .host, id := 3 } (bytesV512 (slice [] 0 64)) = some (scInvalidOpcode, 0) ∧
      checkEntry (takeEntry 3 d1) { kind := .host, id := 3 } (bytesV512 (slice bsGet 0 64)) = none ∧
      needsKey (takeEntry 3 d1) (bytesV512 (slice bsGet 0 64)) = true ∧
      capSgl (bytesV512 (slice bsGet 0 64)) = false ∧
      (bufferOf (bytesV512 (slice bsGet 0 64)) []).isSome = true) ∧
    (pairOf devA (3#16).toNat = some pairA ∧ pairA.aggFirst = some (now - 250) ∧ pairA.aggTime ≠ 0 ∧
      now - 250 + pairA.aggTime * 25 ≤ now) :=
  ⟨by decide, by decide, rfl, by decide +kernel, by decide⟩
theorem wit_CompletionEntries : pairOf devA 3 = some pairA := rfl

/-- DEV_CTRL values for each clause. -/
theorem wit_ControlAndHostResets :
    barAlive envA devA = true ∧ hostAlive envA = true ∧ envA.pw.resetStep = none ∧ envA.pw.st = .active ∧
    devA.hqe.enabled = true ∧ devA.hqe.d3hot = false ∧
    (bitOf (1#32) 0 = true ∧ bitOf (1#32) 1 = false ∧ bitOf (1#32) 2 = false ∧ bitOf (0#32) 0 = false ∧
      bitOf (3#32) 1 = true ∧ bitOf (3#32) 0 = true ∧ bitOf (0x5D000004#32) 2 = true ∧ fld (0x5D000004#32) 24 8 = 0x5D) ∧
    (∀ n ∈ [0, 1], (devH { hqeA with enable := false, admSize := BitVec.ofNat 32 n }).hqe.enable = false) ∧
    fld (0x7FF#32) 0 12 ≠ 0 ∧ fld (0x1000#32) 0 12 = 0 ∧
    (barAlive { envA with pw := { pwA with st := .bringup, bringStep := 5 } } devA = true) ∧
    (devH { hqeA with resetBusy := true }).hqe.resetBusy = true ∧ devA.hqe.shutdown = false ∧
    (devH { hqeA with shutdown := true }).hqe.shutdown = true ∧ devA.hqe.perst = false ∧ devA.hqe.linkSpeed ≠ 0 := by decide

theorem wit_ResetsEnd :
    (let d : Dev := { hqe := { hqeA with resetBusy := true } }
     d.hqe.resetBusy = true ∧ d.mea.tasks.all (fun t => t.kind != .host) = true ∧ d.sec.activating = none) ∧
    (let d : Dev := { hqe := { hqeA with shutdown := true, pairs := [] } }
     d.mea.tasks.all (fun t => t.kind != .host) = true ∧ d.hqe.shutdown = true ∧ d.hqe.shutdownDone = false ∧
       hostAlive envA = true ∧ quiet d = true) ∧
    (devA.hqe.perst = false ∧ linkTrains envA = true ∧ loaderDead devA = false ∧ 5 ∈ [1, 3, 4, 5] ∧ 16 ∈ [1, 4, 8, 16]) ∧
    (({ pwA with resetStep := some (1, now - Config.second) } : Power).resetStep = some (1, now - Config.second) ∧
      now - Config.second + Config.second ≤ now ∧ devA.mea.tasks ≠ [] ∧ ({} : Dev).mea.tasks = [] ∧
      ({} : Dev).flt.held.all (fun h => h.settled {}) = true ∧ ({} : Dev).trl.recovering = true ∧
      ({ trl := { recovering := false } } : Dev).trl.recovering = false) ∧
    (∀ n ∈ [3, 4, 5], ({ pwA with resetStep := some (n, now) } : Power).resetStep = some (n, now)) ∧
    (ownWaiting envA devA = false ∧ now - 3 * Config.second + 3 * Config.second ≤ now) :=
  ⟨⟨rfl, rfl, rfl⟩, by decide, by decide, ⟨rfl, by decide, List.cons_ne_nil _ _, rfl, rfl, rfl, rfl⟩, by decide,
   by decide⟩

def runA : Run := { no := 0, amount := 4096, plain := List.replicate 4096 0 }
def heldA : Held :=
  { id := 4, opid := 0, hash := 0, version := 1, ksid := 0, opc := 1, objId := 7, bytes := 4096, runs := [runA], acked := some 1 }
theorem wit_HostSide :
    barAlive envA devA = true ∧ hostAlive envA = true ∧ devA.hqe.busMaster = true ∧ devA.hqe.perst = false ∧
    (let d := devH { hqeA with bmeHold := some (now - 25000000) }
     d.hqe.bmeHold = some (now - 25000000) ∧ now - 25000000 + 25000000 ≤ now) ∧
    (let d := devH { hqeA with busMaster := false }
     d.hqe.bmeHold = none ∧ d.hqe.busMaster = false) ∧
    (¬ (2 = 4 ∧ 0 % 4 = 0) ∧ ¬ (8 = 8 ∧ 4 % 8 = 0) ∧ ¬ (2 = 8 ∧ 0 % 8 = 0) ∧ ¬ (8 = 4 ∧ 4 % 4 = 0)) ∧
    (1 < 2 ∧ 2 ≤ 2) ∧
    (let a : Attn := { lastSignal := some (now - 250), pending := true }
     a.lastSignal = some (now - 250) ∧ a.pending = true ∧ now - 250 + 250 ≤ now) ∧
    (let d := { devA with flt := { held := [heldA] } }
     d.flt.held.find? (fun y => y.id == 4) = some heldA ∧ (touchedRun heldA d).1 = some runA) := by
  refine ⟨rfl, rfl, rfl, rfl, by decide, by decide, by decide, by decide, by decide, rfl, ?_⟩
  simp [touchedRun, heldA, Nat.mod_one]

theorem wit_RegisterWrites : let d := { devOf tA with hqe := { linkSpeed := 5, perst := false } }
    barAlive envA d = true ∧ d.hqe.enabled = false ∧
    (0x20 % 8 = 0 ∧ wideReg 0x400 = false ∧ 0x22 % 4 ≠ 0 ∧ 0x24 % 8 ≠ 0) ∧
    (0x17FFF8 % 8 = 0 ∧ 0x100000 ≤ 0x17FFF8 ∧ 0x17FFF8 < 0x180000 ∧ 0x17FFFC % 8 = 4 ∧ 0x17FFFC < 0x180000) := by decide

/-! ### Dispatch and key-value commands -/

/-- A host arrival of a user opcode served by program 5 with an entry whose EST is 7. -/
def arrU : Arrival := { no := 6, kind := .host, capsule := fields [(0, 0x80)], source := 3, group := 24, prio := 3, tick := now - 50 }
def devArr (a : Arrival) (hooks : List (Nat × Nat × Nat)) : Dev :=
  { hqe := hqeA, kdr := { ks := [(0, { exist := true })] }, bgv := { spare := 7 }, trl := { recovering := false }
    mea := { arrivals := [a], programs := [(5, { prog5 with hooks := hooks })]
             dispatch := [(0x80, { valid := true, user := true, nokey := true, wclass := 12, entry := 0x1800000, program := 5, est := 7 })] } }
def arrGet : Arrival := { arrU with capsule := cGet, key := List.replicate 16 0 }
theorem wit_ArrivalsAreDispatched :
    (∀ p ∈ [(arrU, ([] : List (Nat × Nat × Nat))), (arrGet, [(2, 0, 0x1800000)]), ({ arrU with hook := .placing }, [])],
      let d := devArr p.1 p.2
      let a := p.1
      let hash := arrivalHash a (entryOf d (capOpc a.capsule)).nokey
      d.mea.arrivals.find? (fun x => x.no == 6) = some a ∧ a.kind ≠ .internal ∧ a.kind ≠ .timer ∧ keyReady d a = true ∧
      orderOk d a = true ∧ epochOk d a hash = true ∧ activationOk d a = true ∧ heldTurn d a = true ∧
      (envA.pw.st = .active ∨ envA.pw.st = .recovery) ∧ envA.pw.resetStep = none ∧
      ctxFree d ⟨7, 63⟩ (a.kind == .loop) = true ∧ vatOk d ⟨7, 63⟩ a.group = true) ∧
    (let d := devArr arrU []
     gate d arrU = .go ∧ fits d (entryOf d 0x80).wclass (entryOf d 0x80).est = true ∧
      0x80 ≤ capOpc arrU.capsule) ∧
    (let d := devArr arrU []
     gate { d with mea := { d.mea with dispatch := [] } } arrU = .reject (scInvalidOpcode, 0)) ∧
    (∃ n p, gate (devArr arrGet [(2, 0, 0x1800000)]) arrGet = .hook n p ∧
      fits (devArr arrGet [(2, 0, 0x1800000)]) p.2.1.wclass 0 = true) ∧
    gate (devArr { arrGet with hook := .placing } []) { arrGet with hook := .placing } = .wait ∧
    epochOk (devArr arrU []) arrU 0 = true ∧
    activationOk { devArr arrU [] with sec := { activating := some (none, now - 60, 0) } } { arrU with kind := .act } = false := by
  refine ⟨?_, by decide +kernel, by decide +kernel,
    ⟨2, (5, { prog5 with hooks := [(2, 0, 0x1800000)] }, 0x1800000), by decide +kernel, by decide +kernel⟩, by decide +kernel,
    by decide +kernel, by decide +kernel⟩
  intro p h
  simp at h
  rcases h with rfl | rfl | rfl <;>
    exact ⟨rfl, by decide, by decide, by decide +kernel, by decide +kernel, by decide +kernel, by decide +kernel,
      by decide +kernel, by decide, rfl, by decide +kernel, by decide +kernel⟩

/-- The drive with task t that holds slot 9, whose object is o. -/
def oldObj : Obj := freshObj 7 0 0 [1, 2, 3, 4, 5]
def slotObj (o : Option Obj) : Slot :=
  { live := o.isSome, ksid := 0, key := [1], hash := 1, version := 4, objId := 7, obj := o, lock := some ⟨3, 1, 0, none⟩ }
def tCmd (c : V512) : Task := { tA with capsule := c, job := { lock := .held 9 }, sgl := [(0x4000, 16)] }
def devObj (t : Task) (o : Option Obj) : Dev :=
  { devOf t with hqe := hqeA, kdr := { slots := [(9, slotObj o)], ks := [(0, { exist := true, seq := 4 })] } }
def bs2 : Rd := .ok [7, 8]

/-- The fields of a capsule and whether its key has an object: every write, on a key with one; PUT and APPEND without. -/
abbrev writeCases : List (List (Nat × Nat) × Bool) :=
  [([(0, 0x01), (5, 1), (16, 2)], true), ([(0, 0x03), (5, 1)], true),
   ([(0, 0x05), (5, 1), (16, 2)], true), ([(0, 0x07), (5, 1), (16, 2), (24, 1)], true),
   ([(0, 0x08), (5, 1), (16, 2), (24, 1)], true), ([(0, 0x09), (5, 1), (16, 2), (24, 4)], true),
   ([(0, 0x09), (5, 1), (6, 1), (24, 4)], true), ([(0, 0x01), (5, 1), (16, 2)], false),
   ([(0, 0x05), (5, 1), (16, 2)], false)]
theorem wit_WritesTakeEffect :
    ∀ p ∈ writeCases,
      let c := fields p.1
      let t := tCmd c
      let o := if p.2 then some oldObj else none
      let d := devObj t o
      let cur := (slotObj o).current
      serving d ⟨3, 1⟩ (capOpc c) = some t ∧ t.job.phase = .start ∧ t.job.lock = .held 9 ∧ slotAt d 9 = some (slotObj o) ∧
      wornStops d c = false ∧ writeConds c cur = none ∧ (inboundLen c = 0 ∨ inboundLen c = 2) ∧ t.job.durable = false := by
  decide +kernel
theorem wit_WritesTakeEffect_room :
    ∀ p ∈ writeCases,
      let c := fields p.1
      let o := if p.2 then some oldObj else none
      let d := devObj (tCmd c) o
      let cur := (slotObj o).current
      let rg := writeRange c cur
      spaceFor d (growth c cur) = true ∧ streams envA c = false ∧ durableWrite envA c = false ∧ pieceCount rg.1 rg.2 = 1 ∧
      roomFor envA d (if capOpc c = 8 then punchBytes oldObj rg.1 rg.2 else rg.2) = true ∧ runAllowed d (capKsid c) 1 = true := by
  decide +kernel
theorem wit_WritesTakeEffect_data : fetchData (devObj (tCmd 0) none) (tCmd 0) 2 bs2 = .data [7, 8] ∧
    fetchData (devObj (tCmd 0) none) (tCmd 0) 0 bs2 = .data [] := ⟨rfl, rfl⟩

theorem wit_WritesStopAndGoOn :
    (let c := fields [(0, 0x01), (5, 1), (6, 2), (16, 2)]
     let t := tCmd c
     serving (devObj t none) ⟨3, 1⟩ 0x01 = some t ∧ t.job.phase = .start ∧
       wornStops { devObj t none with trl := { worn := true } } c = true ∧ wornStops (devObj t none) c = false ∧
       slotAt (devObj t none) 9 = some (slotObj none) ∧ writeConds c (slotObj none).current = some (scNotFound, 0) ∧
       writeConds c (slotObj (some oldObj)).current = none) ∧
    (let c := fields [(0, 0x01), (5, 1), (16, 4096)]
     let t := tCmd c
     let d := { devObj t none with kdr := { (devObj t none).kdr with reserved := Config.capacity } }
     serving d ⟨3, 1⟩ 0x01 = some t ∧ writeConds c (slotObj none).current = none ∧
       spaceFor d (growth c (slotObj none).current) = false ∧ spaceFor (devObj t none) (growth c (slotObj none).current) = true) ∧
    fetchData (devObj (tCmd 0) none) (tCmd 0) 4096 (.fail .poisoned) = .fail 0x10 ∧
    (let t : Task := { tCmd (fields [(0, 0x03), (5, 1)]) with job := {} }
     serving (devObj t none) ⟨3, 1⟩ 0x03 = some t ∧ t.job.lock = .none ∧ mayCreate t.capsule = false ∧
       writeConds t.capsule none = some (scNotFound, 0)) ∧
    (let t : Task := { tCmd (fields [(0, 0x01), (5, 1)]) with job := { phase := .media 0, heldIds := [4] } }
     serving (devObj t none) ⟨3, 1⟩ 0x01 = some t ∧ allSettled (devObj t none) t.job.heldIds = true ∧
       allSettled { devObj t none with flt := { held := [heldA] } } t.job.heldIds = false) := by
  decide +kernel
theorem wit_WritesStopAndGoOn_pieces :
    (let t : Task := { tCmd (fields [(0, 0x05), (5, 1)]) with job := { lock := .held 9, phase := .pieces 1, done := 1, total := 3, off := 4096, len := 2 ^ 21 } }
     let p := pieceAt t.job.off t.job.len t.job.done
     serving (devObj t none) ⟨3, 1⟩ 0x05 = some t ∧ p = (2 ^ 20, 2 ^ 20) ∧ roomFor envA (devObj t none) p.2 = true ∧
       ({ pwA with limitMib := 0 } : Power).limitMib = 0 ∧ ({ pwA with limitMib := 1 } : Power).limitMib ≠ 0 ∧
       roomFor { envA with pw := { pwA with limitMib := 1 } } { devObj t none with flt := { held := [heldA] } } p.2 = false) ∧
    (∀ k ∈ [4096, 2 ^ 21],
     let t : Task := { tCmd (fields [(0, 0x05), (5, 1)]) with
       job := { lock := .held 9, phase := .stream k, done := 1, total := 2, off := 0, len := 2 ^ 21, heldIds := [4] } }
     let p := pieceAt t.job.off t.job.len t.job.done
     let d := devObj t none
     serving d ⟨3, 1⟩ 0x05 = some t ∧ (p.1 + p.2 ≤ t.job.off + k ↔ k = 2 ^ 21) ∧ portionsDone d t.job.heldIds = true ∧
       portionsDone { d with flt := { held := [{ heldA with committed := false }] } } t.job.heldIds = false) ∧
    (let t : Task := { tCmd (fields [(0, 0x05), (5, 1)]) with job := { lock := .held 9, phase := .admission, done := 1, off := 4096, len := 2 ^ 21 } }
     let d := devObj t none
     commandOf d ⟨3, 1⟩ none = some t ∧ t.completed = false ∧ roomFor envA d (pieceNeed t d) = true ∧
       roomFor { envA with pw := { pwA with limitMib := 1 } } { d with flt := { held := [heldA] } } (pieceNeed t d) = false) ∧
    (let m : Member := { capsule := fields [(0, 0x01), (5, 1)], asked := true, job := { phase := .stream 4096, len := 2 ^ 33 } }
     let t : Task := { tCmd (fields [(0, 0x0E)]) with members := [m] }
     let d := devObj t none
     commandOf d ⟨3, 1⟩ (some 0) = some (memberTask t 0 m) ∧ (memberTask t 0 m).job.phase = .stream 4096 ∧
       (memberTask t 0 m).completed = false ∧ 0 < portion envA (2 ^ 33 - 4096) ∧
       regionBytes d + portion envA (2 ^ 33 - 4096) ≤ 8 * 2 ^ 30) := by
  decide +kernel
theorem wit_WritesStopAndGoOn_full : ∃ hs : List Held,
    8 * 2 ^ 30 < regionBytes { devObj (tCmd 0) none with flt := { held := hs } } + portion envA (2 ^ 33 - 4096) :=
  ⟨[{ heldA with runs := [{ runA with amount := 2 ^ 33 }] }], by decide +kernel⟩

/-- RETRIEVE, EXIST, RANGE_READ and ROI_READ under a held lock; a read that has data, one of an unrecoverable sheet. -/
def cRd (opc len : Nat) : V512 := fields [(0, opc), (5, 1), (16, len), (24, if opc = 6 then 2 else 0)]
def frameObj : Obj :=
  { objId := 7, len := 100, frame := some
      { ptype := 0, tileLog2 := 4, width := 1, height := 1
        frames := [{ mode := 0, param := 0, floorT := 0, fver := 4, user := 0, accTick := 0, pixels := [9], tiles := [⟨1, true, true⟩] }] } }
def badObj : Obj := { oldObj with bad := [0] }
/-- An object stored as one coded unit on media. -/
def codedObj : Obj := { oldObj with coded := [{ no := 0, sheets := 1, loc := .psa 81920, len := 4 }] }

theorem wit_ReadsAnswer :
    (∀ p ∈ [(2, oldObj, 16), (4, oldObj, 32), (6, oldObj, 2), (0x0D, frameObj, 1)],
      let t := tCmd (cRd p.1 p.2.2)
      let d := devObj t (some p.2.1)
      let y := slotObj (some p.2.1)
      let q := pinRead t (.slot 9) (4, p.2.1) d
      serving d ⟨3, 1⟩ p.1 = some t ∧ t.job.pin = none ∧ t.job.lock = .held 9 ∧ slotAt d 9 = some y ∧ y.current = some (4, p.2.1) ∧
        (match readOut t.capsule y.current with | .out outs _ => outs.isEmpty == false | .stop _ => false) = true ∧
        d.hqe.issues = true ∧ leasedPages d t.capsule p.2.1 = [] ∧
        (roiStage t.capsule p.2.1 = 0 ∨ stageNow q.2 q.1 true (roiStage t.capsule p.2.1) = true) ∧ t.kind ≠ .act ∧
        (needOf q.2 t.capsule p.2.1).bad = false ∧ (readPages envA q.1.job.psas [] q.2).1 = []) ∧
    (let t := tCmd (cRd 0x0D 1)
     let d := { devObj t (some frameObj) with flt := { waits := [⟨true, 2 ^ 28, ⟨4, 1⟩, false⟩] } }
     let q := pinRead t (.slot 9) (4, frameObj) d
     0 < roiStage t.capsule frameObj ∧ stageNow q.2 q.1 true (roiStage t.capsule frameObj) = false) ∧
    (let t := tCmd (cRd 2 16)
     let d := devObj t (some badObj)
     (needOf (pinRead t (.slot 9) (4, badObj) d).2 t.capsule badObj).bad = true) ∧
    (let d := { devObj (tCmd (cRd 2 16)) (some codedObj) with kdr := { (devObj (tCmd (cRd 2 16)) (some codedObj)).kdr with
       ks := [(0, { exist := true, encrypted := true })] } }
     let q := pinRead (tCmd (cRd 2 16)) (.slot 9) (4, codedObj) d
     (needOf q.2 (cRd 2 16) codedObj).coded = true ∧ (needOf q.2 (cRd 2 16) codedObj).bad = false ∧ (ksOf q.2 0).encrypted = true) ∧
    readOut (cRd 2 16) (slotObj none).current = .stop (scNotFound, 0) := by
  decide +kernel
theorem wit_ReadsAnswer_others :
    (let t := tCmd (cRd 2 16)
     (slotObj (some oldObj)).current = some (4, oldObj) ∧ oldObj.frame = none ∧ oldObj.bad = [] ∧ oldObj.len ≤ capLen t.capsule ∧
       t.kind = .host ∧ t.sgl = [(0x4000, capLen t.capsule)] ∧ capLen (cRd 2 4) < oldObj.len) ∧
    (let c := fields [(0, 0x0A), (16, 4096)]
     let t := tCmd c
     let d := devObj t (some oldObj)
     serving d ⟨3, 1⟩ 0x0A = some t ∧ d.hqe.issues = true ∧
       (scanList t.key (capLen c - 16) ((listSlots d 0 0).length + 1) 100 (listSlots d 0 0) [] 0).big = false ∧
       (scanList t.key 16 ((listSlots d 0 0).length + 1) 100 (listSlots d 0 0) [] 0).big = true) ∧
    (let t : Task := { tCmd (fields [(0, 0x0B)]) with arrNo := 1 }
     serving (devObj t none) ⟨3, 1⟩ 0x0B = some t ∧ (devObj t none).flt.held = [] ∧
       [heldA].any (fun h => (match h.acked with | some k => decide (k ≤ t.arrNo) | none => false) &&
         !h.settled { devObj t none with flt := { held := [heldA] } }) = true) := by
  decide +kernel

/-- A frame stream of one 1×1 frame of U8 in CAL3 (R176), in felt. -/
def tFrame : Task :=
  { tCmd (fields [(0, 0x0C), (5, 1), (16, 65)]) with
      job := { lock := .held 9, phase := .pieces 0, total := 1, len := 65, data := natLe 65 0x6400000000000000090000000000000000000000000000000000000000000000000000000000000000000000010000000100000001000000010003040048464b41 } }
/-- A group member PUT and a DELETE that is not one, 1-byte keys inline. -/
def bsBatch : List Byte := v512Bytes (fields [(0, 0x01), (1, 0x14), (5, 1), (16, 2), (32, 3)]) ++
  v512Bytes (fields [(0, 0x03), (1, 0x04), (5, 1), (32, 4)])
def tBatch : Task :=
  { tCmd (fields [(0, 0x0E), (6, 2), (16, 128), (24, 0x8000)]) with job := { lockDue := now + 1 } }
/-- A BATCH whose array has been read: a PUT and a GET under their locks, and a group member yet to go on. -/
def mPut : Member := { capsule := fields [(0, 0x01), (5, 1), (16, 2)], key := [3], asked := true, job := { lock := .held 9 } }
def mGet : Member := { capsule := fields [(0, 0x02), (5, 1), (16, 2)], key := [4], asked := true, job := { lock := .held 10 } }
def mGrp : Member := { mPut with group := true }
def tMembers (ms : List Member) : Task := { tBatch with members := ms }
def hdrFrame : FrameHdr := (frameValue tFrame).elim ⟨0, 0, 0, false, 0, 0, 0, 0, 0, 0, 0, 0, 0⟩ (·.1)
theorem wit_FramesAndBatches :
    (let d := devObj tFrame none
     envA.pw.limitMib ≠ 0 ∧ serving d ⟨3, 1⟩ 0x0C = some tFrame ∧ tFrame.job.phase = .pieces 0 ∧ tFrame.job.total = 1 ∧ tFrame.job.lock = .held 9 ∧
       slotAt d 9 = some (slotObj none) ∧ roomFor envA d tFrame.job.len = true ∧
       stageNow d tFrame false (fullTile hdrFrame) = true ∧ (frameValue tFrame).isSome = true ∧ tFrame.job.durable = false ∧
       runAllowed d 0 1 = true ∧ lossy hdrFrame.mode = true) ∧
    (let d := { devObj tBatch none with kdr := { ks := [(0, { exist := true })] } }
     serving d ⟨3, 1⟩ 0x0E = some tBatch ∧ tBatch.members = [] ∧
       fetchData d tBatch (64 * capOpts tBatch.capsule) (.ok bsBatch) = .data bsBatch ∧
       fetchData d tBatch (64 * capOpts tBatch.capsule) (.fail .ca) = .fail 0x04 ∧
       ((membersOf envA tBatch bsBatch [] 2 0 d).1.map (fun m => (capOpc m.capsule, m.group, m.verdict.isSome))) =
         [(0x01, true, false), (0x03, false, false)]) ∧
    (let t := tMembers [mPut, mGet, mGrp]
     let d := devObj t none
     taskOf d ⟨3, 1⟩ = some t ∧ t.ref = ⟨3, 1⟩ ∧
       (∀ m ∈ [mPut, mGet], m.group = false ∧ m.verdict = none ∧ m.asked = true ∧ quarantineMember d t m = none) ∧
       isRead (capOpc mPut.capsule) = false ∧ isRead (capOpc mGet.capsule) = true ∧
       mGrp.group = true ∧ mGrp.verdict = none) ∧
    (let t := tMembers [{ mPut with verdict := some (scOk, 0) }, { mGrp with verdict := some (scExists, 0) }]
     let d := devObj t none
     serving d ⟨3, 1⟩ 0x0E = some t ∧ t.members ≠ [] ∧ t.members.all (fun m => m.verdict.isSome) = true ∧ t.kind = .host ∧
       d.hqe.issues = true ∧ batchVerdict t.members = (scExists, BitVec.ofNat 64 (1 + 1 * 2 ^ 32))) := by
  decide +kernel

/-! ### Administration -/

def tAdm (opc sub : Nat) : Task := tCmd (fields [(0, opc), (6, sub), (16, 4096)])
def devAdm (t : Task) : Dev := { devOf t with hqe := hqeA }
theorem wit_ReportsAndSettings :
    (∀ p ∈ [(0x40, 0), (0x41, 1), (0x42, 2), (0x43, 3), (0x44, 1), (0x44, 2), (0x44, 15), (0x4E, 1), (0x53, 0)],
      serving (devAdm (tAdm p.1 p.2)) ⟨3, 1⟩ p.1 = some (tAdm p.1 p.2) ∧ (devAdm (tAdm p.1 p.2)).hqe.issues = true) ∧
    (featureOk {} true 2 1 = true ∧ featureOk {} true 2 2 = false ∧ ({} : Dev).sec.leaf < 2 ^ 40 ∧ ({} : Dev).adm.test = none) ∧
    (let c := fields [(0, 0x41), (6, 2), (7, 1), (16, 64), (24, 0)]
     let t := { tCmd c with source := 3 }
     let d := { devAdm t with hqe := { hqeA with deferred := [⟨0, 0, 1, 0, 1, 1, 0⟩] } }
     serving d ⟨3, 1⟩ 0x41 = some t ∧ cap c 6 1 = 2 ∧ bitOf c 56 = true ∧ t.kind = .host ∧ hostPosts d t = true ∧ consumed d c = 1) ∧
    (let a : Adm := { test := some (1, now - 86400 * 25000000), selftestH := 8760 }
     a.test = some (1, now - 86400 * 25000000) ∧ (1 ≤ 4 ∧ 4 ≤ 4) ∧ a.selftestH ≠ 0 ∧ envA.pw.st = .active ∧
       ({} : Dev).cpt.bypass = 0 ∧ ({ pwA with st := .dormant } : Power).st ≠ .active) ∧
    (let e : Env := { tick := 3600 * 25000000, pw := pwA }
     e.pw.main = true ∧ e.pw.st = .active ∧ e.pw.trans = .none ∧ 0 + 3600 * 1 ≤ opsecNow e) ∧
    86400 * 25000000 ≤ 86400 * 25000000 := by
  decide +kernel

/-- A program image (R405) of one word 0x00301196, bound to opcode 0x80; and one whose word is unassigned. -/
def imgGood : List Byte := natLe 84 0x301196000000000000000700000000000001800000000000000000000000000000000000000000000000000000000000000001dea5ac680000010c000000000001000000001000000000040005000150554b41
def imgBad : List Byte := natLe 84 0x70000000000000180000000000000000000000000000000000000000000000000000000000000000134893b6f0000010c000000000001000000001000000000040005000150554b41
def ksE : Keyspace := { exist := true, encrypted := true }
def devK (t : Task) (x : Keyspace) : Dev := { devAdm t with kdr := { ks := [(0, x)] } }
set_option maxRecDepth 20000 in
theorem wit_KeyspacesProgramsAndQueues :
    (∀ p ∈ [(0x4F, 0), (0x4F, 1), (0x50, 0), (0x51, 0), (0x52, 0), (0x52, 1), (0x49, 0), (0x4A, 5), (0x4B, 4), (0x4C, 3), (0x4D, 0),
        (0x4D, 1), (0x4D, 2)],
      serving (devK (tAdm p.1 p.2) ksE) ⟨3, 1⟩ p.1 = some (tAdm p.1 p.2) ∧ (tAdm p.1 p.2).job.phase = .start ∧
        fwBusy (devK (tAdm p.1 p.2) ksE) = false) ∧
    (ksE.exist = true ∧ ksE.encrypted = true ∧ ({} : Keyspace).exist = false ∧ ({} : Keyspace).deleting = false ∧
      ({} : Keyspace).encrypted = false ∧ lockedOut envA ksE = false ∧ lockedOut envA { ksE with lockout := some (now + 1) } = true) ∧
    (fetchData (devK (tAdm 0x52 0) ksE) (tAdm 0x52 0) 32 (.ok (natLe 32 0)) = .data (natLe 32 0)) ∧
    (imgReject imgBad = some (2, 80) ∧ imgReject imgGood = none ∧ hooksGranted (devK (tAdm 0x49 0) ksE) imgGood = true ∧
      heldByOther (devK (tAdm 0x49 0) ksE) imgGood = false ∧
      placement (devK (tAdm 0x49 0) ksE) imgGood = some (0x1800000, 0xA000000, 102 * 2 ^ 30) ∧
      tblGet (devK (tAdm 0x49 0) ksE).mea.programs (imgId imgGood) = none ∧ programBusy (devK (tAdm 0x49 0) ksE) 5 = false) ∧
    (fwBusy { devK (tAdm 0x49 0) ksE with sec := { pending := true } } = true ∧
      tblGet (devUser tA).mea.programs 5 = some prog5 ∧ prog5.unloading = false ∧ programBusy (devUser tA) 5 = false) ∧
    (pairOf devA 4 = none ∧ pairOf devA 3 = some pairA ∧ pairA.deleting = none ∧ pairBusy devA 3 = false) ∧
    (∀ w ∈ [⟨3, 1⟩, ⟨4, 1⟩],
      let t : Task := { tAdm 0x4C 3 with job := { phase := .waitDrive, total := 5 } }
      let p : Pair := { pairA with deleting := some w }
      let d := { devAdm t with hqe := { hqeA with pairs := [(3, p)] } }
      serving d ⟨3, 1⟩ 0x4C = some t ∧ pairBusy d 3 = false ∧ pairOf d 3 = some p ∧ (p.deleting = some t.ref ↔ w = ⟨3, 1⟩)) ∧
    (∀ ph ∈ [Phase.start, .waitDrive], ∀ rs ∈ [[], [(5, now)]],
      let t : Task := { tAdm 0x4D 1 with job := { phase := ph } }
      let d := { devAdm t with hqe := { hqeA with lease := { active := true, reads := rs } } }
      serving d ⟨3, 1⟩ 0x4D = some t ∧ d.hqe.lease.active = true ∧ d.hqe.lease.revoking = false ∧ t.job.phase = ph ∧
        d.hqe.lease.reads = rs ∧ t.job.asked = d.hqe.lease.gen.toNat) ∧
    (let t : Task := { tAdm 0x4D 1 with job := { phase := .waitDrive, asked := 1 } }
     let d := { devAdm t with hqe := { hqeA with lease := { active := true, gen := 2 } } }
     serving d ⟨3, 1⟩ 0x4D = some t ∧ d.hqe.lease.active = true ∧ t.job.phase = .waitDrive ∧
       t.job.asked ≠ d.hqe.lease.gen.toNat) ∧
    (leaseOk 1 (natLe 8 0x200000 ++ natLe 8 0x40000000) = true ∧ leaseOk 1 (natLe 8 0x200001 ++ natLe 8 0x40000000) = false ∧
      ({} : Lease).active = false ∧ ({ active := true } : Lease).active = true) ∧
    (now ≤ now ∧ now < now + 1) := by
  decide +kernel
theorem wit_Keyspaces_check : (∃ x : List Byte, checkOf 0 (ksrOf 0 [] (natLe 32 0)) = x) ∧
    ∃ x : List Byte, checkOf 0 (ksrOf 0 [] (natLe 32 0)) ≠ x := by
  refine ⟨⟨_, rfl⟩, List.replicate 17 0, fun h => ?_⟩
  have := congrArg List.length h
  simp only [checkOf, List.length_take, List.length_replicate] at this
  omega

/-- A firmware image without loader, of version 5, SVN 2 and 4 bytes of vendor code. -/
def devBuf : Dev := { devOf tA with sec := { buf := memStore [] 0 (natLe 46 0x4000010040000000000000000000000000000000200000000000000050000000149464b41), bufWords := List.range 3563 } }
theorem written_all (n : Nat) (h : n ≤ 14249) : written devBuf n = true := by
  simp only [written, devBuf, List.all_eq_true, List.mem_range, List.contains_iff_mem]
  intro w hw
  omega
theorem imageBad_none (d : Dev) (h : headerBad d = none) (h1 : bitOf d.sec.revoked (hdr d 44 1) = false)
    (h2 : ¬ hdr d 16 4 < d.sec.minSvn) (h3 : formatBad d = none) : imageBad d true = none := by
  simp [imageBad, h, h1, h2, h3]
/-- Every check of R414 passes; on an empty buffer the first fails. -/
theorem wit_FirmwareUpdate_commit : imageBad devBuf true = none ∧ imageBad {} true = some (1, 0) := by
  refine ⟨imageBad_none _ ?_ (by decide +kernel) (by decide +kernel) (by decide +kernel), by decide⟩
  have a := written_all 256 (by omega)
  have e : 256 + hdrBodyLen devBuf + 9893 = 14249 := by decide +kernel
  have b := written_all 14249 (by omega)
  unfold headerBad
  dsimp only
  rw [e, a, b]
  decide +kernel
def img2 : Image := { svn := 2, immediateOk := true, fmtWrite := 1 }
def secUp : Sec := { slots := #v[some {}, some img2], committed := some 1, minSvn := 2 }
theorem wit_FirmwareUpdate :
    (∀ p ∈ [(0x45, 0), (0x46, 0), (0x47, 0), (0x47, 1), (0x48, 0)],
      serving (devAdm (tAdm p.1 p.2)) ⟨3, 1⟩ p.1 = some (tAdm p.1 p.2) ∧ fwBusy (devAdm (tAdm p.1 p.2)) = false ∧
        cap (tAdm p.1 p.2).capsule 6 1 = p.2) ∧
    fetchData (devAdm (tAdm 0x45 0)) (tAdm 0x45 0) 4 (.ok [1, 2, 3, 4]) = .data [1, 2, 3, 4] ∧
    (activateRefused { sec := secUp } false = none ∧ activateRefused { sec := secUp } true = none ∧ ({} : Sec).committed = none ∧
      ({} : Sec).trial = none ∧ ({} : Sec).recovery = false ∧ fwBusy { sec := { pending := true } } = true ∧
      slotImage { sec := secUp } 1 = some img2) ∧
    (let d : Dev := { sec := { secUp with activating := some (none, now - 37500000, 600) } }
     swapState envA = true ∧ swapReady d none = true ∧ d.sec.fallingBack = false ∧ d.sec.committed = some 1 ∧
       candidateOk d 1 true = true ∧ candidateOk d 1 false = false ∧
       (oldTasks { d with mea := { tasks := [tA] } } none).isEmpty = false ∧ now - 37500000 + 37500000 ≤ now) ∧
    (let d : Dev := { sec := { secUp with trial := some 1, trialLeft := 400 } }
     d.sec.trial = some 1 ∧ trialLeftNow envA d = 0 ∧ d.sec.activating = none ∧ envA.pw.resetStep = none) ∧
    (({ st := .bringup, bringStep := 4 } : Power).st = .bringup ∧ ({} : Trl).recovering = true) := by
  decide +kernel
/-- A commit and a confirmation under way, each at every point its rows name. -/
theorem wit_FirmwareUpdate_steps :
    ((∀ k, (tAdm 0x46 0).job.phase ≠ .pieces k) ∧ (tAdm 0x48 0).job.phase ≠ .waitDrive ∧ ({} : Sec).trial = none ∧
      ({ trial := some 1 } : Sec).trial = some 1) ∧
    (let t : Task := { tAdm 0x46 0 with job := { phase := .pieces 1 } }
     let d := { devAdm t with sec := secUp }
     serving d ⟨3, 1⟩ 0x46 = some t ∧ t.job.phase = .pieces 1 ∧ slotImage d 1 = some img2) ∧
    (let t : Task := { tAdm 0x48 0 with job := { phase := .waitDrive } }
     ∀ n ∈ [2, 3, 4, 5], ∀ l ∈ [true, false], ∀ seq ∈ [0, 7],
       let d := { devAdm t with sec := { secUp with slots := #v[some {}, some { img2 with loader := l }], confirming := some (1, n, seq) } }
       serving d ⟨3, 1⟩ 0x48 = some t ∧ t.job.phase = .waitDrive ∧ d.sec.confirming = some (1, n, seq) ∧
         slotImage d 1 = some { img2 with loader := l } ∧ (d.trl.jDurable < seq ↔ seq = 7)) := by
  refine ⟨⟨?_, by decide, rfl, rfl⟩, by decide +kernel, by decide +kernel⟩
  intro k h
  cases h

/-! ### Chain ports and transport -/

def portUp : Port := { link := true, fecLock := true }
def cptUp : Cpt := { bypass := 1, ports := Vector.replicate 2 portUp }
def devUp : Dev := { cpt := cptUp }
/-- A frame from station 1 with an EtherType and 46 bytes or more after it. -/
def mkFrame (dst : Nat) (etype : Nat) (pay : List Nat) : FrameIn :=
  { bytes := natBe 6 dst ++ natBe 6 1 ++ natBe 2 etype ++ pay.map (BitVec.ofNat 8) ++ List.replicate (46 - pay.length) 0
    fcsOk := true, stomped := false, preemptable := false, mergeErr := none, linkFails := false, respond := false }
/-- The drive's own address on the wire. -/
def ownAddr : Nat := stationNum devUp.cpt.station

/-- A multicast frame, a pause, an unknown control frame, one for 01-80-C2-00-00-0E, one of ACT and one of another type for
the station; 9,216 bytes with the FCS, the longest. -/
theorem wit_FramesAreForwarded_rows :
    (∀ x ∈ [(mkFrame 0x333300000001 0x86DD [], FrameRow.forward), (mkFrame 0x0180C2000001 0x8808 [0, 1], .pause),
        (mkFrame 0x0180C2000001 0x8808 [0, 2], .macctl), (mkFrame 0x0180C200000E 0x88CC [], .linkLocal),
        (mkFrame ownAddr 0x88B5 [], .station), (mkFrame ownAddr 0x0800 [], .station)],
      (portOf devUp 1).link = true ∧ devUp.cpt.bypass = 1 ∧ x.1.respond = false ∧
        badFrame envA 1 x.1 (portCount 1 0 devUp) = none ∧ frameRow devUp x.1.bytes (frameHead x.1.bytes) = x.2) ∧
    (let f := mkFrame 0x333300000001 0x86DD []
     forwards devUp = true ∧ vget (portOf devUp 0).storm 0 none = none ∧ rxPrio portUp (frameHead f.bytes) = 0 ∧
       egressRoom (portCount 1 0 devUp) 1 0 (f.bytes.length + 4) = true) ∧
    (let d := portCount 1 0 devUp
     actFrame d (portOf d 1) (frameHead (mkFrame ownAddr 0x88B5 []).bytes) = true ∧ envA.pw.st ≠ .dormant ∧
       actFrame d (portOf d 1) (frameHead (mkFrame ownAddr 0x0800 []).bytes) = false) := by
  decide +kernel

theorem wit_FramesAreForwarded_others :
    (let d : Dev := { devUp with cpt := { cptUp with ports := #v[{ portUp with pausedUntil := Vector.replicate 8 (some (now + 1)) }, portUp] } }
     let f := { mkFrame 0x333300000001 0x86DD [] with fcsOk := false }
     (portOf d 1).link = true ∧ d.cpt.bypass = 1 ∧ f.respond = false ∧ f.mergeErr = none ∧ f.linkFails = false ∧
       60 ≤ f.bytes.length ∧ f.bytes.length ≤ 9212 ∧ f.stomped = false ∧ startedOn envA 1 0 f d = false) ∧
    ((portOf ({} : Dev) 1).link = false ∧ ({} : Dev).cpt.bypass ≠ 1) ∧
    (let e (k : Option Nat) : EFrame := { bytes := [], from? := k, prio := 7, tick := 0 }
     ∀ k ∈ [none, some 0], nextFrame envA (forwardHeld devUp) { portUp with egress := [e k] } = some (e k)) ∧
    (∀ u ∈ [now, now + 1], vget ({ portUp with pausedUntil := Vector.replicate 8 (some u) } : Port).pausedUntil 7 none = some u) ∧
    (let f : EFrame := { bytes := List.replicate 300 0, from? := some 1, prio := 3, tick := 0 }
     let d : Dev := { devUp with cpt := { cptUp with
       ports := #v[{ portUp with egress := [f] }, { portUp with thr := 0, xoff := Vector.replicate 8 (some (now - 500)) }] } }
     vget (portOf d 1).xoff 3 none = some (now - 500) ∧ xonBytes (portOf d 1) < heldFrom d 1 3 ∧ (portOf d 1).link = true) ∧
    (let f : EFrame := { bytes := [], from? := some 1, prio := 0, tick := 0 }
     let x : Port := { portUp with egress := [f], pausedUntil := Vector.replicate 8 (some (now + 1)),
                                   pausedSince := Vector.replicate 8 (some (now - 2500000)) }
     vget x.pausedSince 0 none = some (now - 2500000) ∧ pausedNow envA x 0 = true ∧
       x.egress.filter (fun y => y.prio == 0) ≠ [] ∧ now - 2500000 + stormTicks x ≤ 250 * (now / 250) ∧ vget x.storm 0 none = none) ∧
    (let x : Port := { portUp with storm := Vector.replicate 8 (some (now - 9000000)), lastPause := Vector.replicate 8 (now - 5000000) }
     vget x.storm 0 none = some (now - 9000000) ∧ vget x.lastPause 0 0 + recoverTicks x ≤ now) := by
  decide +kernel

/-- The drive whose chain ports are c. -/
def devCpt (c : Cpt) : Dev := { cpt := c }
theorem wit_LinksRingAndSwitch :
    ((portOf (devCpt { bypass := 1 }) 1).link = false ∧ ({ bypass := 1 } : Cpt).op ≠ .removing ∧ ({ bypass := 1 } : Cpt).cmds = []) ∧
    ((portOf (devCpt { ports := Vector.replicate 2 { verify := 1, verifyAt := now - 750000 } }) 1).verify = 1 ∧
      now - 750000 + 750000 ≤ now) ∧
    (cptUp.probeMs ≠ 0 ∧ cptUp.lastProbe + probeTicks devUp ≤ now) ∧
    (let d := devCpt { cptUp with ownProbe := some (now - 7499999), lowerProbe := some (now - 7500000) }
     d.cpt.ringOpen = false ∧ ringSeen envA d = true ∧ recent envA d d.cpt.lowerProbe = false) ∧
    (let d := devCpt { cptUp with ownProbe := some (now - 7500000), ringOpen := true }
     d.cpt.ringOpen = true ∧ ringSeen envA d = false) ∧
    (∀ op ∈ [ChainOp.selftest, .inserting, .removing], (devCpt { op := op }).cpt.op = op) ∧
    (let d := devCpt { cptUp with op := .locking (now - 5000000) }
     d.cpt.op = .locking (now - 5000000) ∧ (portOf d 0).link = true ∧ (portOf d 1).link = true ∧
       (portOf { d with cpt := { d.cpt with ports := #v[portUp, {}] } } 1).link = false) ∧
    (let d := devCpt { bypass := 2, op := .inserting, hold := true, opTick := now - 750000 }
     d.cpt.op = .inserting ∧ d.cpt.opTick + 750000 ≤ now ∧ d.cpt.sensed ≠ d.cpt.hold) ∧
    (({ pwA with aux12 := true, main := true } : Power).aux12 = true) ∧
    (∀ a ∈ [0, 1, 2], let t : Task := { tA with capsule := fields [(0, 0x54), (6, a)] }
     serving (devOf t) ⟨3, 1⟩ 0x54 = some t ∧ ((devOf t).mea.tasks.takeWhile (fun y => y.ref != t.ref)).any (fun y =>
       capOpc y.capsule == 0x54 && !y.completed && y.job.phase == .start && y.kind != .hook) = false ∧
       t.job.phase = .start ∧ t.kind ≠ .act ∧ cap t.capsule 6 1 = a) ∧
    (let c : ChainCmd := { task := some ⟨3, 1⟩, action := 2, port := 1, since := now - 5000000, started := true }
     let d := devCpt { bypass := 1, cmds := [c] }
     d.cpt.cmds = [c] ∧ c.started = true ∧ c.action = 2 ∧ c.since + 5000000 ≤ now ∧ (portOf d c.port).link = false) := by
  decide +kernel

/-- A message of flow 5 of client 1, the sender's flow 9: KIND, HFLAGS, SEQ, ACK, CID, DOFF and payload. -/
def msg5 (kind flags seq ack cid doff : Nat) (pay : List Byte) : ActMsg :=
  { port := 1, src := 1
    bytes := natBe 1 1 ++ natBe 1 kind ++ natBe 2 flags ++ natBe 2 5 ++ natBe 2 9 ++ natBe 4 seq ++
      natBe 4 ack ++ natBe 4 0 ++ natBe 2 pay.length ++ natBe 2 cid ++ natBe 8 doff ++ pay }
def flow5 : Flow :=
  { client := 1, sflow := 9, isn := 0, port := 1, pcp := 3, group := 2, rxNext := 0xFFFFFFFF, rxWin := 2, txNext := 0, txWin := 4 }
def st5 : Stream := { cid := 7, need := 64, have_ := 60, since := now - 250000000, arr := none }
def sent5 : Unacked := { seq := 0xFFFFFFFE, kind := 7, cid := 7, doff := 0, last := true, payload := [] }
def dev5 (fl : Flow) (rx : List ActMsg) : Dev :=
  { devUp with xpt := { flows := [(5, fl)], rx := rx }
               mea := { dispatch := [(0x80, { valid := true, user := true, nokey := true, wclass := 12, est := 7 })] } }
/-- The first step of the wheel that serves slot 6 (R278). -/
def serve5 : Env := { envA with tick := 250 * (7 * (now / 1750) + 12) }
/-- A user command without key or value; 0x81 has no entry. -/
def cUser (opc : Nat) : List Byte := v512Bytes (fields [(0, opc)])

/-- An OPEN without tokens, and one whose group is 4,096. -/
def open5 (group : Nat) : ActMsg :=
  { port := 1, src := 1
    bytes := natBe 1 1 ++ natBe 1 1 ++ natBe 2 0 ++ natBe 2 0xFFFF ++ natBe 2 10 ++ natBe 4 70 ++ natBe 8 0 ++ natBe 2 16 ++
      natBe 10 0 ++ natLe 2 group ++ List.replicate 14 0 }
set_option maxRecDepth 20000 in
theorem wit_FlowMessages_opens :
    (let d := dev5 flow5 []
     ∀ g ∈ [4095, 4096], (hdrOf (open5 g).bytes).kind = 1 ∧ d.xpt.flows.find? (fun y => y.2.client == (open5 g).src &&
       y.2.sflow.toNat == (hdrOf (open5 g).bytes).sflow) = none) ∧
    (openStatus (dev5 flow5 []) 1 (hdrOf (open5 4095).bytes)).1 = scOk ∧
    (openStatus (dev5 flow5 []) 1 (hdrOf (open5 4096).bytes)).1 = scInvalidField := by
  decide +kernel

/-- The message comes next in sequence and acknowledges nothing. -/
def Next5 (m : ActMsg) : Prop :=
  let h := hdrOf m.bytes
  (dev5 flow5 [m]).xpt.rx = [m] ∧ flowOf (dev5 flow5 [m]) h.dflow = some flow5 ∧ h.dflow = 5 ∧ flow5.client = m.src ∧
    flow5.sflow.toNat = h.sflow ∧ h.ackValid = false ∧ h.seq = flow5.rxNext ∧ seqBefore h.seq flow5.rxWin = true

theorem wit_FlowMessages_sequence :
    (Next5 (msg5 3 0 0xFFFFFFFF 0 0 0 []) ∧ Next5 (msg5 6 0 0xFFFFFFFF 0 7 60 [1, 2, 3, 4]) ∧ Next5 (msg5 8 0 0xFFFFFFFF 0 0 0 []) ∧
      Next5 (msg5 10 0 0xFFFFFFFF 0 0 0 [])) ∧
    (∀ x ∈ [(0x80, false), (0x81, true)],
      let m := msg5 5 0 0xFFFFFFFF 0 7 0 (cUser x.1)
      let h := hdrOf m.bytes
      let c := bytesV512 (slice h.payload 0 64)
      let d := acceptSeq envA 5 (updFlow 5 (fun f => { f with port := m.port })
        (updFlow 5 (fun f => { f with lastRx := now }) (dev5 flow5 [])))
      (flowOf (dev5 flow5 [m]) 5 = some flow5 ∧ h.kind = 5 ∧ h.seq = flow5.rxNext ∧ h.payload.length = 64 ∧ h.doff = 0 ∧
        streamKey c + streamData c = 0) ∧ (checkEntry d { kind := .act, id := 5 } c).isSome = x.2) ∧
    (let h := hdrOf (msg5 6 0 0xFFFFFFFF 0 7 60 [1, 2, 3, 4]).bytes
     st5.cid.toNat = h.cid ∧ st5.have_ = h.doff ∧ st5.have_ + h.payload.length ≤ st5.need ∧ flow5.stream = none) ∧
    (∀ x ∈ [(0, false), (1, true)], let h := hdrOf (msg5 8 1 0 x.1 0 0 []).bytes
     h.kind = 8 ∧ h.ackValid = true ∧ seqBefore (firstUnsent flow5) h.ack = x.2) := by
  refine ⟨by unfold Next5; decide +kernel, by decide +kernel, by decide +kernel, by decide +kernel⟩

theorem wit_FlowMessages_timers :
    (let f := { flow5 with closing := true }
     flowOf (dev5 f []) 5 = some f ∧ f.closing = true ∧ f.unacked = [] ∧ f.queue = [] ∧ f.inbound = [] ∧ f.stream = none) ∧
    ({ flow5 with ackSince := some (now - 500) } : Flow).ackSince = some (now - 500) ∧
    (∀ n ∈ [6, 7], let f := { flow5 with rtoDue := some now, unacked := [sent5], retries := n }
      let x := portOf (dev5 f []) f.port
      flowOf (dev5 f []) 5 = some f ∧ (f.retries + 1 < xptRetryMax (dev5 f []) ↔ n = 6) ∧ now ≤ 250 * (serve5.tick / 250) ∧
        (List.range 8).any (stormDue serve5 x) = false ∧ slotServed serve5 x f.pcp (1 + 5 % 7) = true) ∧
    (let f := { flow5 with rtoDue := some (now + 251) }
     flowOf (dev5 f []) 5 = some f ∧ 250 * (now / 250) < now + 251) ∧
    (xptIdleS (dev5 flow5 []) ≠ 0 ∧ flow5.lastRx + xptIdleS (dev5 flow5 []) * 25000000 ≤ now) ∧
    (st5.since + 250000000 ≤ now ∧ st5.arr = none) ∧
    (let f := { flow5 with attnDue := true, lastAttn := some (now - 1) }
     f.attnDue = true ∧ ∀ y, f.lastAttn = some y → y / 25000 < now / 25000) := by
  refine ⟨by decide +kernel, rfl, by decide +kernel, by decide +kernel, by decide +kernel, by decide +kernel, rfl, ?_⟩
  rintro y h
  cases h
  decide

/-! ### Power, the governor, the blower and the management bus -/

/-- A power state with main power. -/
def pwOf (st : PState) : Power := { pwA with st := st }
def bringOf (n : Nat) : Power := { pwA with st := .bringup, bringStep := n }
def held1 : Dev := { hqe := { enableHeld := true, admSize := 0xFF00FF } }
/-- A drive whose slot 0 and slot 1 hold no image. -/
def noImage : Dev := { sec := { conf := 0 } }
theorem wit_MainPower :
    (∀ st ∈ [PState.off, .drain], ({ pwOf st with main := false } : Power).main = false ∧ (pwOf st).st = st) ∧
    (∀ l ∈ [true, false], ({ pwOf .off with loopOpen := l, main := false } : Power).loopOpen = l ∧ (pwOf .off).loopActed = false) ∧
    (∀ n ∈ [1, 2, 3, 4, 5, 6, 7], (bringOf n).st = .bringup ∧ (bringOf n).resetStep = none ∧ (bringOf n).trans = .none ∧
      (bringOf n).bringStep = n) ∧
    (let p : Power := { pwOf .off with aux33 := false, auxAlt := false, slot33 := false }
     p.st = .off ∧ p.aux33 = false ∧ p.auxAlt = false ∧ p.slot33 = false) ∧
    bitOf ({} : Dev).attn.holding 1 = false ∧
    (∀ b, ({ bringOf 5 with recovered := b } : Power).recovered = b ∧ ({ bringOf 6 with measured := b } : Power).measured = b) ∧
    ((bootSelect { envA with pw := bringOf 3 } (fun _ => true) State.reset.dev).sec.recovery = false ∧
      (bootSelect { envA with pw := bringOf 3 } (fun _ => false) State.reset.dev).sec.recovery = true) ∧
    (held1.hqe.enableHeld = true ∧ held1.hqe.resetBusy = false ∧ fld held1.hqe.admSize 0 12 ≠ 0) ∧
    (({ pwA with bringStep := 8 } : Power).st = .active ∧ pwA.main = true) ∧
    (({ pwOf .retention with aux33 := false, auxAlt := false } : Power).aux33 = false ∧ (pwOf .retention).aux33 = true) ∧
    (∀ b, ({ pwOf .drain with mainBack := b } : Power).mainBack = b) ∧
    ((pwOf .retention).st = .retention ∧ ({ pwOf .retention with main := false } : Power).main = false) ∧
    ¬ ((pwOf .retention).st = .retention ∧ (pwOf .retention).main = false) := by
  decide +kernel

theorem wit_DormantAndRetention :
    (pwA.st = .active ∧ pwA.trans = .none ∧ pwA.resetStep = none ∧ enteringRetention pwA = false) ∧
    (pwOf .recovery).st ≠ .active ∧ (pwOf .recovery).st ≠ .dormant ∧
    hostAlive { tick := now, pw := { pwA with trans := .dormant } } = true ∧
    (hostAlive { tick := now, pw := pwOf .dormant } = true ∧ (pwOf .dormant).trans = .none) ∧
    (({ pwA with trans := .dormant } : Power).trans = .dormant ∧ quiet devUp = true) ∧
    (({ pwOf .dormant with trans := .wakeup } : Power).trans = .wakeup) ∧
    (devUp.mea.tasks.all (fun t => !cmdKind t.kind) = true ∧
      devUp.mea.arrivals.all (fun a => a.kind != .host && a.kind != .loop) = true ∧
      devUp.flt.held.all (fun h => h.settled devUp) = true ∧ devUp.cpt.bypass ≠ 3 ∧ devUp.xpt.flows = [] ∧
      (dev5 flow5 []).xpt.flows ≠ [] ∧ ownWaiting envA devUp = false ∧ devUp.trl.recovering = true) ∧
    (∀ th, ({ pwA with trans := .retention th } : Power).trans = .retention th ∧ pwA.wakeKept = none) ∧
    (let p : Power := { pwOf .retention with holdUntil := some now }
     p.st = .retention ∧ p.main = true ∧ enteringRetention p = false ∧ ∀ t, p.holdUntil = some t → t ≤ now) ∧
    (∀ b, ({ hqe := { perst := b } } : Dev).hqe.perst = b) := by
  refine ⟨by decide +kernel, by decide, by decide, by decide, by decide, by decide +kernel, by decide, by decide +kernel,
    fun th => ⟨rfl, rfl⟩, ⟨rfl, rfl, rfl, ?_⟩, fun b => rfl⟩
  rintro t h
  cases h
  decide

/-- V0 35.0 V and V1 34.2 V give E = 27,025 mJ and the limit of 6,720 MiB; V0 13.0 V and V1 12.9 V give 5,000 mJ, less than
256 MiB. -/
theorem wit_HoldupAndAlarms :
    (measDue { tick := now, pw := { pwA with main := true, measStart := true } } = true ∧
      measDue { tick := now, pw := { pwA with measuring := some (now - 525000) } } = false) ∧
    (∀ p ∈ [(35000, 34200, 27025, 6720), (13000, 12900, 5000, 320), (12500, 12400, 2450, 0)],
      p.2.1 < p.1 ∧ (p.1 * p.1 - 144000000) / (50 * (p.1 - p.2.1)) = p.2.2.1 ∧
      min 8192 (64 * ((p.1 * p.1 - 144000000 - 190000 * (p.1 - p.2.1)) * 100 / (1100800 * (p.1 - p.2.1)))) = p.2.2.2) ∧
    (256 ≤ 6720 ∧ 0 < 256) ∧
    (rdmOn envA = true ∧
      rdmOn { envA with pw := { pwA with st := .off, main := false, aux33 := false, auxAlt := false, slot33 := false } } = false ∧
      devUp.sec.eraseArm = false ∧ ({ sec := { eraseArm := true } } : Dev).sec.eraseArm = true) ∧
    (governs envA = true ∧ (∀ p ∈ [([now - 3, now - 2], true), ([now - 3, now - 2, now - 24999999], false)],
      decide ((now :: p.1.filter (fun t => now < t + Config.second)).length < 4) = p.2)) ∧
    (pwA.main = true ∧ (15 : Nat) < 16 ∧ (1840 : Int) ≤ 1840 ∧ governs { tick := now, pw := pwOf .drain } = true ∧
      enteringRetention pwA = false) := by
  decide +kernel

def devBgv (b : Bgv) : Dev := { bgv := b }
set_option maxRecDepth 20000 in
theorem wit_Governor :
    (governs envA = true ∧ ({ window := now / 25000 - 1 } : Bgv).window < now / 25000 ∧
      now / 25000 ≤ ({ window := now / 25000 } : Bgv).window) ∧
    (hostAlive envA = true ∧ ({} : Bgv).cap = 240 ∧ ({} : Bgv).capInForce ≤ 511 ∧ fld (239 : W32) 0 9 < ({} : Bgv).capInForce) ∧
    (∀ n ∈ [0x8000000C, 0x80000000, 0x8000000B], bitOf (BitVec.ofNat 32 n) 31 = true) ∧ 11 < fld (0x8000000C : W32) 0 4 ∧
    (groupOf (devBgv {}) 24).vat = 0 ∧ fld (0x80000000 : W32) 0 4 = 0 ∧ (groupOf (devBgv {}) 24).vat ≠ fld (0x8000000B : W32) 0 4 ∧
    (groupOf (devBgv {}) 24).draining = false ∧
    (groupOf (updGroup 24 (fun x => { x with draining := true }) (devBgv {})) 24).draining = true ∧
    (let b : Bgv := { lastStep := now - 250, vcore := 60, setpoint := 50 }; b.lastStep + 250 ≤ now ∧ b.vcore ≠ b.setpoint) ∧
    ({ vcore := 50, setpoint := 50 } : Bgv).vcore = ({ vcore := 50, setpoint := 50 } : Bgv).setpoint ∧
    ((75 : Nat) < 76 ∧ 75 ∉ ({} : Bgv).failed ∧ sensorGroup 75 = 5) ∧
    sensorGroup 0 ≠ 5 ∧
    (∀ x ∈ [((1000 : Int), true), (2000, false)], let unread := devBgv { temps := (List.replicate 76 none).set 1 (some x.1) }
     decide ((hottest { unread with bgv := { unread.bgv with failed := [0] } } 0).2 <
       16 * ((vget unread.bgv.tg 0 (tgroupDefault 0)).hard : Int)) = x.2) ∧
    (({} : Bld).healthy = false ∧ ({} : Bgv).blowerFault = false) := by
  decide +kernel

def bldIn (b : Bld) : Dev := { bld := b }
theorem wit_BlowerStarts :
    bldAlive envA (bldIn {}) = true ∧
    (∀ st ∈ [BldSt.off, .test, .sense, .brake, .align, .ramp, .wait, .coast, .run], (bldIn { st := st }).bld.st = st) ∧
    (chopperResult 3000 10 12000 = 1 ∧ chopperResult 10 10 12000 ≠ 1) ∧
    (∀ r ∈ [(3000, 99, 1), (0, 99, 2), (3000, 100, 3)], chopperResult r.1 r.2.1 12000 = r.2.2) ∧
    ((299 : Nat) < 300 ∧ 1500 ≤ 1500 ∧ 300 ≤ 1499 ∧ 1499 < 1500 ∧ (499 : Nat) < 500) ∧
    (let b : Bld := { st := .sense, since := now - 50 * Config.ms }
     b.since + 50 * Config.ms ≤ now ∧ now < ({ b with since := b.since + 1 } : Bld).since + 50 * Config.ms) ∧
    (let b : Bld := { st := .ramp, since := now - 520 * Config.ms, unlockAt := some (now - 20 * Config.ms) }
     b.lockEff ≤ 0xFF ∧ b.since + 500 * Config.ms ≤ now ∧ now ≤ b.since + 520 * Config.ms ∧
       b.unlockAt = some (now - 20 * Config.ms) ∧ now - 20 * Config.ms + 20 * Config.ms ≤ now ∧
       now < ({ b with since := now } : Bld).since + 500 * Config.ms) ∧
    (36 ≤ crossings (now - (now - 250 * Config.ms)) ∧ crossings (240 * Config.ms) < 36 ∧
      now - 520 * Config.ms + 520 * Config.ms ≤ now) ∧
    (∀ b, (bldIn { restart := b }).bld.restart = b) ∧
    (now - 3 * Config.second + 3 * Config.second ≤ now ∧ now - 200 * Config.ms + 200 * Config.ms ≤ now ∧
      now < now - 200 * Config.ms + 1 + 200 * Config.ms) ∧
    (({} : Bld).lockEff ≤ 0xFF ∧ 0 < ({} : Bld).lockEff) ∧ ({ attempts := 1 } : Bld).attempts < 2 ∧
    2 ≤ ({ attempts := 2 } : Bld).attempts ∧ ({ retryAt := now } : Bld).retryAt ≤ now ∧
    now < ({ retryAt := now + 1 } : Bld).retryAt ∧
    (({ st := .coast } : Bld).ov = none ∧ 0 ≤ ({ st := .coast } : Bld).demand) ∧
    (let b : Bld := { st := .run, demand := 10000, since := now - Config.second, fastAt := some (now - Config.second) }
     100 * 8499 < 85 * b.demand ∧ 6000 ≤ 6000 ∧ b.since + Config.second ≤ now ∧ b.fastAt = some (now - Config.second) ∧
       now - Config.second + Config.second ≤ now) := by
  decide +kernel

theorem wit_RotorAndBus :
    bldAlive envA (bldIn { st := .run }) = true ∧
    0 < ({} : Bld).lossEff ∧ (11500 + 500 ≤ 12000 ∧ 11999 < 11500 + 500) ∧ ({} : Bld).lossEff ≤ 255 ∧
    (let b : Bld := { st := .coast, since := now - 9000000, heldAt := some (now - 2 * Config.ms) }
     (b.st = .run ∨ b.st = .coast) ∧ b.heldAt.getD b.since + 2 * Config.ms ≤ now ∧
       now < ({ b with heldAt := some now } : Bld).heldAt.getD b.since + 2 * Config.ms) ∧
    (∀ b, ({ st := .asc, ovAsc := b } : Bld).ovAsc = b) ∧
    (envA.pw.st ≠ .off ∧ envA.pw.st ≠ .retention ∧ ¬ ((pwOf .off).st ≠ .off ∧ (pwOf .off).st ≠ .retention)) ∧
    (let b : Bld := { st := .lost, since := now - 10 * Config.ms, declared := some (now - 300 * Config.ms), unlockAt := some (now - 10 * Config.ms) }
     b.since + 10 * Config.ms ≤ now ∧ (∀ t, b.unlockAt = some t → t + 10 * Config.ms ≤ now) ∧ b.declared = some (now - 300 * Config.ms) ∧ b.lockEff ≤ 255 ∧ now ≤ now - 300 * Config.ms + 300 * Config.ms ∧
       now - 300 * Config.ms + 300 * Config.ms ≤ now) ∧
    (({} : Bld).ov = none ∧ (13200 : Nat) ≤ 13200 ∧ 14000 < 14001 ∧ 13200 < 13201 ∧ 12599 < 12600) ∧
    (∀ st ∈ [BldSt.off, .fault, .run, .align, .ramp, .brake], (bldIn { st := st }).bld.st = st) ∧
    (let b : Bld := { st := .asc, ovAsc := true, since := now - 300 * Config.ms, ov := some ⟨2, 14001, 0, none⟩ }
     b.ov.isSome = true ∧ b.ovBack = none ∧ b.ovReported = false ∧ b.stopping = false ∧ b.since + 300 * Config.ms ≤ now) ∧
    (let b : Bld := { st := .run, demand := 10000, since := now - Config.second, faultAt := some 3 }
     85 * b.demand ≤ 100 * 8500 ∧ b.lockEff ≤ 255 ∧ b.since + Config.second ≤ now ∧ b.faultAt = some 3 ∧ b.unfitAt = none) := by
  refine ⟨by decide, by decide, by decide, by decide, by decide, by decide, by decide, ⟨by decide, ?_, by decide⟩, by decide,
    by decide +kernel, by decide, by decide⟩
  rintro t h
  cases h
  decide

theorem wit_ManagementBus :
    rdmOn envA = true ∧
    (let d : Dev := { mg := Vector.replicate 2 { page := 1 } }
     rstat envA d 1 0x11000 false = 0 ∧ rstat envA d 1 0x11002 false ≠ 0 ∧ rstat envA d 0 0x14 false = 0 ∧
       hostOwned 0x10 = true ∧ rstat envA d 0 0x10 false = 0 ∧ hostOwned 0x11000 = false) ∧
    (∀ st ∈ [PState.retention, .active], (pwOf st).st = st ∧ enteringRetention (pwOf st) = false) ∧
    (0x5C#8) ≠ 0x5D ∧ (0#8) ≠ 1 := by
  decide +kernel

/-- A queue of two, and an empty one. -/
theorem wit_StepTakesFront :
    ({ pending := [.reqDormant, .xtalFault 9] } : State).pending = .reqDormant :: [.xtalFault 9] ∧ ({} : State).pending = [] :=
  ⟨rfl, rfl⟩

/-- REQ_DORMANT at an ACTIVE drive. -/
theorem wit_PowerInvariant :
    let s : State := { env := envA, pending := [.reqDormant] }
    PowerOk s.env.pw ∧ ∃ t, step s = .next t := by
  refine ⟨⟨by decide, by decide, by decide, by decide⟩, ?_⟩
  exact ⟨_, rfl⟩
theorem wit_PowerStateMoves : ∃ s t : State, PowerOk s.env.pw ∧ step s = .next t :=
  ⟨{ env := envA, pending := [.reqDormant] }, wit_PowerInvariant.2.imp fun _ h => ⟨wit_PowerInvariant.1, h⟩⟩

/-- The word of a BEQ, and a word that stands for an instruction. -/
theorem wit_ShuanWordRoundTrip :
    encodeWord (.beq 3 0x7FFF 0 5) = some 0xFFFE02A0#32 ∧ (decodeWord 3 .clean 0x12345489#32).isSome = true := by
  decide +kernel

/-- Commands with their clocks: RDM runs at reset, and a command that never restarts it. -/
theorem wit_CommandsKeepQueueAndClock : rdmOn State.reset.env = true ∧
    (∀ m2 m3 a b, (Instr.reqDormant) ≠ .timebaseRestart m2 m3 a b) ∧ Instr.reqDormant ≠ .mainPowerGood ∧
    (∀ ms mj x, Instr.reqDormant ≠ .drainDone ms mj x) :=
  ⟨by decide, (fun _ _ _ _ h => by cases h), (fun h => by cases h), (fun _ _ _ h => by cases h)⟩

/-! ### Examples and tables of the manual -/

/-- The user command of 03's worked example, word by word. -/
theorem test_example_words :
    decodeWord 0 .clean 0x00301196 = some (.ld 0 24 1 3 .clean) ∧ decodeWord 0 .clean 0x00401215 = some (.lwu 0 32 1 4 .clean) ∧
    decodeWord 0 .clean 0xFFFE0282 = some (.addi 0 0x7FFF 0 5) ∧
    decodeWord 0 .clean 0x900A3359 = some (.crc ⟨0, .clean⟩ 0x24 0 5 3 6) ∧
    decodeWord 0 .clean 0x00006054 = some (.endTask 0 0 0 0 6 0) := by decide +kernel
/-- "123456789" (03's worked example). -/
theorem test_crc : crcStd [0x31, 0x32, 0x33, 0x34, 0x35, 0x36, 0x37, 0x38, 0x39] = 0xE3069283 := by decide +kernel
/-- An aged bank (16): E 27,025 mJ, C 50.0 mF, L 6,720 MiB. -/
theorem test_holdup : (holdupOf 35000 34200 {}).1 = 27025 ∧ (holdupOf 35000 34200 {}).2.1 = 500 ∧ limitOf 27025 1 = 6720 := by
  decide +kernel
/-- One value through each lossy mode (06). -/
theorem test_lossy :
    recon 0 3 6 0 253 = 247 ∧ recon 0 3 6 0 254 = 255 ∧ recon 1 4 32 0 17 = 16 ∧ recon 1 4 32 0 41 = 40 ∧
    recon 1 5 4 0 992 = 1000 ∧ recon 1 5 4 0 1007 = 1000 ∧ recon 3 5 10 0 0x40490FDB = 0x40490C00 ∧
    recon 1 0x12 0 3 3 = 0 ∧ recon 1 0x12 0 3 4 = 4 := by decide +kernel
/-- The stream of a two-frame stack (06). -/
theorem test_stream : sectionLen 1 1000 600 160 = 1202624 ∧ streamLen 1 1000 600 160 2 = 2405344 := by decide
/-- Locating a sheet (07). -/
theorem test_psa :
    psaChannel 0x144D348FA3 = 20 ∧ psaDie 0x144D348FA3 = 9 ∧ psaPlane 0x144D348FA3 = 2 ∧ psaBlock 0x144D348FA3 = 1234 ∧
    psaPage 0x144D348FA3 = 1000 ∧ psaSheet 0x144D348FA3 = 3 := by decide
/-- One window at full budget (11): floors first, then three rounds; the rest is 0. -/
theorem test_share :
    let r := share 64 119060
      [⟨8600, 9000, 16⟩, ⟨17200, 40000, 32⟩, ⟨17200, 110000, 32⟩, ⟨6000, 6000, 16⟩, ⟨3440, 20000, 8⟩, ⟨500, 500, 4⟩]
    (r.1.map (·.fund), r.2) = ([9000, 40000, 96500, 6000, 20000, 500], 0) := by
  decide +kernel
/-- A management controller writes a lower power cap and reads it back (19). -/
theorem test_mgmt :
    let d : Dev := { mg := Vector.replicate 2 { page := 1 } }
    mgOffset d 1 0x6000 = 0x16000 ∧ rstat envA d 1 0x16000 false = 0 ∧
    regRead envA (regWrite 0x16000 200 envA d).2 none 0x16000 = some 200 := by decide +kernel

end Sys2Proof.Tests
end

section
/-! A register write through BAR0, rule by rule (R10, R12, R99–R101), and the registers right after power-on reset (R14). -/

namespace Sys2Proof.Proofs

open Sys2Proof.Machine Sys2Proof.Claims Sys2Proof.Laws

/-! ### Tables and ports -/

/-- The entry just stored is the one found under its key. -/
theorem tblGet_tblSet_same {α : Type} (t : Tbl α) (k : Nat) (x : α) : tblGet (tblSet t k x) k = some x := by
  induction t with
  | nil => simp [tblSet, tblGet]
  | cons e t ih =>
    obtain ⟨y, c⟩ := e
    simp only [tblSet]
    split
    · simp [tblGet]
    · split
      · simp [tblGet]
      · next hne => simp [tblGet, Ne.symm hne, ih]

/-- A change of a chain port is what the port then is. -/
theorem portOf_updPort_same (p : Nat) (hp : p < 2) (f : Port → Port) (d : Dev) :
    portOf (updPort p f d) p = f (portOf d p) := by
  simp [portOf, updPort, vget, vupd, hp]

/-! ### The control registers a host sets up -/

/-- The control registers of the statement, with the bits of each that are fields. -/
def ctrlTable : List (Nat × W32) :=
  [(0x1008, 0x7FFFE), (0x11000, 0x07FFFFFF), (0x12100, 0x0137FFFF), (0x12104, 0x0FFF0FFF), (0x1210C, 0x00FFFFFF),
   (0x12110, 0xFFFFFFFF), (0x13000, 0xFF0FFFFF), (0x18000, 0xFFFF0001), (0x19000, 0xFFFF), (0x1A100, 0xFFFF),
   (0x1C000, 0xFFFFFFFF), (0x1C004, 0x00FFFFFF), (0x1C008, 0x000FFFFF), (0x1C00C, 0x3FFFF), (0x1C010, 0xFFFF),
   (0x1C014, 0x00FFFFFF), (0x1D000, 0x3F), (0x1F000, 0x7FFFF)]

/-- What the four control registers of a chain port hold. -/
def portCtrls (x : Port) : List W32 := [x.pctrl, x.pvid, x.thr, x.wdog]

/-- What the registers of `ctrlTable` hold, in its order. -/
def ctrlVals (d : Dev) : List W32 :=
  [d.attn.pinMask, d.hqe.arb] ++ portCtrls (portOf d 0) ++
  [d.xpt.ctrl, d.cal.ctrl, d.cch.ctrl, d.flt.stageFloor, d.trl.brokeReg, d.trl.wearReg, d.trl.refreshReg,
   d.trl.patrolReg, d.trl.quireReg, d.trl.ckptReg, d.ccl.limit, d.evr.ctrl]

theorem ctrlVals_length (d : Dev) : (ctrlVals d).length = ctrlTable.length := rfl

/-- Each of the control registers reads what it holds. -/
theorem regRead_ctrlTable (env : Env) (d : Dev) :
    ctrlTable.map (fun g => regRead env d none g.1) = (ctrlVals d).map (fun w => some w.toNat) := rfl

/-- A change of port 0 other than to its control registers leaves every control register. -/
theorem ctrlVals_updPort_keeps (f : Port → Port) (hf : ∀ x, portCtrls (f x) = portCtrls x) (d : Dev) :
    ctrlVals (updPort 0 f d) = ctrlVals d := by
  simp [ctrlVals, portOf_updPort_same, hf]

theorem ctrlVals_sendPfc (env : Env) (n quanta : Nat) (d : Dev) : ctrlVals (sendPfc env 0 n quanta d) = ctrlVals d := by
  simp only [sendPfc, portCount]
  refine (ctrlVals_updPort_keeps _ ?_ _).trans (ctrlVals_updPort_keeps _ ?_ d) <;> exact fun _ => rfl

/-- Flow control sends XOFF or XON and keeps its mark of it; no control register changes (R276). -/
theorem ctrlVals_pfcCheck (env : Env) (n : Nat) (d : Dev) : ctrlVals (pfcCheck env 0 n d) = ctrlVals d := by
  have mark (x : Option Nat) :
      ctrlVals (updPort 0 (fun y => { y with xoff := vset y.xoff n x }) d) = ctrlVals d :=
    ctrlVals_updPort_keeps (fun y => { y with xoff := vset y.xoff n x }) (fun _ => rfl) d
  unfold pfcCheck
  dsimp only
  split
  · split
    · exact (ctrlVals_sendPfc ..).trans (mark _)
    · rfl
  · split
    · exact mark _
    · split
      · exact (ctrlVals_sendPfc ..).trans (mark _)
      · rfl

theorem ctrlVals_pfcCheckAll (env : Env) (d : Dev) : ctrlVals (pfcCheckAll env 0 d) = ctrlVals d :=
  List.foldlRecOn (motive := fun e => ctrlVals e = ctrlVals d) (List.range 8) _ rfl
    (fun e he n _ => (ctrlVals_pfcCheck env n e).trans he)

/-- A change of port 0 replaces the four control registers of the port. -/
theorem ctrlVals_updPort (f : Port → Port) (d : Dev) :
    ctrlVals (updPort 0 f d) = (ctrlVals d).take 2 ++ portCtrls (f (portOf d 0)) ++ (ctrlVals d).drop 6 := by
  simp [ctrlVals, portOf_updPort_same, portCtrls]

/-- The control registers of port 0 stand from 0x1_2100 on (R283, R514). -/
theorem barWrite_port (env : Env) (v : W32) (d : Dev) (o : Nat) (ho : o ∈ [0x00, 0x04, 0x0C, 0x10]) :
    barWrite (0x12100 + o) v env d = (env, writePort env 0 o v d) := by
  simp only [List.mem_cons, List.not_mem_nil, or_false] at ho
  obtain rfl | rfl | rfl | rfl := ho <;> rfl

/-- A write of a control register of port 0 takes its fields, and its flow control follows (R276, R283). -/
theorem ctrlVals_writePort (env : Env) (v : W32) (d : Dev) :
    ctrlVals (writePort env 0 0x00 v d) = (ctrlVals d).set 2 (v &&& 0x0137FFFF) ∧
    ctrlVals (writePort env 0 0x04 v d) = (ctrlVals d).set 3 (v &&& 0x0FFF0FFF) ∧
    ctrlVals (writePort env 0 0x0C v d) = (ctrlVals d).set 4 (v &&& 0x00FFFFFF) ∧
    ctrlVals (writePort env 0 0x10 v d) = (ctrlVals d).set 5 v := by
  refine ⟨?_, ?_, ?_, ?_⟩ <;> simp only [writePort, ctrlVals_pfcCheckAll, ctrlVals_updPort] <;> rfl

/-- A write of a control register changes the drive alone; the register holds the fields of what is written, and the
others keep what they hold. -/
theorem barWrite_ctrlTable (env : Env) (d : Dev) (v : W32) (i : Nat) (hi : i < ctrlTable.length) :
    (barWrite ctrlTable[i].1 v env d).1 = env ∧
      ctrlVals (barWrite ctrlTable[i].1 v env d).2 = (ctrlVals d).set i (v &&& ctrlTable[i].2) := by
  obtain ⟨hpctrl, hpvid, hthr, hwdog⟩ := ctrlVals_writePort env v d
  have port (o : Nat) (ho : o ∈ [0x00, 0x04, 0x0C, 0x10]) {vs : List W32} (h : ctrlVals (writePort env 0 o v d) = vs) :
      (barWrite (0x12100 + o) v env d).1 = env ∧ ctrlVals (barWrite (0x12100 + o) v env d).2 = vs := by
    rw [barWrite_port env v d o ho]
    exact ⟨rfl, h⟩
  have hfull : v &&& 0xFFFFFFFF = v := BitVec.and_allOnes
  match i, hi with
  | 2, _ => exact port 0x00 (by decide) hpctrl
  | 3, _ => exact port 0x04 (by decide) hpvid
  | 4, _ => exact port 0x0C (by decide) hthr
  | 5, _ => exact port 0x10 (by decide) (hwdog.trans (congrArg _ hfull.symm))
  | 10, _ =>
    simp only [ctrlTable, List.getElem_cons_succ, List.getElem_cons_zero]
    exact ⟨rfl, congrArg ((ctrlVals d).set 10) hfull.symm⟩
  | 0, _ | 1, _ | 6, _ | 7, _ | 8, _ | 9, _ | 11, _ | 12, _ | 13, _ | 14, _ | 15, _ | 16, _ | 17, _ =>
    simp only [ctrlTable, List.getElem_cons_succ, List.getElem_cons_zero]
    exact ⟨rfl, rfl⟩
  | n + 18, hn =>
    have hlt : n + 18 < 18 := hn
    omega

/-- The control register in place i of the table reads what it holds. -/
theorem regRead_ctrlTable_getElem (env : Env) (d : Dev) (i : Nat) (hi : i < ctrlTable.length) :
    regRead env d none ctrlTable[i].1 = some ((ctrlVals d)[i]'(Nat.lt_of_lt_of_eq hi (ctrlVals_length d).symm)).toNat := by
  have h := List.getElem_of_eq (regRead_ctrlTable env d) (i := i) (by simpa using hi)
  rwa [List.getElem_map, List.getElem_map] at h

/-! ### REGISTER_WRITE by size and alignment (R99) -/

/-- Four aligned bytes write the word. -/
theorem registerWrite_word {s : State} (h : barAlive s.env s.dev = true) {off : Nat} (ha : off % 4 = 0) (v : Word) :
    exec (.registerWrite off false v) s =
      .next { s with env := (barWrite off (v.setWidth 32) s.env s.dev).1,
                     dev := (barWrite off (v.setWidth 32) s.env s.dev).2 } := by
  change execRegisterWrite off false v s = _
  simp [execRegisterWrite, onEnv_next, h, ha]

/-- Four bytes that change the drive alone. -/
theorem registerWrite_word_dev {s : State} (h : barAlive s.env s.dev = true) {off : Nat} (ha : off % 4 = 0) {v : Word}
    {d : Dev} (hw : barWrite off (v.setWidth 32) s.env s.dev = (s.env, d)) : NextDev (.registerWrite off false v) s d := by
  rw [NextDev, registerWrite_word h ha, hw]

/-- An access not aligned to its size is ignored, counted and reported. -/
theorem registerWrite_misaligned {s : State} (h : barAlive s.env s.dev = true) {off : Nat} (eight : Bool)
    (ha : off % (if eight then 8 else 4) ≠ 0) (v : Word) :
    NextDev (.registerWrite off eight v) s (barInvalid off (if eight then 8 else 4) s.env s.dev) := by
  change execRegisterWrite off eight v s = _
  simp only [execRegisterWrite, onEnv_next, h, Bool.not_true, Bool.false_eq_true, ↓reduceIte, ha, ne_eq, not_false_eq_true]

/-- Eight aligned bytes over two words write both, the lower first. -/
theorem registerWrite_two_words {s : State} (h : barAlive s.env s.dev = true) {off : Nat} (ha : off % 8 = 0)
    (hw : wideReg off = false) (v : Word) :
    let first := barWrite off (v.setWidth 32) s.env s.dev
    let second := barWrite (off + 4) ((v >>> 32).setWidth 32) first.1 first.2
    exec (.registerWrite off true v) s = .next { s with env := second.1, dev := second.2 } := by
  change execRegisterWrite off true v s = _
  simp [execRegisterWrite, onEnv_next, h, ha, hw]

/-- Eight aligned bytes write a 64-bit register as one value. -/
theorem registerWrite_wide {s : State} (h : barAlive s.env s.dev = true) {off : Nat} (ha : off % 8 = 0)
    (hw : wideReg off = true) (v : Word) : NextDev (.registerWrite off true v) s (writeWide off v s.dev) := by
  change execRegisterWrite off true v s = _
  simp [execRegisterWrite, onEnv_next, h, ha, hw]

/-! ### Doorbells (R114) -/

/-- The doorbells of pair q stand at 0x10_0000 + 8q, the SQ tail's first. -/
theorem barWrite_doorbell {off : Nat} (hlo : 0x100000 ≤ off) (hhi : off < 0x180000) (v : W32) (env : Env) (d : Dev) :
    barWrite off v env d = if off % 8 = 0 then sqTail ((off - 0x100000) / 8) v.toNat env d
      else (env, cqHead ((off - 0x100000) / 8) v.toNat env d) := by
  simp [barWrite, hlo, hhi]

/-! ### The halves of a 64-bit register (R100, R101) -/

/-- The high half takes the low half last written. -/
theorem takeWide_putLow (off : Nat) (cur : Word) (lo v : W32) (d : Dev) :
    (takeWide off cur v (putLow off lo d)).1 = v ++ lo := by
  simp [takeWide, putLow, tblGetD, tblGet_tblSet_same]

/-- With ENABLE reading 0 the low half of ADM_SQ_BASE is kept for its high half. -/
theorem barWrite_admSq_low {d : Dev} (he : d.hqe.enabled = false) (v : W32) (env : Env) :
    barWrite 0x20 v env d = (env, putLow 0x20 v d) := by
  change (env, if d.hqe.enabled then d else putLow 0x20 v d) = _
  simp [he]

/-- With ENABLE reading 0 the high half of ADM_SQ_BASE writes the register. -/
theorem barWrite_admSq_high {d : Dev} (he : d.hqe.enabled = false) (v : W32) (env : Env) :
    barWrite 0x24 v env d = (env, setAdmBase 0x20 (takeWide 0x20 d.hqe.admSq v d).1 (takeWide 0x20 d.hqe.admSq v d).2) := by
  change (env, if d.hqe.enabled then d else _) = _
  simp [he]

/-- With ENABLE reading 0 ADM_SQ_BASE takes the value written to it, but for its RES0 bits, and nothing else changes. -/
theorem setAdmBase_admSq {d : Dev} (he : d.hqe.enabled = false) (v : Word) :
    setAdmBase 0x20 v d = { d with hqe := { d.hqe with admSq := pageBase v } } := by
  simp [setAdmBase, he]

/-- With ENABLE reading 0 an 8-byte write of ADM_SQ_BASE is its value at once, and a low half waiting is gone. -/
theorem writeWide_admSq {d : Dev} (he : d.hqe.enabled = false) (v : Word) :
    writeWide 0x20 v d = { d with hqe := { d.hqe with lowHalf := tblErase d.hqe.lowHalf 0x20, admSq := pageBase v } } := by
  rw [writeWide, if_neg (by decide), if_neg (by simp [he])]
  exact setAdmBase_admSq (by exact he) v

/-! ### The statements -/

/-- A write of a control register gives it the fields written, and the other control registers read what they did
(R10, R12). -/
theorem registerWrite_ctrlTable {s : State} (h : barAlive s.env s.dev = true) (v : Word) :
    ∀ g ∈ ctrlTable, ∃ d, NextDev (.registerWrite g.1 false v) s d ∧
      regRead s.env d none g.1 = some ((v.setWidth 32 : W32) &&& g.2).toNat ∧
      ∀ k ∈ ctrlTable, k.1 ≠ g.1 → regRead s.env d none k.1 = regRead s.env s.dev none k.1 := by
  intro g hg
  have aligned : ∀ g ∈ ctrlTable, g.1 % 4 = 0 := by decide
  have hal := aligned g hg
  obtain ⟨i, hi, rfl⟩ := List.getElem_of_mem hg
  obtain ⟨henv, hvals⟩ := barWrite_ctrlTable s.env s.dev (v.setWidth 32) i hi
  refine ⟨_, registerWrite_word_dev h hal (Prod.ext henv rfl), ?_, fun k hk hne => ?_⟩
  · simp only [regRead_ctrlTable_getElem _ _ i hi, hvals, List.getElem_set_self]
  · obtain ⟨j, hj, rfl⟩ := List.getElem_of_mem hk
    have hij : i ≠ j := by rintro rfl; exact hne rfl
    simp only [regRead_ctrlTable_getElem _ _ j hj, hvals, List.getElem_set_ne hij]

/-- A low half of ADM_SQ_BASE waits for its high half, and the two are the register's value (R100, R101). -/
theorem registerWrite_admSq_halves {s : State} (h : barAlive s.env s.dev = true) (he : s.dev.hqe.enabled = false)
    (v : Word) :
    ∃ d, NextDev (.registerWrite 0x20 false v) s d ∧ regRead s.env d none 0x20 = regRead s.env s.dev none 0x20 ∧
      regRead s.env d none 0x24 = regRead s.env s.dev none 0x24 ∧
      ∀ w : Word, ∃ d', NextDev (.registerWrite 0x24 false w) { s with dev := d } d' ∧
        d'.hqe.admSq = ((w.setWidth 32 : W32) ++ (v.setWidth 32 : W32)) &&& 0xFFFFFFFFFFFFF000 := by
  refine ⟨putLow 0x20 (v.setWidth 32) s.dev, registerWrite_word_dev h rfl (barWrite_admSq_low he _ _), rfl, rfl, fun w => ?_⟩
  have he' : (putLow 0x20 (v.setWidth 32) s.dev).hqe.enabled = false := he
  refine ⟨_, registerWrite_word_dev (s := { s with dev := putLow 0x20 (v.setWidth 32) s.dev }) h rfl
    (barWrite_admSq_high he' _ _), ?_⟩
  rw [takeWide_putLow, setAdmBase_admSq]
  · rfl
  · exact he

/-- Eight bytes write ADM_SQ_BASE at once, and neither the pairs nor attention change. -/
theorem registerWrite_admSq_wide {s : State} (h : barAlive s.env s.dev = true) (he : s.dev.hqe.enabled = false)
    (v : Word) :
    ∃ d, NextDev (.registerWrite 0x20 true v) s d ∧ d.hqe.admSq = v &&& 0xFFFFFFFFFFFFF000 ∧
      d.hqe.pairs = s.dev.hqe.pairs ∧ d.attn = s.dev.attn := by
  refine ⟨_, registerWrite_wide h rfl rfl v, ?_⟩
  rw [writeWide_admSq he]
  exact ⟨rfl, rfl, rfl⟩

/-- Settles O34: each size and alignment by its rule, the control registers by what they hold before and after. -/
theorem registerWrites : Obligations.RegisterWrites := by
  intro s off v h lo hi both first pair regs
  refine ⟨registerWrite_ctrlTable h v, fun ha => registerWrite_word h ha v, fun ha => registerWrite_misaligned h false ha v,
    fun ha => registerWrite_misaligned h true ha v, fun ha hw => registerWrite_two_words h ha hw v, ?_, ?_,
    fun he => ⟨registerWrite_admSq_halves h he v, registerWrite_admSq_wide h he v⟩⟩
  · intro ha hlo hhi
    rw [registerWrite_word h (by omega), barWrite_doorbell hlo hhi, if_pos ha]
  · intro ha hlo hhi
    exact registerWrite_word_dev h (by omega) (by rw [barWrite_doorbell hlo hhi, if_neg (by omega)])

/-- Settles O55: the reset state is closed, and each register's reset value is evaluated from it. -/
theorem resetState : Obligations.ResetState := by
  refine ⟨?registers, ?enables, ⟨rfl, rfl, rfl⟩, ?empty⟩
  case registers => decide
  case enables => decide
  case empty => exact ⟨rfl, rfl, rfl, rfl, rfl, rfl, rfl, rfl, rfl, rfl, rfl, rfl⟩

end Sys2Proof.Proofs
end

section
/-! A streamed portion goes to media as it is admitted, and what a map has waiting under its id goes with it (R212, R516). -/

namespace Sys2Proof.Proofs

open Sys2Proof.Machine Sys2Proof.Claims Sys2Proof.Laws

/-- The progress of a command is kept with its task: the directory stays. -/
@[simp] theorem putJob_kdr (t : Task) (d : Dev) : (putJob t d).kdr = d.kdr := by
  unfold putJob
  split <;> rfl

/-- The map of the object in a slot. -/
def mapIn (d : Dev) (n : Nat) : Option (Tbl Loc) := (slotAt d n).bind (fun x => x.obj.map (·.map))

/-- The map of the object in a slot after a command. -/
def mapAfter (i : Instr) (s : State) (n : Nat) : Option (Tbl Loc) :=
  match exec i s with
  | .next q => mapIn q.dev n
  | _ => none

/-- A command that leaves the directory, but for a task's progress, leaves every map. -/
theorem mapAfter_of_slots {i : Instr} {s : State} {t : Task} {d : Dev} (hnext : NextDev i s (putJob t d))
    (hslots : d.kdr.slots = s.dev.kdr.slots) (n : Nat) : mapAfter i s n = mapIn s.dev n := by
  rw [mapAfter, hnext]
  simp only [mapIn, slotAt, putJob_kdr, hslots]

/-- An object of one sheet, whose map says that the sheet waits in protected felt under id 0. -/
def feltSheet : Obj := { objId := 7, len := 4096, sheets := [0], map := [(0, .felt 0)] }

/-- A streamed RANGE_WRITE of that sheet which holds the lock of slot 9, no portion admitted yet. -/
def streamedTask : Task :=
  { eng := 3, ctx := 1, kind := .host, capsule := 0x07, job := { phase := .stream 0, lock := .held 9, objId := 7, len := 4096 } }

/-- The drive that serves it; the next id of protected felt is 0. -/
def streamedState : State :=
  { dev := { mea := { tasks := [streamedTask] },
             kdr := { slots := [(9, { live := true, ksid := 0, key := [], hash := 0, objId := 7, obj := some feltSheet })] } } }

/-- The portion takes id 0 and is placed at once; the sheet that waited under that id is mapped to its place. -/
theorem mapAfter_portion :
    mapAfter (.streamedPortionAdmit ⟨⟨3, 1⟩, none⟩) streamedState 9 = some [(0, .psa (2 ^ 32))] := by
  decide +kernel

/-- Refutes O37: a portion's admission does not leave the directory in every state. The portion is placed as it is admitted,
and where the map of the object it writes has a sheet waiting under the id the portion takes, that entry is moved too. -/
theorem not_writesStopAndGoOn : ¬ Obligations.WritesStopAndGoOn := by
  intro h
  obtain ⟨-, -, -, -, -, -, -, hportion⟩ := h streamedState (.rangeWrite ⟨3, 1⟩ (.ok [])) ⟨3, 1⟩ none (.ok []) 0x07 9 0
    streamedTask streamedTask { live := false, ksid := 0, key := [], hash := 0 } (0, 0) 0 (by simp)
  obtain ⟨hadmitted, -⟩ := hportion rfl rfl rfl (by decide)
  obtain ⟨runs, d, hnext, -, hslots, -⟩ := hadmitted (by decide)
  exact absurd (mapAfter_portion.symm.trans (mapAfter_of_slots hnext hslots 9)) (by decide)

end Sys2Proof.Proofs
end

section
/-! What answers, chain commands and charges leave of the governor: at most the funding of its classes moves (R359, R363). -/

namespace Sys2Proof.Proofs

open Sys2Proof.Machine Sys2Proof.Claims Sys2Proof.Laws

/-- A change that leaves the governor, made for each of a list. -/
theorem foldl_bgv {α : Type} (f : Dev → α → Dev) (hf : ∀ d x, (f d x).bgv = d.bgv) (l : List α) (d : Dev) :
    (l.foldl f d).bgv = d.bgv :=
  List.foldlRecOn (motive := fun e => e.bgv = d.bgv) l f rfl (fun e he x _ => (hf e x).trans he)

/-! ### Host queues and flows -/

@[simp] theorem updPair_bgv (q : Nat) (f : Pair → Pair) (d : Dev) : (updPair q f d).bgv = d.bgv := by
  unfold updPair; split <;> rfl

@[simp] theorem signalPair_bgv (q : Nat) (d : Dev) : (signalPair q d).bgv = d.bgv := by
  unfold signalPair
  split
  · rfl
  · dsimp only; split <;> simp

@[simp] theorem writeCqe_bgv (env : Env) (q cid : Nat) (status : Byte) (result : Word) (more : Bool) (d : Dev) :
    (writeCqe env q cid status result more d).bgv = d.bgv := by
  unfold writeCqe
  split
  · rfl
  · dsimp only; split <;> simp

@[simp] theorem failPair_bgv (env : Env) (q reason : Nat) (code : Byte) (d : Dev) :
    (failPair env q reason code d).bgv = d.bgv := by
  simp [failPair, noteAer]

@[simp] theorem postCqe_bgv (env : Env) (q cid : Nat) (status : Byte) (result : Word) (more : Bool) (d : Dev) :
    (postCqe env q cid status result more d).bgv = d.bgv := by
  unfold postCqe
  split
  · rfl
  · split
    · exact updPair_bgv ..
    · split
      · exact writeCqe_bgv ..
      · split
        · rfl
        · exact (failPair_bgv ..).trans (updPair_bgv ..)

@[simp] theorem updFlow_bgv (id : Nat) (f : Flow → Flow) (d : Dev) : (updFlow id f d).bgv = d.bgv := by
  unfold updFlow; split <;> rfl

@[simp] theorem portCount_bgv (p i : Nat) (d : Dev) : (portCount p i d).bgv = d.bgv := rfl
@[simp] theorem xptCount_bgv (i : Nat) (d : Dev) : (xptCount i d).bgv = d.bgv := rfl

@[simp] theorem queueFrame_bgv (env : Env) (port : Nat) (f : EFrame) (d : Dev) : (queueFrame env port f d).bgv = d.bgv := by
  unfold queueFrame partnerErr
  dsimp only
  split
  · rw [setCause_bgv, portCount_bgv]
  · split
    · rw [setCause_bgv, portCount_bgv]
    · rfl

@[simp] theorem seqField_bgv (kind seq : Nat) (d : Dev) : (seqField kind seq d).2.bgv = d.bgv := by
  unfold seqField; split <;> rfl

@[simp] theorem sendOnFlow_bgv (env : Env) (id : Nat) (fl : Flow) (kind seq cid doff : Nat) (last nak : Bool)
    (payload : List Byte) (d : Dev) : (sendOnFlow env id fl kind seq cid doff last nak payload d).bgv = d.bgv := by
  simp [sendOnFlow]

@[simp] theorem pumpList_bgv (env : Env) (id : Nat) (us : List Unacked) (d : Dev) : (pumpList env id us d).bgv = d.bgv := by
  induction us generalizing d with
  | nil => rfl
  | cons u us ih =>
    unfold pumpList
    split
    · rfl
    · split
      · simp [ih]
      · rfl

@[simp] theorem sendSeq_bgv (env : Env) (id kind cid doff : Nat) (last : Bool) (payload : List Byte) (d : Dev) :
    (sendSeq env id kind cid doff last payload d).bgv = d.bgv := by
  unfold sendSeq pump; split <;> simp

@[simp] theorem sendAll_bgv (env : Env) (id : Nat) (ms : List Unacked) (d : Dev) : (sendAll env id ms d).bgv = d.bgv :=
  foldl_bgv _ (fun _ _ => sendSeq_bgv ..) ms d

@[simp] theorem noteConsume_bgv (id : Nat) (x : Option (Nat × Nat)) (d : Dev) : (noteConsume id x d).bgv = d.bgv := by
  unfold noteConsume; split <;> simp

@[simp] theorem noteResp_bgv (env : Env) (id : Nat) (no : Option Nat) (d : Dev) : (noteResp env id no d).bgv = d.bgv := by
  unfold noteResp; split <;> rfl

@[simp] theorem flushOuts_bgv (env : Env) (id : Nat) (rs : List Response) (d : Dev) : (flushOuts env id rs d).bgv = d.bgv := by
  induction rs generalizing d with
  | nil => exact updFlow_bgv ..
  | cons r rs ih => unfold flushOuts; dsimp only; split <;> simp [ih]

@[simp] theorem respond_bgv (env : Env) (id : Nat) (no : Option Nat) (ms : List Unacked) (done : Bool) (d : Dev) :
    (respond env id no ms done d).bgv = d.bgv := by
  unfold respond
  split
  · rfl
  · split
    · split
      · exact sendAll_bgv ..
      · exact (updFlow_bgv ..).trans (sendAll_bgv ..)
    · split
      · split
        · exact (flushOuts_bgv ..).trans (sendAll_bgv ..)
        · exact sendAll_bgv ..
      · exact updFlow_bgv ..

@[simp] theorem consume_bgv (id n : Nat) (d : Dev) : (consume id n d).bgv = d.bgv := by
  unfold consume; split <;> simp

@[simp] theorem dropInbound_bgv (id arr : Nat) (d : Dev) : (dropInbound id arr d).bgv = d.bgv := by
  unfold dropInbound; split <;> simp

@[simp] theorem grantCredit_bgv (id : Nat) (held : Bool) (d : Dev) : (grantCredit id held d).bgv = d.bgv := by
  unfold grantCredit; split <;> simp

/-! ### The key directory, key slots and contexts -/

@[simp] theorem eraseSlots_bgv (p : Slot → Bool) (n : Nat) (d : Dev) : (eraseSlots p n d).bgv = d.bgv := by
  induction n generalizing d with
  | zero => rfl
  | succ n ih =>
    unfold eraseSlots
    split
    · rw [ih]; rfl
    · rfl

@[simp] theorem releaseSlots_bgv (o : Owner) (d : Dev) : (releaseSlots o d).bgv = d.bgv := by
  simp [releaseSlots, pruneSlots, moveSlots]

@[simp] theorem releaseAll_bgv (t : Task) (d : Dev) : (releaseAll t d).bgv = d.bgv :=
  (foldl_bgv _ (fun _ _ => releaseSlots_bgv ..) _ _).trans (releaseSlots_bgv ..)

@[simp] theorem settleLocks_bgv (d : Dev) : (settleLocks d).bgv = d.bgv :=
  foldl_bgv (fun d (x : Nat × Keyspace) => zeroKeys x.1 d) (fun _ _ => rfl) _ d

@[simp] theorem freeCtx_bgv (t : Task) (d : Dev) : (freeCtx t d).bgv = d.bgv := by
  simp [freeCtx, freeSealed]

@[simp] theorem schedule_bgv (env : Env) (e : Nat) (d : Dev) : (schedule env e d).bgv = d.bgv := by
  unfold schedule
  split
  · rfl
  · split <;> simp

/-! ### Links -/

@[simp] theorem sendPfc_bgv (env : Env) (p n quanta : Nat) (d : Dev) : (sendPfc env p n quanta d).bgv = d.bgv := rfl

@[simp] theorem pfcCheck_bgv (env : Env) (p n : Nat) (d : Dev) : (pfcCheck env p n d).bgv = d.bgv := by
  unfold pfcCheck
  dsimp only
  split
  · split <;> rfl
  · split
    · rfl
    · split <;> rfl

@[simp] theorem clearEgress_bgv (env : Env) (p : Nat) (d : Dev) : (clearEgress env p d).bgv = d.bgv :=
  foldl_bgv _ (fun _ _ => pfcCheck_bgv ..) _ _

@[simp] theorem dropEgress_bgv (env : Env) (p : Nat) (d : Dev) : (dropEgress env p d).bgv = d.bgv := by
  unfold dropEgress; dsimp only; split <;> simp

@[simp] theorem portDown_bgv (env : Env) (p cause : Nat) (d : Dev) : (portDown env p cause d).bgv = d.bgv := by
  unfold portDown; split <;> simp [reportDown]

@[simp] theorem startRemoval_bgv (env : Env) (cause : Nat) (d : Dev) : (startRemoval env cause d).bgv = d.bgv := by
  unfold startRemoval
  split
  · rfl
  · split
    · rw [updCpt_bgv, dropEgress_bgv, dropEgress_bgv]
    · rfl

@[simp] theorem resetPort_bgv (env : Env) (p : Nat) (d : Dev) : (resetPort env p d).bgv = d.bgv := by
  simp [resetPort, clearPfc]

@[simp] theorem beginChain_bgv (env : Env) (c : ChainCmd) (d : Dev) : (beginChain env c d).1.bgv = d.bgv := by
  unfold beginChain
  split
  · split
    · rfl
    · split
      · rfl
      · split <;> rfl
  · dsimp only
    split <;> exact startRemoval_bgv ..
  · exact resetPort_bgv ..

/-! ### Charges: what they may change of the governor -/

/-- The governor but for the funding of its classes and the spare. -/
def unfunded (b : Bgv) : Bgv := { b with wc := ({} : Bgv).wc, spare := 0 }

@[simp] theorem updWc_unfunded (c : Nat) (f : Wc → Wc) (d : Dev) : unfunded (updWc c f d).bgv = unfunded d.bgv := rfl

@[simp] theorem drawSpare_unfunded (c : Nat) (need : Int) (d : Dev) : unfunded (drawSpare c need d).bgv = unfunded d.bgv := by
  unfold drawSpare; dsimp only; split <;> rfl

@[simp] theorem drawFrom_unfunded (c : Nat) (ks : List Nat) (need : Int) (d : Dev) :
    unfunded (drawFrom c ks need d).bgv = unfunded d.bgv := by
  induction ks generalizing need d with
  | nil => rfl
  | cons k ks ih => unfold drawFrom; dsimp only; split <;> simp [ih]

@[simp] theorem charge_unfunded (c units : Nat) (d : Dev) : unfunded (charge c units d).bgv = unfunded d.bgv := by
  unfold charge; dsimp only; split <;> simp

@[simp] theorem chargeFor_unfunded (c : Nat) (g : BitVec 16) (units : Nat) (d : Dev) :
    unfunded (chargeFor c g units d).bgv = unfunded d.bgv := by
  unfold chargeFor; dsimp only; split <;> simp

@[simp] theorem creditEst_unfunded (c est : Nat) (d : Dev) : unfunded (creditEst c est d).bgv = unfunded d.bgv := rfl

@[simp] theorem finishPost_bgv (p : PostRef) (status : Byte) (result : Word) (d : Dev) :
    (finishPost p status result d).bgv = d.bgv := rfl

/-- An answer costs the parent of a loopback command its post at most (R56, R362). -/
@[simp] theorem answer_unfunded (env : Env) (w : Who) (status : Byte) (result : Word) (more : Bool) (d : Dev) :
    unfunded (answer env w status result more d).bgv = unfunded d.bgv := by
  unfold answer
  split
  · split
    · rw [postCqe_bgv]
    · rfl
  · dsimp only [sendResp]
    split
    · split
      · rw [grantCredit_bgv, dropInbound_bgv]
      · rw [respond_bgv, grantCredit_bgv, dropInbound_bgv]
    · rfl
  · split
    · split
      · rw [finishPost_bgv, chargeFor_unfunded]
      · rfl
    · rfl
  · rfl

@[simp] theorem answerArrival_unfunded (env : Env) (a : Arrival) (status : Byte) (result : Word) (d : Dev) :
    unfunded (answerArrival env a status result d).bgv = unfunded d.bgv := by
  simp [answerArrival, dropArrival, throttle]

@[simp] theorem memberHook_bgv (no i : Nat) (t : Task) (faulted : Option Byte) (status : Byte) (result : Word) (d : Dev) :
    (memberHook no i t faulted status result d).bgv = d.bgv := by
  unfold memberHook; split <;> rfl

@[simp] theorem hookDone_unfunded (env : Env) (t : Task) (faulted : Option Byte) (status : Byte) (result : Word) (d : Dev) :
    unfunded (hookDone env t faulted status result d).bgv = unfunded d.bgv := by
  unfold hookDone
  split
  · rfl
  · split
    · rw [memberHook_bgv]
    · split
      · rfl
      · split
        · rfl
        · split
          · split
            · rfl
            · split
              · exact answerArrival_unfunded ..
              · rfl
          · split
            · exact answerArrival_unfunded ..
            · split
              · rfl
              · exact answerArrival_unfunded ..

@[simp] theorem retire_unfunded (env : Env) (t : Task) (d : Dev) : unfunded (retire env t d).bgv = unfunded d.bgv := by
  have hpaid : unfunded (creditEst t.wclass t.est (if t.st == .running then chargeInstrs t d else d)).bgv = unfunded d.bgv := by
    split <;> simp [chargeInstrs]
  unfold retire
  dsimp only
  split
  · exact hpaid
  · split <;> simpa using hpaid

@[simp] theorem finishTask_unfunded (env : Env) (t : Task) (status : Byte) (result : Word) (more : Bool) (d : Dev) :
    unfunded (finishTask env t status result more d).bgv = unfunded d.bgv := by
  unfold finishTask
  dsimp only [ackEntries]
  split <;> simp

@[simp] theorem finishChain_unfunded (env : Env) (c : ChainCmd) (status : Byte) (d : Dev) :
    unfunded (finishChain env c status d).bgv = unfunded d.bgv := by
  unfold finishChain
  split
  · rfl
  · split <;> simp

@[simp] theorem runChain_unfunded (env : Env) (n : Nat) (d : Dev) : unfunded (runChain env n d).bgv = unfunded d.bgv := by
  induction n generalizing d with
  | zero => rfl
  | succ n ih =>
    unfold runChain
    split
    · rfl
    · next c rest _ =>
      have hbegun := beginChain_bgv env c (updCpt (fun x => { x with cmds := rest }) d)
      split
      · rfl
      · split
        · next h =>
          rw [h] at hbegun
          rw [ih, finishChain_unfunded]
          exact congrArg unfunded hbegun
        · next h =>
          rw [h] at hbegun
          exact congrArg unfunded hbegun

@[simp] theorem chainDone_unfunded (env : Env) (action : Nat) (status : Byte) (d : Dev) :
    unfunded (chainDone env action status d).bgv = unfunded d.bgv := by
  unfold chainDone
  split
  · rfl
  · split <;> simp [chainNext]

/-- A removal the drive runs itself may complete CHAIN_CONTROL commands, which charges their tasks and nothing else. -/
@[simp] theorem removeNow_unfunded (env : Env) (cause : Nat) (d : Dev) :
    unfunded (removeNow env cause d).bgv = unfunded d.bgv := by
  unfold removeNow; dsimp only; split <;> simp

end Sys2Proof.Proofs
end

section
/-! The governor (11): what each part of a window's boundary keeps, the boundary, and the governor's other commands. -/

namespace Sys2Proof.Proofs

open Sys2Proof.Machine Sys2Proof.Claims Sys2Proof.Laws

/-- What a window's boundary reads or sets once: the cap, the cap in force, WC1's grant, the window and its input energy. -/
def settings (b : Bgv) : Nat × Nat × Nat × Nat × Nat := (b.cap, b.capInForce, b.wc1, b.window, b.inputUj)

theorem settings_of_unfunded {b c : Bgv} (h : unfunded b = unfunded c) : settings b = settings c :=
  show settings (unfunded b) = settings (unfunded c) from congrArg settings h

/-- A change that leaves the settings, made for each of a list. -/
theorem foldl_settings {α : Type} (f : Dev → α → Dev) (hf : ∀ d x, settings (f d x).bgv = settings d.bgv) (l : List α)
    (d : Dev) : settings (l.foldl f d).bgv = settings d.bgv :=
  List.foldlRecOn (motive := fun e => settings e.bgv = settings d.bgv) l f rfl (fun e he x _ => (hf e x).trans he)

@[simp] theorem charge_settings (c units : Nat) (d : Dev) : settings (charge c units d).bgv = settings d.bgv :=
  settings_of_unfunded (charge_unfunded c units d)

@[simp] theorem removeNow_settings (env : Env) (cause : Nat) (d : Dev) :
    settings (removeNow env cause d).bgv = settings d.bgv :=
  settings_of_unfunded (removeNow_unfunded env cause d)

@[simp] theorem updWc_settings (c : Nat) (f : Wc → Wc) (d : Dev) : settings (updWc c f d).bgv = settings d.bgv := rfl
@[simp] theorem updTg_settings (g : Nat) (f : TGroup → TGroup) (d : Dev) : settings (updTg g f d).bgv = settings d.bgv := rfl
@[simp] theorem setBudget_settings (d : Dev) : settings (setBudget d).bgv = settings d.bgv := rfl

/-! ### The measurements of a window -/

@[simp] theorem takeFec_bgv (env : Env) (p : Nat) (x : Nat × Nat) (d : Dev) : (takeFec env p x d).bgv = d.bgv := by
  unfold takeFec
  dsimp only
  split <;> split <;> simp only [portDown_bgv, setCause_bgv, updPort_bgv]

@[simp] theorem takePaces_settings (env : Env) (cs : List Nat) (d : Dev) :
    settings (takePaces env cs d).bgv = settings d.bgv :=
  foldl_settings (fun d (x : Nat × Nat) => advancePace x.2 x.1 d) (fun _ _ => rfl) cs.zipIdx d

theorem takeMeas_settings (env : Env) (m : Meas) (d : Dev) :
    settings (takeMeas env m d).bgv = settings { d.bgv with inputUj := m.inputUj } := by
  unfold takeMeas
  dsimp only
  split <;> split <;> simp

/-! ### Limits: sensors, thermal groups and the supply -/

@[simp] theorem sensorFailed_settings (env : Env) (s : Nat) (d : Dev) : settings (sensorFailed env s d).bgv = settings d.bgv := by
  unfold sensorFailed; split
  · rfl
  · simp [settings]

@[simp] theorem takeTemps_settings (env : Env) (ts : List Temp) (d : Dev) :
    settings (takeTemps env ts d).bgv = settings d.bgv := by
  unfold takeTemps
  dsimp only
  split <;> exact foldl_settings (fun d s => sensorFailed env s d) (fun _ _ => sensorFailed_settings ..) _ _

@[simp] theorem setCeil_settings (env : Env) (g s : Nat) (h : Int) (c : Nat) (d : Dev) :
    settings (setCeil env g s h c d).bgv = settings d.bgv := by
  unfold setCeil
  dsimp only
  split
  · rw [event_bgv, setCause_bgv, updTg_settings]
  · split
    · rw [event_bgv, updTg_settings]
    · rfl

@[simp] theorem reachHard_settings (env : Env) (g s : Nat) (h : Int) (d : Dev) :
    settings (reachHard env g s h d).bgv = settings d.bgv := by
  unfold reachHard
  dsimp only
  split
  · exact setCeil_settings ..
  · split
    · rw [removeNow_settings, event_bgv, setCause_bgv, updTg_settings, setCeil_settings]
    · rw [event_bgv, setCause_bgv, updTg_settings, setCeil_settings]

@[simp] theorem thermalGroup_settings (env : Env) (d : Dev) (g : Nat) :
    settings (thermalGroup env d g).bgv = settings d.bgv := by
  unfold thermalGroup
  dsimp only
  split
  · split
    · rw [event_bgv, setCause_bgv]
      rfl
    · rfl
  · split
    · rw [reachHard_settings, updTg_settings]
    · split
      · rw [setCeil_settings, updTg_settings]
      · split
        · rw [setCeil_settings, updTg_settings]
        · rfl

@[simp] theorem blowerRise_settings (d : Dev) : settings (blowerRise d).bgv = settings d.bgv := by
  unfold blowerRise
  dsimp only
  split
  · rfl
  · split <;> rfl

@[simp] theorem takeSupply_settings (env : Env) (d : Dev) : settings (takeSupply env d).bgv = settings d.bgv := by
  unfold takeSupply
  dsimp only
  split
  · rfl
  · split
    · rw [event_bgv]
      rfl
    · rw [event_bgv, setCause_bgv]
      rfl

@[simp] theorem reportOver_settings (env : Env) (input : Nat) (d : Dev) :
    settings (reportOver env input d).bgv = settings d.bgv := by
  have hcause := congrArg settings (setCause_bgv env 6 8 d)
  unfold reportOver
  dsimp only
  generalize setCause env 6 8 d = e at hcause ⊢
  split <;> split
  case h_1.isTrue | h_2.isTrue =>
    rw [event_bgv]
    exact hcause
  case h_1.isFalse | h_2.isFalse => exact hcause

@[simp] theorem settleDebt_settings (env : Env) (d : Dev) (c : Nat) : settings (settleDebt env d c).bgv = settings d.bgv := by
  unfold settleDebt
  dsimp only
  split
  · rfl
  · split
    · rw [event_bgv, setCause_bgv, updWc_settings]
    · rfl

/-! ### The funding of a new window (R356, R358) -/

/-- A change of one class is what that class then is, and leaves the others. -/
theorem wcOf_updWc (c k : Nat) (hc : c < 16) (f : Wc → Wc) (d : Dev) :
    wcOf (updWc c f d) k = if k = c then f (wcOf d c) else wcOf d k := by
  by_cases h : k = c
  · subst h
    simp [wcOf, updWc, vget, vupd, hc]
  · simp [wcOf, updWc, vget, vupd, hc, h, Ne.symm h]

/-- Each of the first n classes is changed once. -/
theorem wcOf_foldl_updWc (f : Nat → Wc → Wc) (n : Nat) (hn : n ≤ 16) (d : Dev) (k : Nat) :
    wcOf ((List.range n).foldl (fun d c => updWc c (f c) d) d) k = if k < n then f k (wcOf d k) else wcOf d k := by
  induction n generalizing k with
  | zero => simp
  | succ n ih =>
    rw [List.range_succ, List.foldl_append, List.foldl_cons, List.foldl_nil, wcOf_updWc n k (by omega), ih (by omega),
      ih (by omega)]
    split
    · next h => simp [h]
    · next h => simp only [show k < n + 1 ↔ k < n by omega]

theorem foldl_updWc_unfunded (f : Nat → Wc → Wc) (l : List Nat) (d : Dev) :
    unfunded (l.foldl (fun d c => updWc c (f c) d) d).bgv = unfunded d.bgv :=
  List.foldlRecOn (motive := fun (e : Dev) => unfunded e.bgv = unfunded d.bgv) l _ rfl (fun _ he _ _ => he)

/-- Every class begins the new window with its funding, and e_avail is taken; but for the spare, the rest stays. -/
theorem fundClasses_changes (env : Env) (ovr : Bool) (r : List Share × Nat) (d : Dev) :
    ∃ (uj : Nat → Nat) (spare : Int), uj 1 = wc1Fund d ∧
      (fundClasses env ovr r d).bgv =
        { ((List.range 16).foldl (fun d c => updWc c (Wc.begin (uj c)) d) d).bgv with
          eAvailUj := some (d.bgv.effectiveW * 1000), spare := spare } :=
  ⟨_, _, rfl, rfl⟩

theorem fundClasses_unfunded (env : Env) (ovr : Bool) (r : List Share × Nat) (d : Dev) :
    unfunded (fundClasses env ovr r d).bgv = { unfunded d.bgv with eAvailUj := some (d.bgv.effectiveW * 1000) } := by
  obtain ⟨uj, spare, -, h⟩ := fundClasses_changes env ovr r d
  rw [h, ← foldl_updWc_unfunded (fun c => Wc.begin (uj c)) (List.range 16) d]
  rfl

/-- Every class has spent nothing in the new window, and WC1 is granted what R356 gives it. -/
theorem fundClasses_begins (env : Env) (ovr : Bool) (r : List Share × Nat) (d : Dev) :
    (∀ c, c < 16 → (wcOf (fundClasses env ovr r d) c).spend = 0) ∧
      (wcOf (fundClasses env ovr r d) 1).fund = 256 * (wc1Fund d : Int) := by
  obtain ⟨uj, spare, huj, h⟩ := fundClasses_changes env ovr r d
  have begun (c : Nat) (hc : c < 16) : wcOf (fundClasses env ovr r d) c = Wc.begin (uj c) (wcOf d c) := by
    have hfold := wcOf_foldl_updWc (fun c => Wc.begin (uj c)) 16 (Nat.le_refl _) d c
    rw [if_pos hc] at hfold
    rw [← hfold, wcOf, h]
    rfl
  exact ⟨fun c hc => by rw [begun c hc]; rfl, by rw [begun 1 (by decide), ← huj]; rfl⟩

/-! ### Migration and the blower's demand at a boundary (R371, R473) -/

@[simp] theorem coastDown_bgv (env : Env) (d : Dev) : (coastDown env d).bgv = d.bgv := by
  unfold coastDown; dsimp only; split <;> rfl

@[simp] theorem giveDemand_bgv (env : Env) (d : Dev) : (giveDemand env d).bgv = d.bgv := by
  unfold giveDemand; dsimp only; split <;> simp

@[simp] theorem noteEpoch_bgv (a : Arrival) (hash : Word) (d : Dev) : (noteEpoch a hash d).bgv = d.bgv := by
  unfold noteEpoch; split <;> rfl

@[simp] theorem migrate_bgv (env : Env) (g vat : Nat) (host : Bool) (d : Dev) : (migrate env g vat host d).bgv = d.bgv := by
  simp only [migrate, event_bgv]
  exact foldl_bgv _ (fun _ _ => noteEpoch_bgv ..) _ _

/-- Migration counts the windows each vat has read hot, and changes nothing else of the governor. -/
theorem governMigration_changes (env : Env) (d : Dev) :
    ∃ hot, (governMigration env d).bgv = { d.bgv with hotWindows := hot } := by
  have counted : ∃ hot, (countHot d).bgv = { d.bgv with hotWindows := hot } := ⟨_, rfl⟩
  unfold governMigration
  dsimp only
  split
  · exact counted
  · split
    · exact counted
    · split
      · exact counted
      · split
        · exact counted
        · rwa [migrate_bgv]

/-! ### The boundary (R350, R356) -/

/-- The window of the tick opens on the drive that has taken the measurements of the last one: the cap acts (R350, R364). -/
def openNew (env : Env) (input : Nat) (d : Dev) : Dev :=
  { d with bgv := { d.bgv with
    window := env.tick / 25000, fixedUj := fixedOf input d, peaks := ((wcOf d 0).spend :: d.bgv.peaks).take 16,
    capInForce := d.bgv.cap } }

theorem openNew_settings (env : Env) (input : Nat) (d : Dev) :
    settings (openNew env input d).bgv = (d.bgv.cap, d.bgv.cap, d.bgv.wc1, env.tick / 25000, d.bgv.inputUj) := rfl

/-- The drive at a boundary once the limits of the new window stand (R365, R369, R370). -/
def newLimits (env : Env) (m : Meas) (d : Dev) : Dev :=
  setBudget (takeSupply env (blowerRise ((List.range 6).foldl (thermalGroup env)
    (takeTemps env m.temps (openNew env m.inputUj (chargeOptics (takeMeas env m d)))))))

theorem newLimits_settings (env : Env) (m : Meas) (d : Dev) :
    settings (newLimits env m d).bgv = (d.bgv.cap, d.bgv.cap, d.bgv.wc1, env.tick / 25000, m.inputUj) := by
  have hmeas : settings (chargeOptics (takeMeas env m d)).bgv = settings { d.bgv with inputUj := m.inputUj } := by
    rw [← takeMeas_settings env m d]
    unfold chargeOptics
    split <;> simp
  simp only [newLimits, setBudget_settings, takeSupply_settings, blowerRise_settings,
    foldl_settings _ (thermalGroup_settings env), takeTemps_settings, openNew_settings]
  simp only [settings, Prod.mk.injEq] at hmeas
  obtain ⟨hcap, -, hwc1, -, hinput⟩ := hmeas
  rw [hcap, hwc1, hinput]

/-- The window that ends has overrun (R366). -/
def windowOverran (env : Env) (m : Meas) (d : Dev) : Bool := overran m.inputUj (chargeOptics (takeMeas env m d))

/-- The drive at a boundary once an overrun is reported. -/
def windowReported (env : Env) (m : Meas) (d : Dev) : Dev :=
  if windowOverran env m d then reportOver env m.inputUj (newLimits env m d) else newLimits env m d

/-- The drive at a boundary once the debts of the window that ends are settled (R360). -/
def windowSettled (env : Env) (m : Meas) (d : Dev) : Dev := (List.range 16).foldl (settleDebt env) (windowReported env m d)

/-- The drive at a boundary once every class begins the new window (R357, R358). -/
def windowFunded (env : Env) (m : Meas) (d : Dev) : Dev :=
  fundClasses env (windowOverran env m d) (shared env (windowReported env m d)) (windowSettled env m d)

/-- The drive with a setpoint for VCORE (R367). -/
def withSetpoint (x : Nat) (d : Dev) : Dev := { d with bgv := { d.bgv with setpoint := x } }

/-- The boundary in its steps, each by its name: what follows the funding is the setpoint, migration and the blower's demand. -/
theorem boundary_eq (env : Env) (m : Meas) (d : Dev) :
    boundary env m d = giveDemand env (governMigration env (rollSpend
      (withSetpoint (chooseSetpoint env m (windowOverran env m d) (windowFunded env m d)) (windowFunded env m d)))) := by
  unfold boundary
  extract_lets d1 ovr _ d2 d3 d4 d5 d6 d7
  have hmeas : chargeOptics (takeMeas env m d) = d1 := rfl
  have hopen : openNew env m.inputUj d1 = d2 := rfl
  have hovr : windowOverran env m d = ovr := rfl
  have hlimits : newLimits env m d = d4 := by rw [newLimits, hmeas, hopen]
  have hreported : windowReported env m d = d5 := by rw [windowReported, hovr, hlimits]
  have hfunded : windowFunded env m d = d7 := by rw [windowFunded, windowSettled, hovr, hreported]
  rw [hovr, hfunded]
  rfl

theorem windowSettled_settings (env : Env) (m : Meas) (d : Dev) :
    settings (windowSettled env m d).bgv = (d.bgv.cap, d.bgv.cap, d.bgv.wc1, env.tick / 25000, m.inputUj) := by
  rw [windowSettled, foldl_settings _ (settleDebt_settings env), windowReported]
  split <;> simp [newLimits_settings]

/-- What a boundary makes of the governor: the classes are funded under the new limits, the setpoint is chosen, and migration
counts the hot vats. -/
theorem boundary_changes (env : Env) (m : Meas) (d : Dev) :
    ∃ hot, (boundary env m d).bgv = { (windowFunded env m d).bgv with
      setpoint := chooseSetpoint env m (windowOverran env m d) (windowFunded env m d), hotWindows := hot } := by
  rw [boundary_eq, giveDemand_bgv]
  generalize windowFunded env m d = e
  exact governMigration_changes env _

/-- A boundary opens the window of its tick, takes the cap, and e_avail is that of the budget in force (R350, R356, R364). -/
theorem boundary_settings (env : Env) (m : Meas) (d : Dev) :
    settings (boundary env m d).bgv = (d.bgv.cap, d.bgv.cap, d.bgv.wc1, env.tick / 25000, m.inputUj) ∧
      (boundary env m d).bgv.eAvailUj = some ((boundary env m d).bgv.effectiveW * 1000) := by
  obtain ⟨hot, h⟩ := boundary_changes env m d
  have hf : unfunded (windowFunded env m d).bgv = _ := fundClasses_unfunded ..
  have hs := windowSettled_settings env m d
  rw [h]
  generalize windowFunded env m d = e at hf
  generalize windowSettled env m d = e' at hf hs
  exact ⟨(congrArg settings hf).trans hs, (congrArg Bgv.eAvailUj hf).trans
    (congrArg (fun b : Bgv => some (b.effectiveW * 1000)) hf).symm⟩

/-- Every class has spent nothing in the window a boundary opens, and WC1 is granted what BGV_WC1 asks (R356, R358). -/
theorem boundary_funding (env : Env) (m : Meas) (d : Dev) :
    (∀ c, c < 16 → (wcOf (boundary env m d) c).spend = 0) ∧
      (wcOf (boundary env m d) 1).fund = 256 * ((max 1000 d.bgv.wc1 : Nat) : Int) := by
  obtain ⟨hot, h⟩ := boundary_changes env m d
  have hwc (c : Nat) : wcOf (boundary env m d) c = wcOf (windowFunded env m d) c := by
    rw [wcOf, h]
    generalize windowFunded env m d = e
    rfl
  have hwc1 : wc1Fund (windowSettled env m d) = max 1000 d.bgv.wc1 := by
    have hs := windowSettled_settings env m d
    generalize windowSettled env m d = e at hs ⊢
    exact congrArg (fun x => max 1000 x.2.2.1) hs
  simp only [hwc, ← hwc1]
  exact fundClasses_begins ..

/-- In DRAIN the setpoint is 0.75 V (R460). -/
theorem boundary_setpoint_drain {env : Env} (hst : env.pw.st = .drain) (m : Meas) (d : Dev) :
    (boundary env m d).bgv.setpoint = 50 := by
  obtain ⟨hot, h⟩ := boundary_changes env m d
  rw [h]
  simp [chooseSetpoint, hst]

/-! ### The commands of the governor, each where its condition holds -/

theorem nextDev_of_eq {i : Instr} {s : State} {d e : Dev} (h : NextDev i s d) (he : d = e) : NextDev i s e := he ▸ h

theorem windowBoundary_due {s : State} (hg : governs s.env = true) (hw : s.dev.bgv.window < s.env.tick / 25000) (m : Meas) :
    NextDev (.windowBoundary m) s (boundary s.env m s.dev) := by
  change execWindowBoundary m s = _
  simp [execWindowBoundary, onDev_next, hg, hw]

theorem windowBoundary_not_due {s : State} (h : governs s.env = false ∨ s.env.tick / 25000 ≤ s.dev.bgv.window) (m : Meas) :
    NextDev (.windowBoundary m) s s.dev := by
  change execWindowBoundary m s = _
  rcases h with h | h
  · simp [execWindowBoundary, onDev_next, h]
  · simp [execWindowBoundary, onDev_next, Nat.not_lt.mpr h]

theorem bgvCapWrite_next {s : State} (h : hostAlive s.env = true) (v : W32) :
    NextDev (.bgvCapWrite v) s (setCap s.env (fld v 0 9) s.dev) := by
  change execBgvCapWrite v s = _
  simp [execBgvCapWrite, onDev_next, h]

theorem bgvGroupMove_next {s : State} (h : hostAlive s.env = true) (v : W32) :
    NextDev (.bgvGroupMove v) s (groupMove v s.env s.dev) := by
  change execBgvGroupMove v s = _
  simp [execBgvGroupMove, onDev_next, h]

theorem vcoreStep_due {s : State} (hg : governs s.env = true) (ht : s.dev.bgv.lastStep + 250 ≤ s.env.tick)
    (hv : s.dev.bgv.vcore ≠ s.dev.bgv.setpoint) :
    NextDev .vcoreStep s { s.dev with bgv := { s.dev.bgv with
      vcore := if s.dev.bgv.vcore < s.dev.bgv.setpoint then s.dev.bgv.vcore + 1 else s.dev.bgv.vcore - 1,
      lastStep := s.env.tick } } := by
  change execVcoreStep s = _
  simp [execVcoreStep, onDev_next, hv, hg, Nat.not_lt.mpr ht]

theorem vcoreStep_at_setpoint {s : State} (hv : s.dev.bgv.vcore = s.dev.bgv.setpoint) : NextDev .vcoreStep s s.dev := by
  change execVcoreStep s = _
  simp [execVcoreStep, onDev_next, hv]

theorem blowerBudget_next {s : State} (hg : governs s.env = true) (hh : s.dev.bld.healthy = false)
    (hf : s.dev.bgv.blowerFault = false) : NextDev .blowerBudget s (applyBlowerBudget s.env s.dev) := by
  change execBlowerBudget s = _
  simp [execBlowerBudget, onDev_next, hg, hh, hf]

/-! ### The power cap (R364) -/

theorem setCap_same (env : Env) {w : Nat} {d : Dev} (h : w = d.bgv.cap) : setCap env w d = d := if_pos h

/-- A cap at or above the one in force waits for the boundary. -/
theorem setCap_raised (env : Env) {w : Nat} {d : Dev} (hne : w ≠ d.bgv.cap) (h : d.bgv.capInForce ≤ w) :
    setCap env w d = event env 0x060C 1 clsPower 0 w d.bgv.cap 0 { d with bgv := { d.bgv with cap := w } } :=
  (if_neg hne).trans (congrArg (event env 0x060C 1 clsPower 0 w d.bgv.cap 0) (if_neg (Nat.not_lt.mpr h)))

/-- A cap below the one in force acts at once, and funding that is left is scaled where the acting cap falls with it. -/
theorem setCap_lowered (env : Env) {w : Nat} {d : Dev} (hne : w ≠ d.bgv.cap) (h : w < d.bgv.capInForce) :
    let capped := setBudget { d with bgv := { d.bgv with cap := w, capInForce := w } }
    setCap env w d = event env 0x060C 1 clsPower 0 w d.bgv.cap 0
      (if min w d.bgv.supplyW < min d.bgv.capInForce d.bgv.supplyW
       then scaleFunding (min w d.bgv.supplyW) (min d.bgv.capInForce d.bgv.supplyW) capped else capped) := by
  exact (if_neg hne).trans (congrArg (event env 0x060C 1 clsPower 0 w d.bgv.cap 0) (if_pos h))

/-! ### Moves of a group (R372) -/

section
variable {v : W32} {d : Dev}

theorem groupMove_without_go (env : Env) (h : bitOf v 31 = false) : groupMove v env d = d := by simp [groupMove, h]

theorem groupMove_no_vat (env : Env) (h : bitOf v 31 = true) (hv : 11 < fld v 0 4) :
    groupMove v env d = updGroup d.bgv.groupSel (fun x => { x with lastMove := 3 }) d := by
  simp [groupMove, h, hv]

theorem groupMove_same_vat (env : Env) (h : bitOf v 31 = true) (hv : fld v 0 4 ≤ 11)
    (hs : (groupOf d d.bgv.groupSel).vat = fld v 0 4) :
    groupMove v env d = updGroup d.bgv.groupSel (fun x => { x with pinned := bitOf v 4 }) d := by
  simp [groupMove, h, Nat.not_lt.mpr hv, hs]

theorem groupMove_draining (env : Env) (h : bitOf v 31 = true) (hv : fld v 0 4 ≤ 11)
    (hs : (groupOf d d.bgv.groupSel).vat ≠ fld v 0 4) (hd : (groupOf d d.bgv.groupSel).draining = true) :
    groupMove v env d = updGroup d.bgv.groupSel (fun x => { x with lastMove := 2 }) d := by
  simp [groupMove, h, Nat.not_lt.mpr hv, hs, hd]

theorem groupMove_moves (env : Env) (h : bitOf v 31 = true) (hv : fld v 0 4 ≤ 11)
    (hs : (groupOf d d.bgv.groupSel).vat ≠ fld v 0 4) (hd : (groupOf d d.bgv.groupSel).draining = false) :
    groupMove v env d = migrate env d.bgv.groupSel (fld v 0 4) true (updGroup d.bgv.groupSel (fun x => { x with lastMove := 1 })
      (updGroup d.bgv.groupSel (fun x => { x with pinned := bitOf v 4 }) d)) := by
  simp [groupMove, h, Nat.not_lt.mpr hv, hs, hd]

end

/-! ### Failed sensors (R369) -/

/-- The drive with a sensor that has no reading reported and listed as failed. -/
def lostSensor (env : Env) (n : Nat) (d : Dev) : Dev :=
  let unread : Dev := { d with bgv := { d.bgv with temps := d.bgv.temps.set n none } }
  event env 0x0607 4 clsHardware 0 n 0 0
    (setCause env 6 0x20 { unread with bgv := { unread.bgv with failed := d.bgv.failed ++ [n] } })

theorem lostSensor_tg (env : Env) (n : Nat) (d : Dev) : (lostSensor env n d).bgv.tg = d.bgv.tg := by simp [lostSensor]

/-- With a sensor lost, its group is taken to read the hottest of what it then reads, and HARD is acted on; INLET has none. -/
theorem sensorFail_next {s : State} {n : Nat} (hg : governs s.env = true) (hn : n < 76) (hf : n ∉ s.dev.bgv.failed) :
    let d := lostSensor s.env n s.dev
    let k := sensorGroup n
    NextDev (.sensorFail n) s
      (if k ≠ 5 ∧ 16 * ((vget s.dev.bgv.tg k (tgroupDefault k)).hard : Int) ≤ (hottest d k).2
       then setBudget (reachHard s.env k (hottest d k).1 (hottest d k).2 d) else d) := by
  have hlost : sensorFailed s.env n { s.dev with bgv := { s.dev.bgv with temps := s.dev.bgv.temps.set n none } } =
      lostSensor s.env n s.dev := by
    simp [sensorFailed, lostSensor, hf]
  change execSensorFail n s = _
  simp only [execSensorFail, onDev_next, hlost, lostSensor_tg, hn, hg, decide_true, Bool.and_eq_true,
    decide_eq_true_eq, and_self, if_true]

/-- Settles O49: each command by what it does where its condition holds; the boundary by what every step of it keeps. -/
theorem governor : Obligations.Governor := by
  intro s m v n b w g vat pinned capped unread failed budget
  refine ⟨fun hg hw => ?boundary, fun h => windowBoundary_not_due h m, fun hh => ⟨?same, ?raised, ?lowered, ?move, ?noGo⟩,
    fun hg ht hv => vcoreStep_due hg ht hv, vcoreStep_at_setpoint, fun hg hn hf => ⟨?inlet, ?group⟩,
    fun hg hh hf => blowerBudget_next hg hh hf⟩
  case boundary =>
    obtain ⟨hs, he⟩ := boundary_settings s.env m s.dev
    obtain ⟨hspend, hfund⟩ := boundary_funding s.env m s.dev
    simp only [settings, Prod.mk.injEq] at hs
    obtain ⟨-, hcap, -, hwindow, hinput⟩ := hs
    exact ⟨_, windowBoundary_due hg hw m, rfl, hwindow, hinput, hcap, he, hfund, hspend,
      fun hst => boundary_setpoint_drain hst m s.dev⟩
  case same => exact fun h => nextDev_of_eq (bgvCapWrite_next hh v) (setCap_same s.env h)
  case raised => exact fun hne h => nextDev_of_eq (bgvCapWrite_next hh v) (setCap_raised s.env hne h)
  case lowered => exact fun hne h => nextDev_of_eq (bgvCapWrite_next hh v) (setCap_lowered s.env hne h)
  case move =>
    have hmove := bgvGroupMove_next hh v
    exact fun hgo => ⟨fun hv => nextDev_of_eq hmove (groupMove_no_vat s.env hgo hv),
      fun hv hs => nextDev_of_eq hmove (groupMove_same_vat s.env hgo hv hs),
      fun hv hs hd => nextDev_of_eq hmove (groupMove_draining s.env hgo hv hs hd),
      fun hv hs hd => nextDev_of_eq hmove (groupMove_moves s.env hgo hv hs hd)⟩
  case noGo => exact fun hgo => nextDev_of_eq (bgvGroupMove_next hh v) (groupMove_without_go s.env hgo)
  case inlet => exact fun h5 => nextDev_of_eq (sensorFail_next hg hn hf) (if_neg fun h => h.1 h5)
  case group =>
    exact fun h5 => ⟨fun h => nextDev_of_eq (sensorFail_next hg hn hf) (if_neg fun h' => Int.not_le.mpr h h'.2),
      fun h => nextDev_of_eq (sensorFail_next hg hn hf) (if_pos ⟨h5, h⟩)⟩

end Sys2Proof.Proofs
end

section
/-! A completion entry (04): the bytes it stores, field by field, and what it makes of its pair (R112, R113, R115). -/

namespace Sys2Proof.Proofs

open Sys2Proof.Machine Sys2Proof.Claims Sys2Proof.Laws

/-! ### Byte strings in memory (R8) -/

/-- The little-endian bytes of a number spell it, up to their count. -/
theorem leNat_natLe (n v : Nat) : leNat (natLe n v) = v % 256 ^ n := by
  induction n generalizing v with
  | zero => simp [natLe, leNat, Nat.mod_one]
  | succ n ih =>
    simp only [natLe, leNat, ih, BitVec.toNat_ofNat, Nat.reducePow]
    rw [Nat.pow_succ', Nat.mod_mul]

@[simp] theorem natLe_length (n v : Nat) : (natLe n v).length = n := by
  induction n generalizing v with
  | zero => rfl
  | succ n ih => simp [natLe, ih]

/-- A part of the bytes stored reads back. -/
theorem memBytes_memStore (m : Mem) (a : Nat) (bs : List Byte) (n k : Nat) (h : n + k ≤ bs.length) :
    memBytes (memStore m a bs) (a + n) k = (bs.drop n).take k := by
  refine List.ext_getElem (by simp [memBytes]; omega) fun i hi hi' => ?_
  have hik : i < k := by simpa [memBytes] using hi
  have hin : n + i < bs.length := by omega
  simp [memBytes, Nat.add_assoc, memRead_store _ _ _ _ hin, hin]

/-! ### Queue pairs -/

/-- A change of a pair that exists is what the pair then is. -/
theorem pairOf_updPair_same {q : Nat} {d : Dev} {p : Pair} (h : pairOf d q = some p) (f : Pair → Pair) :
    pairOf (updPair q f d) q = some (f p) := by
  simp only [pairOf] at h
  simp only [updPair, h]
  exact tblGet_tblSet_same ..

@[simp] theorem updPair_hmem (q : Nat) (f : Pair → Pair) (d : Dev) : (updPair q f d).hqe.hmem = d.hqe.hmem := by
  unfold updPair
  split <;> rfl

/-- A signal of a pair's vector writes no host memory, and of the pair it starts coalescing anew (R118). -/
theorem signalPair_changes {q : Nat} {d : Dev} {p : Pair} (h : pairOf d q = some p) :
    (signalPair q d).hqe.hmem = d.hqe.hmem ∧ pairOf (signalPair q d) q = some { p with aggN := 0, aggFirst := none } := by
  have hp := pairOf_updPair_same h (fun p => { p with aggN := 0, aggFirst := none })
  simp only [signalPair, h]
  split
  · exact ⟨by simp, by rw [pairOf, sendMsi_hqe_pairs]; exact hp⟩
  · exact ⟨by simp, hp⟩

/-- The drive with its host memory replaced. -/
def withHmem (m : Mem) (d : Dev) : Dev := { d with hqe := { d.hqe with hmem := m } }

/-- A pair as a completion entry leaves it: the tail moved on, PHASE inverted at the wrap, one entry more unreleased and one
command less outstanding, coalescing counted (R113, R115, R118). -/
def cqePosted (p : Pair) (n : Nat) (first : Option Nat) : Pair :=
  { p with cqTail := if p.cqTail + 1 = p.size then 0 else p.cqTail + 1,
           phase := if p.cqTail + 1 = p.size then !p.phase else p.phase,
           deferred := false, outstanding := p.outstanding - 1, unreleased := p.unreleased + 1, aggN := n, aggFirst := first }

/-- A completion entry stores its 16 bytes at the CQ tail, and moves its pair on (R112, R113, R115). -/
theorem writeCqe_changes (env : Env) {q : Nat} (cid : Nat) (status : Byte) (result : Word) (more : Bool) {d : Dev} {p : Pair}
    (h : pairOf d q = some p) :
    (writeCqe env q cid status result more d).hqe.hmem = memStore d.hqe.hmem (p.cqBase.toNat + 16 * p.cqTail)
      (cqeBytes result p.head cid status p.phase p.deferred more q) ∧
    ∃ n first, pairOf (writeCqe env q cid status result more d) q = some (cqePosted p n first) := by
  generalize hm : memStore d.hqe.hmem (p.cqBase.toNat + 16 * p.cqTail)
    (cqeBytes result p.head cid status p.phase p.deferred more q) = m
  have hmoved (f : Pair → Pair) : (updPair q f (withHmem m d)).hqe.hmem = m ∧
      pairOf (updPair q f (withHmem m d)) q = some (f p) :=
    ⟨updPair_hmem .., pairOf_updPair_same (d := withHmem m d) h f⟩
  simp only [writeCqe, h, hm]
  split
  · obtain ⟨hmem, hpair⟩ := hmoved _
    obtain ⟨hsame, hsignalled⟩ := signalPair_changes hpair
    exact ⟨hsame.trans hmem, 0, none, hsignalled⟩
  · obtain ⟨hmem, hpair⟩ := hmoved _
    exact ⟨hmem, _, _, hpair⟩

theorem cqeBytes_length (result : Word) (sqHead cid : Nat) (status : Byte) (phase deferred more : Bool) (sqid : Nat) :
    (cqeBytes result sqHead cid status phase deferred more sqid).length = 16 := by
  simp [cqeBytes]

/-- PHASE, DEFERRED and MORE fit the byte of CFLAGS. -/
theorem cflags_toNat (phase deferred more : Bool) :
    (BitVec.ofNat 8 (b2n phase + 2 * b2n deferred + 4 * b2n more)).toNat = b2n phase + 2 * b2n deferred + 4 * b2n more := by
  cases phase <;> cases deferred <;> cases more <;> rfl

/-- Settles O30: what a completion entry stores, field by field, and what it makes of its pair. -/
theorem completionEntries : Obligations.CompletionEntries := by
  intro env q cid status result more d p h d' at_ get
  obtain ⟨hmem, n, first, hpair⟩ := writeCqe_changes env cid status result more h
  have hlen := cqeBytes_length result p.head cid status p.phase p.deferred more q
  have field (n k : Nat) (hk : n + k ≤ 16) :
      get n k = leNat (((cqeBytes result p.head cid status p.phase p.deferred more q).drop n).take k) := by
    simp only [get, d', hmem, at_, memBytes_memStore _ _ _ n k (hlen ▸ hk)]
  refine ⟨fun a ha => ?frame, ?result, ?head, ?cid, ?status, ?cflags, ?sqid, _, hpair, rfl, rfl, rfl, rfl, rfl⟩
  case frame => exact hmem ▸ memRead_store_out _ _ _ _ (hlen ▸ ha)
  case result => exact (field 0 8 (by decide)).trans ((leNat_natLe 8 _).trans (Nat.mod_eq_of_lt result.isLt))
  case head => exact (field 8 2 (by decide)).trans (leNat_natLe 2 p.head)
  case cid => exact (field 10 2 (by decide)).trans (leNat_natLe 2 cid)
  case status => exact field 12 1 (by decide)
  case cflags => exact (field 13 1 (by decide)).trans (cflags_toNat ..)
  case sqid => exact (field 14 2 (by decide)).trans (leNat_natLe 2 q)

end Sys2Proof.Proofs
end

section
/-! The couch engine's commands (10), and how reads of host memory end (04): each command where its condition holds. -/

namespace Sys2Proof.Proofs

open Sys2Proof.Machine Sys2Proof.Claims Sys2Proof.Laws

/-- A meaning over the drive alone answers the drive it makes. -/
theorem onDev_eq {s : State} {f : Env → Dev → Dev} {d : Dev} (h : f s.env s.dev = d) :
    onDev s f = .next { s with dev := d } := by
  rw [onDev_next, h]

/-! ### Posts and channels (R310–R312, R323) -/

/-- A change of a channel is what it makes of the channel as it stands. -/
theorem updChan_congr {c : Nat} {f g : Chan → Chan} {d : Dev} (h : f (chanOf d c) = g (chanOf d c)) :
    updChan c f d = updChan c g d := by
  have hv : vupd d.cch.chans c f = vupd d.cch.chans c g := by
    unfold vupd
    cases hc : d.cch.chans[c]? with
    | none => rfl
    | some x => simp only [chanOf, vget, hc, Option.getD_some] at h; simp only [h]
  simp only [updChan, hv]

/-- COPY: the post joins the pending list at its priority, a user post's no higher than its task's. -/
theorem copy_next {s : State} {p : PostRef} {t : Task} {x : Post} (h : postOf s.dev p 0 0 = some (t, x)) :
    NextDev (.copy p) s (workPost p { s.dev with cch := { s.dev.cch with pend := s.dev.cch.pend ++
      [⟨if t.program = 0 then fld x.desc 8 3 else min (fld x.desc 8 3) t.prio, t.program == 0, p, x.desc, x.addr,
        rightsOf s.dev t⟩] } }) := by
  change execCopy p s = _
  simp only [execCopy, unitStep, onDev_next, h, Task.vendor, beq_iff_eq]

/-- An idle channel takes the post that is its next, and begins its descriptor. -/
theorem channelTakePost_next {s : State} {ch : Nat} (hch : ch < 64) {e : Pend} (hidle : (chanOf s.dev ch).st = .idle)
    (hnext : nextPend s.dev ch = some e) :
    NextDev (.channelTakePost ch) s (beginDesc s.env ch e.desc (updChan ch (fun c =>
      { st := .fetch, prio := e.prio, vendor := e.vendor, eng := e.post.eng, ctx := e.post.ctx, tag := e.post.tag,
        descAddr := e.addr, rights := e.rights, records := c.records })
      { s.dev with cch := { s.dev.cch with pend := s.dev.cch.pend.filter (fun y => y.post != e.post) } })) := by
  change execChannelTakePost ch s = _
  have hgo : (decide (64 ≤ ch) || (chanOf s.dev ch).st != .idle) = false := by simp [hch, hidle]
  simp only [execChannelTakePost, onDev_next, hgo, Bool.false_eq_true, if_false, hnext]

/-- A channel that fetches reads NEXT, and begins the descriptor or halts as the checks of R322 and R324 say. -/
theorem linkedDescriptorRead_next {s : State} {ch : Nat} (hch : ch < 64) {t : Task} (hfetch : (chanOf s.dev ch).st = .fetch)
    (ht : taskAt s.dev (chanOf s.dev ch).eng (chanOf s.dev ch).ctx = some t) :
    let desc := descAt s.dev t (chanOf s.dev ch).descAddr 64
    NextDev (.linkedDescriptorRead ch) s
      (if linkOk s.dev t (chanOf s.dev ch).rights (chanOf s.dev ch).descAddr desc then beginDesc s.env ch desc s.dev
       else badLink s.env ch s.dev) := by
  change execLinkedDescriptorRead ch s = _
  have hgo : (decide (64 ≤ ch) || (chanOf s.dev ch).st != .fetch) = false := by simp [hch, hfetch]
  simp only [execLinkedDescriptorRead, onDev_next, hgo, Bool.false_eq_true, if_false, ht]

/-! ### Beats (R325–R328, R332) -/

/-- The drive with the beat path granted to a channel for a beat of n bytes. -/
def beatCounted (ch prio n : Nat) (d : Dev) : Dev :=
  { d with cch := { d.cch with beats := d.cch.beats + 1, bytes := d.cch.bytes + n, lastGrant := ch,
                               grants := vset d.cch.grants prio ch } }

/-- A channel with a beat of n bytes written: its reads of that position are done, what it wrote over its own source is kept. -/
def beatWritten (tick n : Nat) (was : List Host.Cell) (c : Chan) : Chan :=
  { c with done := c.done + n, aged := false, readySince := tick, old := c.old ++ was,
           remain := if cdHostSrc c.desc then c.remain else c.remain - n,
           reads := c.reads.filter (fun r => r.pos != c.done) }

/-- The channel granted the beat path writes its beat, then issues its next reads and settles. -/
theorem beatGrant_next {s : State} {ch : Nat} {bs : List Byte} (hpick : pickChan (refill s.env s.dev) = some ch) :
    let d := refill s.env s.dev
    let c := chanOf d ch
    let out := beatBytes c bs d
    sourceBad d c false = false → ¬ (cdHostDst c.desc = true ∧ busState d = .off) → beatData d c = some bs →
    NextDev (.beatGrant false) s (settleChan s.env ch (issueReads s.env ch 64
      (updChan ch (beatWritten s.env.tick out.1.length (overwritten d c out.1.length))
        (beatCounted ch c.prio out.1.length (storeBeat c out.1 (preempt ch out.2)))))) := by
  intro d c out hsource hbus hdata
  have hbus' : (cdHostDst c.desc && busState d == .off) = false := by simpa using hbus
  change execBeatGrant false s = _
  unfold execBeatGrant
  refine onDev_eq ?_
  dsimp only
  rw [hpick]
  dsimp only
  rw [if_neg (by exact ne_true_of_eq_false hsource), if_neg (by exact ne_true_of_eq_false hbus'), hdata]
  rfl

/-- Each byte of a beat is what its source holds, or held before the descriptor wrote over it. -/
theorem beatBytes_getElem? (c : Chan) (bs : List Byte) (d : Dev) {i : Nat} {b : Byte} (hb : bs[i]? = some b) :
    let a := ((srcSide c.desc).at c.done).toNat + i
    (oldByte c.old a = none → (beatBytes c bs d).1[i]? = some b) ∧
    (∀ v, oldByte c.old a = some v → (beatBytes c bs d).1[i]? = some b ∨ (beatBytes c bs d).1[i]? = some v) := by
  intro a
  unfold beatBytes
  split
  · exact ⟨fun _ => hb, fun _ _ => .inl hb⟩
  · simp only [mixOld, List.getElem?_mapIdx, hb, Option.map_some]
    split
    · exact ⟨fun h => by rw [h]; rfl, fun v h => .inr (by rw [h]; rfl)⟩
    · exact ⟨fun _ => rfl, fun _ _ => .inl rfl⟩

/-- A beat waiting AGE_TICKS ages its channel. -/
theorem ageTicksExpiry_next {s : State} {ch : Nat} (hch : ch < 64) (hready : beatReady s.dev (chanOf s.dev ch) = true)
    (hage : (chanOf s.dev ch).readySince + ageTicks s.dev ≤ s.env.tick) :
    NextDev (.ageTicksExpiry ch) s (updChan ch (fun q => { q with aged := true }) s.dev) := by
  change execAgeTicksExpiry ch s = _
  simp [execAgeTicksExpiry, onDev_next, hch, hready, hage]

/-! ### Timeouts and late completions (R339–R341) -/

/-- A TIMEOUT beyond the PCIe completion timeout never fires. -/
theorem descTimeout_beyond_completion {s : State} {ch : Nat}
    (h : ctoTicks s.dev < 250 * cdTimeout (chanOf s.dev ch).desc) : NextDev (.descTimeout ch) s s.dev := by
  change execDescTimeout ch s = _
  simp [execDescTimeout, onDev_next, h]

/-- The first read beyond TIMEOUT fails its beat with 0x10. -/
theorem descTimeout_next {s : State} {ch : Nat} (hch : ch < 64) {r : HRead} (hrun : (chanOf s.dev ch).st = .run)
    (hset : cdTimeout (chanOf s.dev ch).desc ≠ 0) (hcto : 250 * cdTimeout (chanOf s.dev ch).desc ≤ ctoTicks s.dev)
    (hr : (chanOf s.dev ch).reads.find?
      (fun q => q.data.isNone && q.tick + 250 * cdTimeout (chanOf s.dev ch).desc ≤ s.env.tick) = some r) :
    NextDev (.descTimeout ch) s (settleChan s.env ch (failBeat ch r.pos 0x10 s.dev)) := by
  change execDescTimeout ch s = _
  simp only [execDescTimeout, onDev_next, hr]
  rw [if_neg (by simp [hrun, hset]; omega)]

/-- The completion timeout of a late read frees its record. -/
theorem completionTimeout_record {s : State} {ch pos : Nat} {l : LateRead}
    (h : (chanOf s.dev ch).records.find? (fun q => q.pos == pos && q.tick + ctoTicks s.dev ≤ s.env.tick) = some l) :
    NextDev (.completionTimeout (.couch ch pos)) s
      (recordsFreed s.env ch (updChan ch (fun q => { q with records := q.records.erase l }) s.dev)) := by
  change execCompletionTimeout (.couch ch pos) s = _
  simp [execCompletionTimeout, onDev_next, couchReadTimeout, h]

/-- Data for the one record it can be for is discarded, counted and reported, and the record is free. -/
theorem lateCompletion_next {s : State} {ch pos : Nat} {l : LateRead}
    (h : (chanOf s.dev ch).records.filter (fun q => q.pos == pos && s.env.tick < q.tick + ctoTicks s.dev) = [l]) :
    NextDev (.lateCompletion ch pos) s (lateData s.env ch l s.dev) := by
  change execLateCompletion ch pos s = _
  simp [execLateCompletion, onDev_next, h]

/-! ### Reads of a channel (R97, R326) -/

section
variable {s : State} {ch pos : Nat} {r : HRead}
  (hr : (chanOf s.dev ch).reads.find? (fun q => q.pos == pos && q.data.isNone) = some r)
include hr

/-- Data in time is staged. -/
theorem couchRead_data (hin : s.env.tick < r.tick + ctoTicks s.dev) (bs : List Byte) :
    NextDev (.hostReadCompletion (.couch ch pos) (.ok bs)) s (updChan ch (fun c => { c with
      readySince := if pos = (chanOf s.dev ch).done then s.env.tick else c.readySince,
      reads := c.reads.map (fun q => if q.pos == pos then { q with data := some (.ok bs) } else q) }) s.dev) := by
  change execHostReadCompletion (.couch ch pos) (.ok bs) s = _
  unfold execHostReadCompletion
  refine onDev_eq ?_
  simp only [couchReadDone, hr, Nat.not_le.mpr hin, if_false]
  exact updChan_congr rfl

/-- A failure in time fails the beat. -/
theorem couchRead_fail (hin : s.env.tick < r.tick + ctoTicks s.dev) (err : HostErr) :
    NextDev (.hostReadCompletion (.couch ch pos) (.fail err)) s (readFailed s.env ch pos (errCode err) s.dev) := by
  change execHostReadCompletion (.couch ch pos) (.fail err) s = _
  simp [execHostReadCompletion, onDev_next, couchReadDone, hr, Nat.not_le.mpr hin]

/-- Past the completion timeout the beat fails, whatever comes. -/
theorem couchRead_late (hout : r.tick + ctoTicks s.dev ≤ s.env.tick) (rd : Rd) :
    NextDev (.hostReadCompletion (.couch ch pos) rd) s (readFailed s.env ch pos 0x11 s.dev) := by
  change execHostReadCompletion (.couch ch pos) rd s = _
  simp [execHostReadCompletion, onDev_next, couchReadDone, hr, hout]

/-- The completion timeout fails the beat, where no record of a late read is what it ends. -/
theorem completionTimeout_couch (hout : r.tick + ctoTicks s.dev ≤ s.env.tick)
    (hnone : (chanOf s.dev ch).records.find? (fun q => q.pos == pos && q.tick + ctoTicks s.dev ≤ s.env.tick) = none) :
    NextDev (.completionTimeout (.couch ch pos)) s (readFailed s.env ch pos 0x11 s.dev) := by
  change execCompletionTimeout (.couch ch pos) s = _
  simp [execCompletionTimeout, onDev_next, couchReadTimeout, hnone, hr, hout]

end

/-! ### Reads of the map lease (R97, R126, R127) -/

/-- The checks a page fails, as numbers (R126). -/
theorem pageChecks_eq (gen page : Nat) (bs : List Byte) :
    pageChecks gen page bs = (if (crcStd (bs.take 2060)).toNat = leAt bs 2060 4 then 0 else 1) +
      (if leAt bs 2056 4 = gen then 0 else 2) + (if leAt bs 2048 8 = page then 0 else 4) := by
  simp only [pageChecks, boolBits, b2n, bne_iff_ne, ne_eq, ite_not]
  split <;> split <;> split <;> rfl

/-- An active lease that is lost is active no more, and keeps why. -/
theorem loseLease_lease (env : Env) (reason : Nat) {d : Dev} (h : d.hqe.lease.active = true) :
    (loseLease env reason d).hqe.lease.active = false ∧ (loseLease env reason d).hqe.lease.lastReason = reason := by
  simp [loseLease, h]

section
variable {s : State} {page : Nat} {l : Nat × Nat} (hl : s.dev.hqe.lease.reads.find? (fun q => q.1 == page) = some l)
include hl

/-- A page in time ends its read where it passes its checks; else it is rebuilt and the read repeated. -/
theorem leaseRead_data (hin : s.env.tick < l.2 + ctoTicks s.dev) (bs : List Byte) :
    let b := slice bs 0 2112
    let bits := pageChecks s.dev.hqe.lease.gen.toNat page b
    NextDev (.hostReadCompletion (.lease page) (.ok bs)) s
      (if bits = 0 ∧ pageTagsOk s.dev page b = true then leaseReadEnds page s.dev
       else repeatRead s.env page (badPage s.env page bits s.dev)) := by
  change execHostReadCompletion (.lease page) (.ok bs) s = _
  simp [execHostReadCompletion, onDev_next, leaseRead, hl, Nat.not_le.mpr hin]

/-- A failure in time ends the lease. -/
theorem leaseRead_fail (hin : s.env.tick < l.2 + ctoTicks s.dev) (err : HostErr) :
    NextDev (.hostReadCompletion (.lease page) (.fail err)) s (loseLease s.env 2 (noteAer (errCode err) s.dev)) := by
  change execHostReadCompletion (.lease page) (.fail err) s = _
  simp [execHostReadCompletion, onDev_next, leaseRead, hl, Nat.not_le.mpr hin]

/-- Past the completion timeout the lease ends, whatever comes. -/
theorem leaseRead_late (hout : l.2 + ctoTicks s.dev ≤ s.env.tick) (rd : Rd) :
    NextDev (.hostReadCompletion (.lease page) rd) s (loseLease s.env 2 (noteAer 0x11 s.dev)) := by
  change execHostReadCompletion (.lease page) rd s = _
  simp [execHostReadCompletion, onDev_next, leaseRead, hl, hout]

/-- The completion timeout ends the lease. -/
theorem completionTimeout_lease (hout : l.2 + ctoTicks s.dev ≤ s.env.tick) :
    NextDev (.completionTimeout (.lease page)) s (loseLease s.env 2 (noteAer 0x11 s.dev)) := by
  change execCompletionTimeout (.lease page) s = _
  simp [execCompletionTimeout, onDev_next, hl, hout]

end

/-! ### The statement -/

/-- Settles O27: each command of the couch engine, and each end of a read of host memory, by its own lemma. -/
theorem couchAndHostReads : Obligations.CouchAndHostReads := by
  refine ⟨?couch, ?reads⟩
  case couch =>
    intro s p t x ch pos e r l bs hch me prio from_ taken desc d c out moved
    refine ⟨copy_next, channelTakePost_next hch, fun hfetch ht => ?linked, ?beat, fun i b hb => beatBytes_getElem? c bs d hb,
      ageTicksExpiry_next hch, descTimeout_beyond_completion, descTimeout_next hch, completionTimeout_record,
      lateCompletion_next⟩
    case linked =>
      have h := linkedDescriptorRead_next hch hfetch ht
      exact ⟨fun hok => nextDev_of_eq h (if_pos hok), fun hbad => nextDev_of_eq h (if_neg (ne_true_of_eq_false hbad))⟩
    case beat => exact fun hpick hsource hbus hdata => beatGrant_next hpick hsource hbus hdata
  case reads =>
    intro s ch pos page bs rd err r l lost page_ bits
    refine ⟨fun hr => ⟨fun hin => ⟨couchRead_data hr hin bs, couchRead_fail hr hin err⟩,
        fun hout => ⟨couchRead_late hr hout rd, completionTimeout_couch hr hout⟩⟩,
      fun hl => ⟨fun hin => ⟨?passes, ?fails, leaseRead_fail hl hin err⟩,
        fun hout => ⟨leaseRead_late hl hout rd, completionTimeout_lease hl hout⟩⟩,
      fun hactive code => loseLease_lease s.env 2 (d := noteAer code s.dev) hactive⟩
    case passes =>
      exact fun hbits htags => nextDev_of_eq (leaseRead_data hl hin bs) (if_pos ⟨(pageChecks_eq ..).trans hbits, htags⟩)
    case fails =>
      have hbits : pageChecks s.dev.hqe.lease.gen.toNat page page_ = bits := pageChecks_eq ..
      refine fun hbad => hbits ▸ nextDev_of_eq (leaseRead_data hl hin bs) (if_neg fun ⟨hgood, htags⟩ => ?_)
      rcases hbad with h | h
      · exact h (hbits.symm.trans hgood)
      · exact ne_true_of_eq_false h htags

end Sys2Proof.Proofs
end

section
/-! Doorbells (04): taken, without effect, or counted as errors (R108, R114, R122, R448). -/

namespace Sys2Proof.Proofs

open Sys2Proof.Machine Sys2Proof.Claims Sys2Proof.Laws

/-- A change of a pair changes the table of pairs alone. -/
theorem updPair_changes (q : Nat) (f : Pair → Pair) (d : Dev) :
    ∃ ps, updPair q f d = { d with hqe := { d.hqe with pairs := ps } } := by
  unfold updPair
  split
  · exact ⟨_, rfl⟩
  · exact ⟨_, rfl⟩

/-- A wrong index is an error of a pair that is not being deleted (R108). -/
theorem pairError_live (env : Env) {p : Pair} (h : p.deleting = none) (code : BitVec 16) (q v : Nat) (d : Dev) :
    pairError env p code q v d = doorbellError env code q v d := by
  simp [pairError, h]

/-- While the pair is being deleted a wrong index is no error (R108). -/
theorem pairError_deleting (env : Env) {p : Pair} (h : p.deleting.isSome = true) (code : BitVec 16) (q v : Nat) (d : Dev) :
    pairError env p code q v d = d := by
  simp [pairError, h]

/-! ### Waking from DORMANT (R448) -/

/-- In any other state, or with the exit under way, nothing wakes. -/
theorem wakeDormant_awake {env : Env} (hentry : env.pw.trans ≠ .dormant) (h : env.pw.st ≠ .dormant ∨ env.pw.trans ≠ .none)
    (cause : Nat) (d : Dev) : wakeDormant cause env d = (env, d) := by
  have hstay : (env.pw.st == .dormant && env.pw.trans == .none) = false := by
    rcases h with h | h <;> simp [h]
  simp [wakeDormant, hentry, hstay]

/-- From DORMANT the exit begins. -/
theorem wakeDormant_exit {env : Env} (hst : env.pw.st = .dormant) (htrans : env.pw.trans = .none) (cause : Nat) (d : Dev) :
    wakeDormant cause env d = ({ env with pw := { env.pw with trans := .wakeup, wakeCause := cause } }, d) := by
  simp [wakeDormant, hst, htrans]

/-- An entry under way is abandoned. -/
theorem wakeDormant_entry {env : Env} (hentry : env.pw.trans = .dormant) (cause : Nat) (d : Dev) :
    wakeDormant cause env d = ({ env with pw := { env.pw with trans := .none, wakeCause := cause } },
      { d with hqe := { d.hqe with fetchStopped := d.hqe.shutdown },
               xpt := { d.xpt with creditHeld := d.sec.activating.isSome } }) := by
  simp [wakeDormant, hentry]

/-! ### The SQ tail (R108, R114) -/

section
variable {env : Env} {d : Dev} {q v : Nat} (halive : barAlive env d = true)

theorem sqTail_disabled (h : d.hqe.enabled = false) : sqTail q v env d = (env, d) := by
  simp [sqTail, h]

include halive

theorem sqTail_no_pair (he : d.hqe.enabled = true) (h : pairOf d q = none) :
    sqTail q v env d = (env, doorbellError env 0x0101 (0x100000 + q * 8) v d) := by
  simp [sqTail, halive, he, h]

variable {p : Pair} (he : d.hqe.enabled = true) (h : pairOf d q = some p)
include he h

theorem sqTail_beyond (hi : p.size ≤ v % 65536) : sqTail q v env d = (env, pairError env p 0x0102 q v d) := by
  simp [sqTail, halive, he, h, hi]

theorem sqTail_same (hi : v % 65536 < p.size) (hsame : v % 65536 = p.tail) : sqTail q v env d = (env, d) := by
  rw [hsame] at hi
  simp [sqTail, halive, he, h, hsame, Nat.not_le.mpr hi]

theorem sqTail_rung (hi : v % 65536 < p.size) (hne : v % 65536 ≠ p.tail) :
    sqTail q v env d = wakeDormant 1 env (updPair q (fun p => { p with tail := v % 65536 }) d) := by
  simp [sqTail, halive, he, h, hne, Nat.not_le.mpr hi]

end

/-! ### The CQ head (R108, R114, R122) -/

section
variable {env : Env} {d : Dev} {q v : Nat} (halive : barAlive env d = true)

theorem cqHead_disabled (h : d.hqe.enabled = false) : cqHead q v env d = d := by
  simp [cqHead, h]

include halive

theorem cqHead_no_pair (he : d.hqe.enabled = true) (h : pairOf d q = none) :
    cqHead q v env d = doorbellError env 0x0101 (0x100004 + q * 8) v d := by
  simp [cqHead, halive, he, h]

variable {p : Pair} (he : d.hqe.enabled = true) (h : pairOf d q = some p)
include he h

theorem cqHead_beyond (hi : p.size ≤ v % 65536) : cqHead q v env d = pairError env p 0x0102 q v d := by
  simp [cqHead, halive, he, h, hi]

theorem cqHead_too_many (hi : v % 65536 < p.size) (hn : p.unreleased < (v % 65536 + p.size - p.cqHead) % p.size) :
    cqHead q v env d = pairError env p 0x0103 q v d := by
  simp [cqHead, halive, he, h, Nat.not_le.mpr hi, hn]

theorem cqHead_releases (hi : v % 65536 < p.size) (hn : (v % 65536 + p.size - p.cqHead) % p.size ≤ p.unreleased) :
    cqHead q v env d = updPair q (fun x => { x with
      cqHead := v % 65536, unreleased := x.unreleased - (v % 65536 + p.size - p.cqHead) % p.size }) d := by
  simp [cqHead, halive, he, h, Nat.not_le.mpr hi, Nat.not_lt.mpr hn]

end

/-! ### The commands -/

theorem sqTailDoorbell_next (s : State) (q : BitVec 16) (v : W32) {env : Env} {d : Dev}
    (h : sqTail q.toNat v.toNat s.env s.dev = (env, d)) :
    exec (.sqTailDoorbell q v) s = .next { s with env := env, dev := d } := by
  change onEnv s (sqTail q.toNat v.toNat) = _
  rw [onEnv_next, h]

theorem cqHeadDoorbell_next (s : State) (q : BitVec 16) (v : W32) {d : Dev}
    (h : cqHead q.toNat v.toNat s.env s.dev = d) : NextDev (.cqHeadDoorbell q v) s d :=
  onDev_eq h

/-- Settles O28: each index by what the tail's and the head's doorbell make of it. -/
theorem doorbells : Obligations.Doorbells := by
  intro s q v halive i err
  have hsq {env : Env} {d : Dev} := sqTailDoorbell_next s q v (env := env) (d := d)
  have hcq {d : Dev} := cqHeadDoorbell_next s q v (d := d)
  refine ⟨fun he => ⟨hsq (sqTail_disabled he), hcq (cqHead_disabled he)⟩,
    fun he hq => ⟨hsq (sqTail_no_pair halive he hq), hcq (cqHead_no_pair halive he hq)⟩, fun p he hp => ?pair⟩
  case pair =>
    intro n rung
    have hrung (hne : i ≠ p.tail) (hi : i < p.size) := sqTail_rung halive he hp hi hne
    refine ⟨fun hi hlive => ?beyond, fun hi hdel => ?deleting, fun hsame hi => hsq (sqTail_same halive he hp hi hsame),
      fun hne hi hentry hawake => hsq ((hrung hne hi).trans (wakeDormant_awake hentry hawake 1 rung)),
      fun hne hi hst htrans => hsq ((hrung hne hi).trans (wakeDormant_exit hst htrans 1 rung)),
      fun hne hi hentry => ⟨_, hsq ((hrung hne hi).trans (wakeDormant_entry hentry 1 rung)), rfl, ?hqe⟩,
      fun hi hn hlive => hcq ((cqHead_too_many halive he hp hi hn).trans (pairError_live _ hlive ..)),
      fun hi hn => hcq (cqHead_releases halive he hp hi hn)⟩
    case beyond =>
      exact ⟨hsq ((sqTail_beyond halive he hp hi).trans (congrArg _ (pairError_live _ hlive ..))),
        hcq ((cqHead_beyond halive he hp hi).trans (pairError_live _ hlive ..))⟩
    case deleting =>
      exact ⟨hsq ((sqTail_beyond halive he hp hi).trans (congrArg _ (pairError_deleting _ hdel ..))),
        hcq ((cqHead_beyond halive he hp hi).trans (pairError_deleting _ hdel ..))⟩
    case hqe =>
      obtain ⟨ps, hps⟩ := updPair_changes q.toNat (fun p => { p with tail := i }) s.dev
      simp only [rung, hps]

end Sys2Proof.Proofs
end

section
/-! Fetching (04): what becomes of the entry of the pair arbitration chose, and AGG_TIME (R110, R115, R117, R118, R122,
R123). -/

namespace Sys2Proof.Proofs

open Sys2Proof.Machine Sys2Proof.Claims Sys2Proof.Laws

/-- With requests allowed out, a read of host memory gives what comes back (R122). -/
theorem hostRead_issues {d : Dev} (h : d.hqe.issues = true) (r : Rd) : hostRead d r = rdGot r := by
  simp [hostRead, h]

/-! ### The checks of an entry (R110, R122, R173) -/

/-- The key of an entry: read from host memory where the command needs it so, else inline. -/
def entryKey (d : Dev) (c : V512) (key : Rd) : Rd := if needsKey d c then key else .ok (inlineKey c)

/-- The scatter list of an entry: read from host memory where it has one, else empty. -/
def entrySgl (c : V512) (sgl : Rd) : Rd := if capSgl c && hasBuffer c then sgl else .ok []

/-- Whom an entry of a pair answers. -/
def entryWho (q : Nat) (p : Pair) (c : V512) (d : Dev) : Who :=
  ⟨.host, BitVec.ofNat 16 q, capCid c, d.hqe.hostGen, none, 0, BitVec.ofNat 16 p.group⟩

/-- An entry whose key or scatter list cannot be read completes with SC_ABORTED_HOST, the access failure reported. -/
def entryAborted (env : Env) (q : Nat) (p : Pair) (c : V512) (code : Byte) (d : Dev) : Dev :=
  answer env (entryWho q p c d) scAbortedHost 0 false (dataDmaFail env q (capCid c) code d)

section
variable {env : Env} {q : Nat} {p : Pair} {c : V512} {key sgl : Rd} {d : Dev}

theorem admitEntry_rejected {v : Verdict} (h : checkEntry d { kind := .host, id := q } c = some v) :
    admitEntry env q p c key sgl d = answer env (entryWho q p c d) v.1 v.2 false d := by
  simp only [admitEntry, h, entryWho]

variable (h : checkEntry d { kind := .host, id := q } c = none)
include h

theorem admitEntry_ready {k sg : List Byte} {segs : List (Nat × Nat)} (hk : entryKey d c key = .ok k)
    (hs : entrySgl c sgl = .ok sg) (hb : bufferOf c sg = some segs) :
    admitEntry env q p c key sgl d = hostArrival env q p c (slice k 0 (capKlen c)) segs d := by
  simp only [entryKey] at hk
  simp only [entrySgl] at hs
  simp only [admitEntry, h, hk, hs, hb]

/-- A scatter list that breaks R110 goes before a key that cannot be read. -/
theorem admitEntry_bad_list {sg : List Byte} (hs : entrySgl c sgl = .ok sg) (hb : bufferOf c sg = none) :
    admitEntry env q p c key sgl d = answer env (entryWho q p c d) scInvalidField 0 false d := by
  simp only [entrySgl] at hs
  simp only [admitEntry, h, hs, entryWho]
  cases (if needsKey d c then key else Rd.ok (inlineKey c)) <;> simp only [hb]

theorem admitEntry_key_fails {e : HostErr} (hk : entryKey d c key = .fail e)
    (hb : ∀ l, entrySgl c sgl = .ok l → bufferOf c l ≠ none) :
    admitEntry env q p c key sgl d = entryAborted env q p c (errCode e) d := by
  simp only [entryKey] at hk
  simp only [entrySgl] at hb
  simp only [admitEntry, h, hk, entryAborted, entryWho]
  cases hs : (if capSgl c && hasBuffer c then sgl else Rd.ok []) with
  | fail e' => rfl
  | ok sg =>
    obtain ⟨segs, hsegs⟩ := Option.ne_none_iff_exists'.mp (hb sg hs)
    simp only [hsegs]

theorem admitEntry_list_fails {k : List Byte} {e : HostErr} (hk : entryKey d c key = .ok k)
    (hs : entrySgl c sgl = .fail e) :
    admitEntry env q p c key sgl d = entryAborted env q p c (errCode e) d := by
  simp only [entryKey] at hk
  simp only [entrySgl] at hs
  simp only [admitEntry, h, hk, hs, entryAborted, entryWho]

end

/-! ### The commands -/

section
variable {s : State} {q : Nat} {p : Pair} {d1 : Dev}

theorem entryFetch_stopped (h : fetching s.env s.dev = false) (entry key sgl : Rd) :
    NextDev (.entryFetch entry key sgl) s s.dev := by
  change execEntryFetch entry key sgl s = _
  simp [execEntryFetch, onDev_next, h]

variable (hf : fetching s.env s.dev = true) (ha : arbitrate s.dev = some (q, d1)) (hp : pairOf d1 q = some p)
  (hi : s.dev.hqe.issues = true)
include hf ha hp hi

/-- The entry read is taken and checked. -/
theorem entryFetch_next (bs : List Byte) (key sgl : Rd) :
    NextDev (.entryFetch (.ok bs) key sgl) s
      (admitEntry s.env q p (bytesV512 (slice bs 0 64)) key sgl (takeEntry q d1)) := by
  change execEntryFetch (.ok bs) key sgl s = _
  simp only [execEntryFetch, onDev_next, hf, ha, hp, hostRead_issues hi, rdGot, Bool.not_true, Bool.false_eq_true, if_false]

/-- A fetch that fails makes the pair FAILED. -/
theorem entryFetch_fails (err : HostErr) (key sgl : Rd) :
    NextDev (.entryFetch (.fail err) key sgl) s
      (failPair s.env q 1 (errCode err) { d1 with hqe := { d1.hqe with turn := none } }) := by
  change execEntryFetch (.fail err) key sgl s = _
  simp only [execEntryFetch, onDev_next, hf, ha, hp, hostRead_issues hi, rdGot, Bool.not_true, Bool.false_eq_true, if_false]

end

/-- AGG_TIME after the first completion not yet signalled, the pair's vector is (R118). -/
theorem aggTimeExpiry_next {s : State} {q : BitVec 16} {p : Pair} {t : Nat} (hp : pairOf s.dev q.toNat = some p)
    (hfirst : p.aggFirst = some t) (hset : p.aggTime ≠ 0) (hdue : t + p.aggTime * 25 ≤ s.env.tick) :
    NextDev (.aggTimeExpiry q) s (signalPair q.toNat s.dev) := by
  change execAggTimeExpiry q s = _
  simp [execAggTimeExpiry, onDev_next, hp, hfirst, hset, hdue]

/-- Settles O29: the entry taken, by what its checks and the reads of its key and scatter list come to. -/
theorem entriesAreFetched : Obligations.EntriesAreFetched := by
  intro s q p d1 bs k sg segs key sgl err v qa pa ta c d2 w
  refine ⟨fun hf ha hp hi => ?fetched, fun h => entryFetch_stopped h (.ok bs) key sgl, aggTimeExpiry_next⟩
  have hentry (key sgl : Rd) := entryFetch_next hf ha hp hi bs key sgl
  refine ⟨fun hv => nextDev_of_eq (hentry key sgl) (admitEntry_rejected hv),
    fun hc hk hs hb => nextDev_of_eq (hentry key sgl) (admitEntry_ready hc hk hs hb),
    fun hc hs hb => nextDev_of_eq (hentry key sgl) (admitEntry_bad_list hc hs hb),
    fun hc hneeds hb => nextDev_of_eq (hentry (.fail err) sgl) (admitEntry_key_fails hc (if_pos hneeds) hb),
    fun hc hsgl hbuf hk => nextDev_of_eq (hentry key (.fail err)) (admitEntry_list_fails hc hk (if_pos ?list)),
    entryFetch_fails hf ha hp hi err key sgl⟩
  case list => simp [hsgl, hbuf]

end Sys2Proof.Proofs
end

section
/-! What answers, chain commands and the end of flows leave of the host queue engine: the pairs, what is held or sent for
them, and the counts of failed accesses may change, nothing else of it (R54, R103, R122, R305, R409). -/

namespace Sys2Proof.Proofs

open Sys2Proof.Machine Sys2Proof.Claims Sys2Proof.Laws

/-- The host queue engine but for what answers and reports move. -/
def hqeSteady (h : Hqe) : Hqe :=
  { h with pairs := [], hmem := [], heldCqes := [], heldMsi := [], pba := [], irqs := [], qfailQid := 0, qfailReason := 0,
           qfailValid := false, dmaErrors := 0, aer := {} }

/-! ### Reports -/

theorem hqeSteady_of_reports {d d' : Dev} (h : Reports d d') : hqeSteady d'.hqe = hqeSteady d.hqe := by
  obtain ⟨_, _, _, _, _, _, rfl⟩ := h
  rfl

@[simp] theorem setCause_hqeSteady (env : Env) (n : Nat) (bits : W32) (d : Dev) :
    hqeSteady (setCause env n bits d).hqe = hqeSteady d.hqe :=
  hqeSteady_of_reports (setCause_reports env n bits d)

@[simp] theorem event_hqeSteady (env : Env) (code : BitVec 16) (sev cls src p0 p1 p2 : Nat) (d : Dev) :
    hqeSteady (event env code sev cls src p0 p1 p2 d).hqe = hqeSteady d.hqe :=
  hqeSteady_of_reports (event_reports env code sev cls src p0 p1 p2 d)

@[simp] theorem sendMsi_hqeSteady (v : Nat) (d : Dev) : hqeSteady (sendMsi v d).hqe = hqeSteady d.hqe :=
  hqeSteady_of_reports (sendMsi_reports v d)

/-- A change that leaves a view of the drive, made for each of a list. -/
theorem foldl_keeps {α β : Type} (view : Dev → β) (f : Dev → α → Dev) (l : List α)
    (hf : ∀ d, ∀ x ∈ l, view (f d x) = view d) (d : Dev) : view (l.foldl f d) = view d :=
  List.foldlRecOn (motive := fun e => view e = view d) l f rfl (fun e he x hx => (hf e x hx).trans he)

/-! ### Completion entries -/

@[simp] theorem updPair_hqeSteady (q : Nat) (f : Pair → Pair) (d : Dev) :
    hqeSteady (updPair q f d).hqe = hqeSteady d.hqe := by
  obtain ⟨ps, hps⟩ := updPair_changes q f d
  rw [hps]
  rfl

@[simp] theorem signalPair_hqeSteady (q : Nat) (d : Dev) : hqeSteady (signalPair q d).hqe = hqeSteady d.hqe := by
  unfold signalPair
  split
  · rfl
  · dsimp only; split <;> simp

@[simp] theorem writeCqe_hqeSteady (env : Env) (q cid : Nat) (status : Byte) (result : Word) (more : Bool) (d : Dev) :
    hqeSteady (writeCqe env q cid status result more d).hqe = hqeSteady d.hqe := by
  unfold writeCqe
  split
  · rfl
  · dsimp only
    split
    · rw [signalPair_hqeSteady, updPair_hqeSteady]
      rfl
    · rw [updPair_hqeSteady]
      rfl

@[simp] theorem noteAer_hqeSteady (code : Byte) (d : Dev) : hqeSteady (noteAer code d).hqe = hqeSteady d.hqe := rfl

@[simp] theorem failPair_hqeSteady (env : Env) (q reason : Nat) (code : Byte) (d : Dev) :
    hqeSteady (failPair env q reason code d).hqe = hqeSteady d.hqe := by
  unfold failPair
  rw [event_hqeSteady, setCause_hqeSteady]
  change hqeSteady (noteAer code (updPair q (fun p => { p with failed := true }) d)).hqe = _
  rw [noteAer_hqeSteady, updPair_hqeSteady]

@[simp] theorem postCqe_hqeSteady (env : Env) (q cid : Nat) (status : Byte) (result : Word) (more : Bool) (d : Dev) :
    hqeSteady (postCqe env q cid status result more d).hqe = hqeSteady d.hqe := by
  unfold postCqe
  split
  · rfl
  · split
    · exact updPair_hqeSteady ..
    · split
      · exact writeCqe_hqeSteady ..
      · split
        · rfl
        · exact (failPair_hqeSteady ..).trans (updPair_hqeSteady ..)

/-! ### Flows -/

@[simp] theorem updFlow_hqe (id : Nat) (f : Flow → Flow) (d : Dev) : (updFlow id f d).hqe = d.hqe := by
  unfold updFlow; split <;> rfl

@[simp] theorem portCount_hqe (p i : Nat) (d : Dev) : (portCount p i d).hqe = d.hqe := rfl
@[simp] theorem xptCount_hqe (i : Nat) (d : Dev) : (xptCount i d).hqe = d.hqe := rfl

@[simp] theorem queueFrame_hqeSteady (env : Env) (port : Nat) (f : EFrame) (d : Dev) :
    hqeSteady (queueFrame env port f d).hqe = hqeSteady d.hqe := by
  unfold queueFrame partnerErr
  dsimp only
  split
  · simp
  · split <;> simp

@[simp] theorem seqField_hqe (kind seq : Nat) (d : Dev) : (seqField kind seq d).2.hqe = d.hqe := by
  unfold seqField; split <;> rfl

@[simp] theorem sendOnFlow_hqeSteady (env : Env) (id : Nat) (fl : Flow) (kind seq cid doff : Nat) (last nak : Bool)
    (payload : List Byte) (d : Dev) :
    hqeSteady (sendOnFlow env id fl kind seq cid doff last nak payload d).hqe = hqeSteady d.hqe := by
  simp [sendOnFlow]

@[simp] theorem pumpList_hqeSteady (env : Env) (id : Nat) (us : List Unacked) (d : Dev) :
    hqeSteady (pumpList env id us d).hqe = hqeSteady d.hqe := by
  induction us generalizing d with
  | nil => rfl
  | cons u us ih =>
    unfold pumpList
    split
    · rfl
    · split
      · simp [ih]
      · rfl

@[simp] theorem sendSeq_hqeSteady (env : Env) (id kind cid doff : Nat) (last : Bool) (payload : List Byte) (d : Dev) :
    hqeSteady (sendSeq env id kind cid doff last payload d).hqe = hqeSteady d.hqe := by
  unfold sendSeq pump; split <;> simp

@[simp] theorem sendAll_hqeSteady (env : Env) (id : Nat) (ms : List Unacked) (d : Dev) :
    hqeSteady (sendAll env id ms d).hqe = hqeSteady d.hqe :=
  foldl_keeps (fun d => hqeSteady d.hqe) _ ms (fun _ _ _ => sendSeq_hqeSteady ..) d

@[simp] theorem noteConsume_hqe (id : Nat) (x : Option (Nat × Nat)) (d : Dev) : (noteConsume id x d).hqe = d.hqe := by
  unfold noteConsume; split <;> simp

@[simp] theorem noteResp_hqe (env : Env) (id : Nat) (no : Option Nat) (d : Dev) : (noteResp env id no d).hqe = d.hqe := by
  unfold noteResp; split <;> rfl

@[simp] theorem flushOuts_hqeSteady (env : Env) (id : Nat) (rs : List Response) (d : Dev) :
    hqeSteady (flushOuts env id rs d).hqe = hqeSteady d.hqe := by
  induction rs generalizing d with
  | nil => exact congrArg hqeSteady (updFlow_hqe ..)
  | cons r rs ih => unfold flushOuts; dsimp only; split <;> simp [ih]

@[simp] theorem respond_hqeSteady (env : Env) (id : Nat) (no : Option Nat) (ms : List Unacked) (done : Bool) (d : Dev) :
    hqeSteady (respond env id no ms done d).hqe = hqeSteady d.hqe := by
  unfold respond
  split
  · rfl
  · split
    · split <;> simp
    · split
      · split <;> simp
      · simp

@[simp] theorem consume_hqe (id n : Nat) (d : Dev) : (consume id n d).hqe = d.hqe := by
  unfold consume; split <;> simp

@[simp] theorem dropInbound_hqe (id arr : Nat) (d : Dev) : (dropInbound id arr d).hqe = d.hqe := by
  unfold dropInbound; split <;> simp

@[simp] theorem grantCredit_hqe (id : Nat) (held : Bool) (d : Dev) : (grantCredit id held d).hqe = d.hqe := by
  unfold grantCredit; split <;> simp

/-! ### The key directory, contexts and charges -/

@[simp] theorem eraseSlots_hqe (p : Slot → Bool) (n : Nat) (d : Dev) : (eraseSlots p n d).hqe = d.hqe := by
  induction n generalizing d with
  | zero => rfl
  | succ n ih =>
    unfold eraseSlots
    split
    · rw [ih]; rfl
    · rfl

@[simp] theorem releaseSlots_hqe (o : Owner) (d : Dev) : (releaseSlots o d).hqe = d.hqe := by
  simp [releaseSlots, pruneSlots, moveSlots]

@[simp] theorem releaseAll_hqe (t : Task) (d : Dev) : (releaseAll t d).hqe = d.hqe :=
  (foldl_keeps (·.hqe) _ _ (fun _ _ _ => releaseSlots_hqe ..) _).trans (releaseSlots_hqe ..)

@[simp] theorem settleLocks_hqe (d : Dev) : (settleLocks d).hqe = d.hqe :=
  foldl_keeps (·.hqe) (fun d (x : Nat × Keyspace) => zeroKeys x.1 d) _ (fun _ _ _ => rfl) d

@[simp] theorem freeCtx_hqe (t : Task) (d : Dev) : (freeCtx t d).hqe = d.hqe := by
  simp [freeCtx, freeSealed]

@[simp] theorem schedule_hqe (env : Env) (e : Nat) (d : Dev) : (schedule env e d).hqe = d.hqe := by
  unfold schedule
  split
  · rfl
  · split <;> simp

/-- Funding moves within the governor. -/
theorem drawSpare_changes (c : Nat) (need : Int) (d : Dev) : ∃ b, drawSpare c need d = { d with bgv := b } := by
  unfold drawSpare; dsimp only; split <;> exact ⟨_, rfl⟩

theorem drawFrom_changes (c : Nat) (ks : List Nat) (need : Int) (d : Dev) :
    ∃ b, drawFrom c ks need d = { d with bgv := b } := by
  induction ks generalizing need d with
  | nil => exact ⟨_, rfl⟩
  | cons k ks ih =>
    unfold drawFrom
    dsimp only
    split
    · exact ih need d
    · obtain ⟨b, hb⟩ := ih _ _
      exact ⟨b, hb⟩

theorem charge_changes (c units : Nat) (d : Dev) : ∃ b, charge c units d = { d with bgv := b } := by
  unfold charge
  dsimp only
  split
  · obtain ⟨b, hb⟩ := drawSpare_changes c (-(remaining (updWc c (fun w => { w with spend := w.spend + units }) d) c))
      (updWc c (fun w => { w with spend := w.spend + units }) d)
    rw [hb]
    exact drawFrom_changes ..
  · exact ⟨_, rfl⟩

/-- A charge for a task changes the governor and what the tasks' groups have spent (R371). -/
theorem chargeFor_changes (c : Nat) (g : BitVec 16) (units : Nat) (d : Dev) :
    ∃ b gs, chargeFor c g units d = { d with bgv := b, mea := { d.mea with groups := gs } } := by
  obtain ⟨b, hb⟩ := charge_changes c units d
  unfold chargeFor
  dsimp only
  rw [hb]
  split <;> exact ⟨b, _, rfl⟩

@[simp] theorem chargeFor_hqe (c : Nat) (g : BitVec 16) (units : Nat) (d : Dev) : (chargeFor c g units d).hqe = d.hqe := by
  obtain ⟨b, gs, h⟩ := chargeFor_changes c g units d
  rw [h]

@[simp] theorem creditEst_hqe (c est : Nat) (d : Dev) : (creditEst c est d).hqe = d.hqe := rfl

@[simp] theorem finishPost_hqe (p : PostRef) (status : Byte) (result : Word) (d : Dev) :
    (finishPost p status result d).hqe = d.hqe := rfl

/-! ### Answers (R54) -/

/-- The completion of a loopback command goes to its parent's post. -/
theorem answer_loop_hqe (env : Env) {w : Who} (h : w.kind = .loop) (status : Byte) (result : Word) (more : Bool) (d : Dev) :
    (answer env w status result more d).hqe = d.hqe := by
  unfold answer
  rw [h]
  dsimp only
  split
  · split
    · rw [finishPost_hqe, chargeFor_hqe]
    · rfl
  · rfl

@[simp] theorem answer_hqeSteady (env : Env) (w : Who) (status : Byte) (result : Word) (more : Bool) (d : Dev) :
    hqeSteady (answer env w status result more d).hqe = hqeSteady d.hqe := by
  cases hk : w.kind with
  | loop => rw [answer_loop_hqe env hk]
  | host => simp only [answer, hk]; split <;> simp
  | act =>
    simp only [answer, hk, sendResp]
    split
    · split <;> simp
    · rfl
  | hook | internal | timer => simp only [answer, hk]

@[simp] theorem answerArrival_hqeSteady (env : Env) (a : Arrival) (status : Byte) (result : Word) (d : Dev) :
    hqeSteady (answerArrival env a status result d).hqe = hqeSteady d.hqe :=
  answer_hqeSteady ..

@[simp] theorem memberHook_hqe (no i : Nat) (t : Task) (faulted : Option Byte) (status : Byte) (result : Word) (d : Dev) :
    (memberHook no i t faulted status result d).hqe = d.hqe := by
  unfold memberHook; split <;> rfl

@[simp] theorem hookDone_hqeSteady (env : Env) (t : Task) (faulted : Option Byte) (status : Byte) (result : Word) (d : Dev) :
    hqeSteady (hookDone env t faulted status result d).hqe = hqeSteady d.hqe := by
  unfold hookDone
  split
  · rfl
  · split
    · simp
    · split
      · rfl
      · split
        · rfl
        · split <;> split
          · rfl
          · split <;> simp
          · simp
          · split <;> simp

@[simp] theorem retire_hqe (env : Env) (t : Task) (d : Dev) : (retire env t d).hqe = d.hqe := by
  have hpaid : (creditEst t.wclass t.est (if t.st == .running then chargeInstrs t d else d)).hqe = d.hqe := by
    split <;> simp [chargeInstrs]
  unfold retire
  dsimp only
  split
  · exact hpaid
  · split <;> simpa using hpaid

@[simp] theorem finishTask_hqeSteady (env : Env) (t : Task) (status : Byte) (result : Word) (more : Bool) (d : Dev) :
    hqeSteady (finishTask env t status result more d).hqe = hqeSteady d.hqe := by
  unfold finishTask
  dsimp only [ackEntries]
  split <;> simp

/-! ### Links and CHAIN_CONTROL commands (R262, R409) -/

@[simp] theorem pfcCheck_hqe (env : Env) (p n : Nat) (d : Dev) : (pfcCheck env p n d).hqe = d.hqe := by
  unfold pfcCheck
  dsimp only
  split
  · split <;> rfl
  · split
    · rfl
    · split <;> rfl

@[simp] theorem clearEgress_hqe (env : Env) (p : Nat) (d : Dev) : (clearEgress env p d).hqe = d.hqe :=
  foldl_keeps (·.hqe) _ _ (fun _ _ _ => pfcCheck_hqe ..) _

@[simp] theorem dropEgress_hqeSteady (env : Env) (p : Nat) (d : Dev) :
    hqeSteady (dropEgress env p d).hqe = hqeSteady d.hqe := by
  unfold dropEgress; dsimp only; split <;> simp

@[simp] theorem portDown_hqeSteady (env : Env) (p cause : Nat) (d : Dev) :
    hqeSteady (portDown env p cause d).hqe = hqeSteady d.hqe := by
  unfold portDown; split <;> simp [reportDown]

@[simp] theorem startRemoval_hqeSteady (env : Env) (cause : Nat) (d : Dev) :
    hqeSteady (startRemoval env cause d).hqe = hqeSteady d.hqe := by
  unfold startRemoval
  split
  · rfl
  · split
    · simp
    · rfl

@[simp] theorem resetPort_hqeSteady (env : Env) (p : Nat) (d : Dev) :
    hqeSteady (resetPort env p d).hqe = hqeSteady d.hqe := by
  simp [resetPort, clearPfc]

@[simp] theorem beginChain_hqeSteady (env : Env) (c : ChainCmd) (d : Dev) :
    hqeSteady (beginChain env c d).1.hqe = hqeSteady d.hqe := by
  unfold beginChain
  split
  · split
    · rfl
    · split
      · rfl
      · split <;> rfl
  · dsimp only
    split <;> exact startRemoval_hqeSteady ..
  · exact resetPort_hqeSteady ..

@[simp] theorem finishChain_hqeSteady (env : Env) (c : ChainCmd) (status : Byte) (d : Dev) :
    hqeSteady (finishChain env c status d).hqe = hqeSteady d.hqe := by
  unfold finishChain
  split
  · rfl
  · split <;> simp

@[simp] theorem runChain_hqeSteady (env : Env) (n : Nat) (d : Dev) :
    hqeSteady (runChain env n d).hqe = hqeSteady d.hqe := by
  induction n generalizing d with
  | zero => rfl
  | succ n ih =>
    unfold runChain
    split
    · rfl
    · next c rest _ =>
      have hbegun := beginChain_hqeSteady env c (updCpt (fun x => { x with cmds := rest }) d)
      split
      · rfl
      · split
        · next h =>
          rw [h] at hbegun
          rw [ih, finishChain_hqeSteady]
          exact hbegun
        · next h =>
          rw [h] at hbegun
          exact hbegun

@[simp] theorem chainAcked_hqeSteady (env : Env) (d : Dev) : hqeSteady (chainAcked env d).hqe = hqeSteady d.hqe := by
  simp [chainAcked, chainNext]

/-! ### The end of flows (R293, R305) -/

@[simp] theorem sendReset_hqeSteady (env : Env) (id reason : Nat) (d : Dev) :
    hqeSteady (sendReset env id reason d).hqe = hqeSteady d.hqe := by
  unfold sendReset; split <;> simp

@[simp] theorem freeFlow_hqe (id : Nat) (d : Dev) : (freeFlow id d).hqe = d.hqe := by
  unfold freeFlow; split <;> rfl

@[simp] theorem resetFlow_hqeSteady (env : Env) (id reason : Nat) (d : Dev) :
    hqeSteady (resetFlow env id reason d).hqe = hqeSteady d.hqe := by
  unfold resetFlow
  split
  · rfl
  · dsimp only; split <;> simp

/-- The end of all flows answers the commands of theirs that wait, and completes what waited for the acknowledgement of a RESP:
of the host queue engine no more than their answers moves. -/
theorem resetAllFlows_hqeSteady (env : Env) (d : Dev) : hqeSteady (resetAllFlows env d).hqe = hqeSteady d.hqe :=
  foldl_keeps (fun d => hqeSteady d.hqe) _ d.xpt.flows (fun e x _ => (resetFlow_hqeSteady env x.1 3 _).trans
    (foldl_keeps (fun d => hqeSteady d.hqe) _ (flowArrivals e x.1) (fun _ _ _ => answerArrival_hqeSteady ..) e)) d

end Sys2Proof.Proofs
end

section
/-! DEV_CTRL (04), and what a host-side reset leaves (R102–R104, R124, R305, R453, R454, R456). -/

namespace Sys2Proof.Proofs

open Sys2Proof.Machine Sys2Proof.Claims Sys2Proof.Laws

/-! ### What the channels of the couch engine leave (R342, R343) -/

/-- What of the drive no channel of the couch engine changes: the host queue engine but for its answers, the chain ports,
and the commands waiting for dispatch. -/
def besideCouch (d : Dev) : Hqe × Cpt × List Arrival := (hqeSteady d.hqe, d.cpt, d.mea.arrivals)

@[simp] theorem setCause_besideCouch (env : Env) (n : Nat) (bits : W32) (d : Dev) :
    besideCouch (setCause env n bits d) = besideCouch d := by
  simp [besideCouch]

@[simp] theorem event_besideCouch (env : Env) (code : BitVec 16) (sev cls src p0 p1 p2 : Nat) (d : Dev) :
    besideCouch (event env code sev cls src p0 p1 p2 d) = besideCouch d := by
  simp [besideCouch]

@[simp] theorem updChan_besideCouch (c : Nat) (f : Chan → Chan) (d : Dev) : besideCouch (updChan c f d) = besideCouch d := rfl

@[simp] theorem finishPost_besideCouch (p : PostRef) (status : Byte) (result : Word) (d : Dev) :
    besideCouch (finishPost p status result d) = besideCouch d := rfl

@[simp] theorem chargeFor_besideCouch (c : Nat) (g : BitVec 16) (units : Nat) (d : Dev) :
    besideCouch (chargeFor c g units d) = besideCouch d := by
  obtain ⟨b, gs, h⟩ := chargeFor_changes c g units d
  rw [h]
  rfl

@[simp] theorem storeFor_besideCouch (t : Task) (a : Nat) (bs : List Byte) (d : Dev) :
    besideCouch (storeFor t a bs d) = besideCouch d := by
  unfold storeFor
  split
  · rfl
  · dsimp only
    rw [writeSpace_keeps]
    rfl

@[simp] theorem writeRecord_besideCouch (env : Env) (ch : Chan) (status : Byte) (d : Dev) :
    besideCouch (writeRecord env ch status d) = besideCouch d := by
  unfold writeRecord
  split
  · rfl
  · split <;> simp

@[simp] theorem endChain_besideCouch (env : Env) (c : Nat) (d : Dev) : besideCouch (endChain env c d) = besideCouch d := by
  unfold endChain
  dsimp only
  rw [finishPost_besideCouch, updChan_besideCouch]
  split <;> rfl

@[simp] theorem badLink_besideCouch (env : Env) (c : Nat) (d : Dev) : besideCouch (badLink env c d) = besideCouch d := by
  unfold badLink
  dsimp only
  rw [endChain_besideCouch]
  split <;> (rw [event_besideCouch, setCause_besideCouch, updChan_besideCouch]; rfl)

@[simp] theorem endDesc_besideCouch (env : Env) (c : Nat) (status : Byte) (d : Dev) :
    besideCouch (endDesc env c status d) = besideCouch d := by
  unfold endDesc
  extract_lets ch recorded charged couch reported late ended next fetching
  have hcharged : besideCouch charged = besideCouch d := by
    simp only [charged]
    split <;> simp [recorded]
  have hreported : besideCouch reported = besideCouch d := by
    simp only [reported]
    split
    · simp [hcharged]
    · split
      · rw [event_besideCouch, setCause_besideCouch]
        exact hcharged
      · exact hcharged
  have hended : besideCouch ended = besideCouch d := hreported
  split
  · simp [hended]
  · split
    · simp [fetching, hended]
    · exact hended

@[simp] theorem settleChan_besideCouch (env : Env) (c : Nat) (d : Dev) : besideCouch (settleChan env c d) = besideCouch d := by
  unfold settleChan
  dsimp only
  split
  · rfl
  · split
    · simp
    · split
      · split <;> simp
      · rfl

@[simp] theorem resetChan_besideCouch (env : Env) (d : Dev) (c : Nat) : besideCouch (resetChan env d c) = besideCouch d := by
  unfold resetChan
  dsimp only
  split
  · simp
  · split
    · rfl
    · split
      · simp
      · split <;> simp

theorem resetCouch_besideCouch (env : Env) (d : Dev) : besideCouch (resetCouch env d) = besideCouch d :=
  foldl_keeps besideCouch _ _ (fun _ _ _ => resetChan_besideCouch ..) d

/-! ### A reset of the host side (R56, R103, R124, R454) -/

@[simp] theorem throttle_besideCouch (g : BitVec 16) (d : Dev) : besideCouch (throttle g d) = besideCouch d := rfl

/-- Of the commands waiting for dispatch those of host queues are gone. -/
theorem dropHostArrivals_besideCouch (d : Dev) : besideCouch (dropHostArrivals d) =
    (hqeSteady d.hqe, d.cpt, d.mea.arrivals.filter (fun a => a.kind != .host)) :=
  foldl_keeps besideCouch _ _ (fun _ _ _ => throttle_besideCouch ..) _

/-- What user programs' regions hold is beside neither queues, ports nor waiting commands. -/
theorem scrubRegions_besideCouch (d : Dev) : besideCouch (scrubRegions d) = besideCouch d :=
  by unfold scrubRegions; exact foldl_keeps besideCouch _ _ (fun _ _ _ => by rfl) d

/-- The lease is lost; of the host queue engine, the chain ports and the waiting commands nothing else changes. -/
theorem loseLease_besideCouch (env : Env) (reason : Nat) (d : Dev) :
    ∃ l : Lease, l.active = false ∧
      besideCouch (loseLease env reason d) = ({ hqeSteady d.hqe with lease := l }, d.cpt, d.mea.arrivals) := by
  unfold loseLease
  dsimp only
  split
  · next h => exact ⟨d.hqe.lease, by simpa using h, rfl⟩
  · refine ⟨{ gen := d.hqe.lease.gen, lastReason := reason }, rfl, ?_⟩
    rw [event_besideCouch, setCause_besideCouch]
    rfl

/-- The host queue engine after a reset of the host side. -/
def hostResetHqe (kind : Nat) (env : Env) (h : Hqe) : Hqe :=
  let cleared : Hqe :=
    { h with ready := false, enable := false, enableHeld := false, resetBusy := true, shutdown := false,
             shutdownDone := false, fetchStopped := fetchHeld env, pairs := [], hostGen := h.hostGen + 1, turn := none,
             heldCqes := [], heldMsi := [], bmeHold := none }
  if kind = 5 then cleared
  else { cleared with msixOn := false, msixMask := false, msix := [], pba := [], busMaster := false,
                      relaxed := false, mps := 128, mrrs := 512, cto := 0, d3hot := false, aer := {} }

theorem hqeSteady_hostResetHqe (kind : Nat) (env : Env) (h : Hqe) :
    hqeSteady (hostResetHqe kind env (hqeSteady h)) = hqeSteady (hostResetHqe kind env h) := by
  unfold hostResetHqe
  dsimp only
  split <;> rfl

/-- After a reset of the host side: the host queue engine, the chain ports, and what waits for dispatch. -/
theorem hostReset_besideCouch (kind : Nat) (env : Env) (d : Dev) :
    let d1 := resetCouch env (dropHostArrivals (loseLease env 1 (scrubRegions d)))
    besideCouch (hostReset kind env d) = (hqeSteady (hostResetHqe kind env d1.hqe), d1.cpt, d1.mea.arrivals) := by
  unfold hostReset
  dsimp only
  rw [event_besideCouch]
  generalize resetCouch env (dropHostArrivals (loseLease env 1 (scrubRegions d))) = d1
  unfold hostResetHqe
  dsimp only
  split <;> rfl

@[simp] theorem armDeferred_besideCouch (env : Env) (d : Dev) : besideCouch (armDeferred env d) = besideCouch d := by
  unfold armDeferred; split <;> rfl

/-- A reset of the host side clears the host queue engine with the lease lost, leaves the chain ports, and of the commands waiting
for dispatch keeps none of a host queue. -/
theorem controllerReset_besideCouch (kind : Nat) (env : Env) (d : Dev) :
    ∃ l : Lease, l.active = false ∧ besideCouch (controllerReset kind env d) =
      (hqeSteady (hostResetHqe kind env { hqeSteady d.hqe with lease := l }), d.cpt,
        d.mea.arrivals.filter (fun a => a.kind != .host)) := by
  obtain ⟨l, hl, hlost⟩ := loseLease_besideCouch env 1 (scrubRegions d)
  have hscrubbed := scrubRegions_besideCouch d
  have hcouch := resetCouch_besideCouch env (dropHostArrivals (loseLease env 1 (scrubRegions d)))
  rw [dropHostArrivals_besideCouch] at hcouch
  refine ⟨l, hl, ?_⟩
  rw [controllerReset, armDeferred_besideCouch, hostReset_besideCouch]
  simp only [besideCouch, Prod.mk.injEq] at hscrubbed hlost hcouch ⊢
  obtain ⟨hhqe, hcpt, harr⟩ := hcouch
  obtain ⟨lhqe, lcpt, larr⟩ := hlost
  obtain ⟨shqe, scpt, sarr⟩ := hscrubbed
  exact ⟨by rw [← hqeSteady_hostResetHqe, hhqe, lhqe, shqe], by rw [hcpt, lcpt, scpt], by rw [harr, larr, sarr]⟩

/-- After a reset of the host side no pair exists, and LAST_RESET is its kind. -/
theorem controllerReset_pairs (kind : Nat) (env : Env) (d : Dev) :
    (controllerReset kind env d).hqe.pairs = [] ∧ (controllerReset kind env d).lastReset = kind := by
  have harmed (e : Dev) : (armDeferred env e).hqe.pairs = e.hqe.pairs ∧ (armDeferred env e).lastReset = e.lastReset := by
    unfold armDeferred; split <;> exact ⟨rfl, rfl⟩
  obtain ⟨hpairs, hlast⟩ := harmed (hostReset kind env d)
  rw [controllerReset, hpairs, hlast]
  unfold hostReset
  dsimp only
  rw [event_hqe_pairs, event_lastReset]
  split <;> exact ⟨rfl, rfl⟩

/-- What a reset of the host side of a kind leaves, MSI-X's table being `msix` (R103, R124, R454). -/
def HostCleared (kind : Nat) (msix : Tbl Msix) (d d' : Dev) : Prop :=
  d'.hqe.ready = false ∧ d'.hqe.enable = false ∧ d'.hqe.resetBusy = true ∧ d'.hqe.pairs = [] ∧ d'.hqe.shutdown = false ∧
  d'.hqe.shutdownDone = false ∧ d'.lastReset = kind ∧ d'.hqe.msix = msix ∧ d'.hqe.admSq = d.hqe.admSq ∧
  d'.hqe.admCq = d.hqe.admCq ∧ d'.hqe.admSize = d.hqe.admSize ∧ d'.hqe.deferred = d.hqe.deferred ∧
  d'.hqe.lease.active = false ∧ d'.cpt = d.cpt ∧ d'.mea.arrivals.all (fun a => a.kind != .host) = true

/-- Every host-side reset clears the controller; a controller reset alone, kind 5, keeps MSI-X's table. -/
theorem controllerReset_clears {kind : Nat} {msix : Tbl Msix} (env : Env) {d : Dev}
    (hkind : msix = if kind = 5 then d.hqe.msix else []) :
    HostCleared kind msix d (controllerReset kind env d) ∧
    (controllerReset kind env d).hqe.linkSpeed = d.hqe.linkSpeed := by
  obtain ⟨l, hl, h⟩ := controllerReset_besideCouch kind env d
  obtain ⟨hpairs, hlast⟩ := controllerReset_pairs kind env d
  simp only [besideCouch, Prod.mk.injEq] at h
  obtain ⟨hhqe, hcpt, harr⟩ := h
  have hmsix : (controllerReset kind env d).hqe.msix = msix := by
    rw [hkind]
    refine (congrArg Hqe.msix hhqe).trans ?_
    unfold hostResetHqe
    dsimp only
    split <;> rfl
  have hnone : (controllerReset kind env d).mea.arrivals.all (fun a => a.kind != .host) = true := by
    rw [harr]
    simp
  unfold hostResetHqe at hhqe
  dsimp only at hhqe
  split at hhqe
  all_goals
    have field {α : Type} (f : Hqe → α) := congrArg f hhqe
    exact ⟨⟨field (·.ready), field (·.enable), field (·.resetBusy), hpairs, field (·.shutdown),
      field (·.shutdownDone), hlast, hmsix, field (·.admSq), field (·.admCq), field (·.admSize), field (·.deferred),
      (field (·.lease.active)).trans hl, hcpt, hnone⟩, field (·.linkSpeed)⟩

/-! ### DEV_CTRL (R102–R104, R453, R455, R456) -/

section
variable {v : W32} {env : Env} {d : Dev}

/-- ENABLE = 1 alone enables. -/
theorem devCtrlWrite_enable (h0 : bitOf v 0 = true) (h1 : bitOf v 1 = false) (h2 : bitOf v 2 = false) :
    devCtrlWrite v env d = (env, writeEnable env d) := by
  simp [devCtrlWrite, h0, h1, h2]

/-- ENABLE = 0 of an enabled controller is a controller reset. -/
theorem devCtrlWrite_reset (h0 : bitOf v 0 = false) (h1 : bitOf v 1 = false) (h2 : bitOf v 2 = false)
    (he : d.hqe.enabled = true) : devCtrlWrite v env d = (env, controllerReset 5 env d) := by
  simp [devCtrlWrite, h0, h1, h2, he]

/-- SHUTDOWN = 1 with ENABLE = 1 shuts down, then enables what is not enabled. -/
theorem devCtrlWrite_shutdown (h0 : bitOf v 0 = true) (h1 : bitOf v 1 = true) (h2 : bitOf v 2 = false) :
    devCtrlWrite v env d = (env, writeEnable env (writeShutdown env d)) := by
  simp [devCtrlWrite, h0, h1, h2]

/-- DEVRST with its key goes before all else. -/
theorem devCtrlWrite_devrst (h2 : bitOf v 2 = true) (hkey : fld v 24 8 = 0x5D) :
    devCtrlWrite v env d = requestDeviceReset env d := by
  simp [devCtrlWrite, h2, hkey]

theorem writeEnable_done (h : d.hqe.enable = true ∨ d.hqe.resetBusy = true) : writeEnable env d = d := by
  rcases h with h | h <;> simp [writeEnable, h]

theorem writeEnable_up (he : d.hqe.enable = false) (hb : d.hqe.resetBusy = false)
    (h : env.pw.st = .active ∨ env.pw.st = .dormant ∨ env.pw.st = .recovery) : writeEnable env d = enableNow d := by
  rcases h with h | h | h <;> simp [writeEnable, he, hb, h]

theorem writeEnable_held (he : d.hqe.enable = false) (hb : d.hqe.resetBusy = false)
    (h : ¬ (env.pw.st = .active ∨ env.pw.st = .dormant ∨ env.pw.st = .recovery)) :
    writeEnable env d = { d with hqe := { d.hqe with enableHeld := true } } := by
  simp only [not_or] at h
  simp [writeEnable, he, hb, h]

theorem enableNow_in_range (h : fld d.hqe.admSize 0 12 ≠ 0) : enableNow d = { d with hqe := { d.hqe with
    cfgErr := false, enable := true, ready := true, enableHeld := false,
    pairs := tblSet d.hqe.pairs 0 { adminPair d.hqe with born := d.mea.nextArrival } } } := by
  simp [enableNow, h]

theorem enableNow_out_of_range (h : fld d.hqe.admSize 0 12 = 0) : enableNow d = { d with hqe := { d.hqe with
    cfgErr := true, enable := false, enableHeld := false, ready := false } } := by
  simp [enableNow, h]

end

/-- SHUTDOWN keeps ENABLE and stops fetching. -/
theorem writeShutdown_hqe (env : Env) {d : Dev} (h : d.hqe.shutdown = false) :
    (writeShutdown env d).hqe.enable = d.hqe.enable ∧ (writeShutdown env d).hqe.fetchStopped = true := by
  have hkept := resetAllFlows_hqeSteady env { d with hqe := { d.hqe with shutdown := true, fetchStopped := true } }
  simp only [writeShutdown, h, Bool.false_eq_true, if_false]
  exact ⟨congrArg (·.enable) hkept, congrArg (·.fetchStopped) hkept⟩

theorem stopBlower_hqe (env : Env) (d : Dev) : (stopBlower env d).hqe = d.hqe := by
  unfold stopBlower; split <;> rfl

@[simp] theorem abortLoops_hqeSteady (env : Env) (d : Dev) : hqeSteady (abortLoops env d).hqe = hqeSteady d.hqe :=
  foldl_keeps (fun d => hqeSteady d.hqe) _ _ (fun _ _ _ => answerArrival_hqeSteady ..) d

/-- What waits when a device reset is requested is abandoned, and the lease lost: of the host queue engine no more changes. -/
theorem abandoned_hqeSteady (env : Env) (d : Dev) :
    ∃ l : Lease, hqeSteady (stopBlower env (abortLoops env (dropHostArrivals (loseLease env 1 d)))).hqe =
      { hqeSteady d.hqe with lease := l } := by
  obtain ⟨l, -, hlost⟩ := loseLease_besideCouch env 1 d
  refine ⟨l, ?_⟩
  rw [stopBlower_hqe, abortLoops_hqeSteady]
  exact (congrArg Prod.fst (dropHostArrivals_besideCouch (loseLease env 1 d))).trans (congrArg Prod.fst hlost)

/-- A device reset that begins: the controller is disabled and fetching stopped, the power state stays (R455, step 1). -/
theorem requestDeviceReset_begins {env : Env} (halive : hostAlive env = true) (hnone : env.pw.resetStep = none) (d : Dev) :
    (requestDeviceReset env d).1.pw.resetStep = some (1, env.tick) ∧ (requestDeviceReset env d).1.pw.st = env.pw.st ∧
    (requestDeviceReset env d).2.hqe.enable = false ∧ (requestDeviceReset env d).2.hqe.fetchStopped = true := by
  unfold requestDeviceReset
  rw [if_neg (by simp [halive, hnone])]
  extract_lets h flows d1
  obtain ⟨l, hkept⟩ := abandoned_hqeSteady env d1
  exact ⟨rfl, rfl, congrArg (·.enable) hkept, congrArg (·.fetchStopped) hkept⟩

/-! ### The commands -/

section
variable {s : State} {v : W32} (halive : barAlive s.env s.dev = true)
include halive

/-- A write of DEV_CTRL that reaches the register, by any of the four rows whose bit it has. -/
theorem devCtrl_next {env : Env} {d : Dev} (h : devCtrlWrite v s.env s.dev = (env, d)) :
    (bitOf v 0 = true → exec (.enable v) s = .next { s with env := env, dev := d }) ∧
    (bitOf v 0 = false → exec (.controllerReset v) s = .next { s with env := env, dev := d }) ∧
    (bitOf v 1 = true → exec (.shutdown v) s = .next { s with env := env, dev := d }) ∧
    (bitOf v 2 = true → exec (.devrst v) s = .next { s with env := env, dev := d }) := by
  have hwrite : ctrlWrite v s.env s.dev = (env, d) := by rw [ctrlWrite, if_pos halive, h]
  refine ⟨fun hb => ?enable, fun hb => ?reset, fun hb => ?shutdown, fun hb => ?devrst⟩
  case enable => change execEnable v s = _; simp [execEnable, onEnv_next, hb, hwrite]
  case reset => change execControllerReset v s = _; simp [execControllerReset, onEnv_next, hb, hwrite]
  case shutdown => change execShutdown v s = _; simp [execShutdown, onEnv_next, hb, hwrite]
  case devrst => change execDevrst v s = _; simp [execDevrst, onEnv_next, hb, hwrite]

theorem enable_next (h0 : bitOf v 0 = true) (h1 : bitOf v 1 = false) (h2 : bitOf v 2 = false) :
    NextDev (.enable v) s (writeEnable s.env s.dev) := by
  obtain ⟨hnext, -⟩ := devCtrl_next halive (devCtrlWrite_enable h0 h1 h2)
  exact hnext h0

theorem controllerReset_next (h0 : bitOf v 0 = false) (h1 : bitOf v 1 = false) (h2 : bitOf v 2 = false)
    (he : s.dev.hqe.enabled = true) : NextDev (.controllerReset v) s (controllerReset 5 s.env s.dev) := by
  obtain ⟨-, hnext, -⟩ := devCtrl_next halive (devCtrlWrite_reset h0 h1 h2 he)
  exact hnext h0

end

theorem functionLevelReset_next {s : State} (h : hostAlive s.env = true) :
    NextDev .functionLevelReset s (controllerReset 4 s.env s.dev) := by
  change execFunctionLevelReset s = _
  simp [execFunctionLevelReset, onDev_next, h]

theorem pcieLinkDown_next {s : State} (h : hostAlive s.env = true) (hperst : s.dev.hqe.perst = false)
    (hup : s.dev.hqe.linkSpeed ≠ 0) : NextDev .pcieLinkDown s
      (controllerReset 3 s.env { s.dev with hqe := { s.dev.hqe with linkSpeed := 0, linkWidth := 0 } }) := by
  change execPcieLinkDown s = _
  simp [execPcieLinkDown, onDev_next, h, hperst, hup]

/-- Settles O31: each write of DEV_CTRL by what it makes of the register, each host-side reset by what it clears. -/
theorem controlAndHostResets : Obligations.ControlAndHostResets := by
  refine ⟨?control, ?resets⟩
  case control =>
    intro s v halive hnone up plain h
    refine ⟨fun h0 ⟨p1, p2⟩ he hb => ?enable, fun h0 ⟨p1, p2⟩ hb => ?busy, fun h0 ⟨p1, p2⟩ he => ?reset,
      fun h1 h2 h0 he hs => ?shutdown, fun h1 h2 h0 he hs => ?again, fun h2 hkey => ?devrst⟩
    case enable =>
      have hnext := enable_next halive h0 p1 p2
      exact ⟨fun hup hsize => nextDev_of_eq hnext ((writeEnable_up he hb hup).trans (enableNow_in_range hsize)),
        fun hup hsize => nextDev_of_eq hnext ((writeEnable_up he hb hup).trans (enableNow_out_of_range hsize)),
        fun hdown => nextDev_of_eq hnext (writeEnable_held he hb hdown)⟩
    case busy => exact nextDev_of_eq (enable_next halive h0 p1 p2) (writeEnable_done (.inr hb))
    case reset => exact controllerReset_next halive h0 p1 p2 he
    case shutdown =>
      obtain ⟨henable, hstopped⟩ := writeShutdown_hqe s.env hs
      obtain ⟨-, -, hnext, -⟩ := devCtrl_next halive (devCtrlWrite_shutdown h0 h1 h2)
      have hdone := writeEnable_done (env := s.env) (.inl (henable.trans he))
      have hreset : writeShutdown s.env s.dev = _ := if_neg (ne_true_of_eq_false hs)
      exact ⟨_, (hnext h1).trans (by rw [hdone, hreset]), rfl, hreset ▸ hstopped⟩
    case again =>
      obtain ⟨-, -, hnext, -⟩ := devCtrl_next halive (devCtrlWrite_shutdown h0 h1 h2)
      have hsame : writeShutdown s.env s.dev = s.dev := if_pos hs
      exact (hnext h1).trans (by rw [hsame, writeEnable_done (.inl he)])
    case devrst =>
      obtain ⟨-, -, -, hnext⟩ := devCtrl_next halive (devCtrlWrite_devrst h2 hkey)
      have hhost : hostAlive s.env = true := by simp [barAlive] at halive; simp [halive]
      exact ⟨_, hnext h2, requestDeviceReset_begins hhost hnone s.dev⟩
  case resets =>
    intro s halive is
    have cleared {i : Instr} {kind : Nat} {msix : Tbl Msix} {d : Dev} (hnext : NextDev i s d)
        (h : HostCleared kind msix s.dev d) : Does i s (is kind msix) := ⟨_, hnext, rfl, h⟩
    refine ⟨?flr, fun hperst hup => ?linkDown, fun v h0 h1 h2 hbar he => ?controller⟩
    case flr => exact cleared (functionLevelReset_next halive) (controllerReset_clears s.env rfl).1
    case linkDown =>
      obtain ⟨hclear, hlink⟩ := controllerReset_clears (kind := 3) (msix := []) s.env
        (d := { s.dev with hqe := { s.dev.hqe with linkSpeed := 0, linkWidth := 0 } }) rfl
      have hdown := pcieLinkDown_next halive hperst hup
      generalize controllerReset 3 s.env _ = d at hclear hlink hdown
      exact ⟨_, hdown, ⟨rfl, hclear⟩, hlink⟩
    case controller =>
      exact cleared (controllerReset_next hbar h0 h1 h2 he) (controllerReset_clears s.env rfl).1

end Sys2Proof.Proofs
end

section
/-! How resets and shutdowns end (04, 16): RESET_BUSY, SHUTDOWN_DONE, a degraded link, and the steps of a device reset
(R98, R103, R104, R455). -/

namespace Sys2Proof.Proofs

open Sys2Proof.Machine Sys2Proof.Claims Sys2Proof.Laws

/-! ### RESET_BUSY, SHUTDOWN_DONE and the link -/

theorem resetBusyClear_next {s : State} (hb : s.dev.hqe.resetBusy = true)
    (hnone : s.dev.mea.tasks.all (fun t => t.kind != .host) = true) (hswap : s.dev.sec.activating = none) :
    NextDev .resetBusyClear s { s.dev with hqe := { s.dev.hqe with resetBusy := false } } := by
  change execResetBusyClear s = _
  simp only [execResetBusyClear, onDev_next, hb, hnone, hswap, Option.isNone_none, Bool.and_self, if_true]

theorem shutdownDone_next {s : State} (hs : s.dev.hqe.shutdown = true) (hd : s.dev.hqe.shutdownDone = false)
    (halive : hostAlive s.env = true) (hquiet : quiet s.dev = true) :
    NextDev .shutdownDone s (checkpoint s.env { s.dev with hqe := { s.dev.hqe with shutdownDone := true } }) := by
  change execShutdownDone s = _
  simp only [execShutdownDone, onDev_next, hs, hd, halive, hquiet, Bool.not_false, Bool.and_self, if_true]

/-- Below x16 or 32 GT/s a link that comes up is degraded (R98). -/
theorem pcieLinkUp_next {s : State} {speed width : Nat} (hperst : s.dev.hqe.perst = false) (htrains : linkTrains s.env = true)
    (hloader : loaderDead s.dev = false) (hspeed : speed ∈ [1, 3, 4, 5]) (hwidth : width ∈ [1, 4, 8, 16]) :
    let linked : Dev := { s.dev with hqe := { s.dev.hqe with linkSpeed := speed, linkWidth := width } }
    NextDev (.pcieLinkUp speed width) s (if speed < 5 ∨ width < 16
      then event s.env 0x0107 3 clsHardware 0 (speed + width * 16) 0 0 (hqeCause s.env 0x20 linked) else linked) := by
  change execPcieLinkUp speed width s = _
  unfold execPcieLinkUp
  refine onDev_eq ?_
  rw [if_neg (by simp_all)]
  simp only [Bool.or_eq_true, decide_eq_true_eq]
  rfl

/-! ### The steps of a device reset (R455) -/

section
variable {env : Env} {d : Dev} {t : Nat}

/-- The time base and power state with the device reset at a step. -/
def atStep (k t : Nat) (env : Env) : Env := { env with pw := { env.pw with resetStep := some (k, t) } }

theorem resetAdvance_idle (h : d.mea.tasks = []) : resetAdvance 1 t env d = (atStep 2 t env, d) := by
  simp [resetAdvance, atStep, h]

/-- Tasks that have not ended in 1 s are stopped. -/
theorem resetAdvance_stops (h : d.mea.tasks ≠ []) (ht : t + Config.second ≤ env.tick) :
    resetAdvance 1 t env d = (atStep 2 t env, stopTasks d) := by
  simp [resetAdvance, atStep, h, ht]

theorem resetAdvance_recovering (h : d.trl.recovering = true) : resetAdvance 2 t env d = (atStep 3 t env, d) := by
  simp [resetAdvance, atStep, h]

/-- With protected felt on media the checkpoint is written. -/
theorem resetAdvance_checkpoint (h : d.trl.recovering = false) (hsettled : d.flt.held.all (fun h => h.settled d) = true) :
    resetAdvance 2 t env d = (atStep 3 t env, checkpoint env d) := by
  simp only [resetAdvance, atStep, h, hsettled, if_true, Bool.false_eq_true, if_false]
  rfl

theorem resetAdvance_flows : resetAdvance 3 t env d = (atStep 4 t env, resetAllFlows env d) := rfl

/-- The removal waits for the RESETs, 3 s at most (log 148). -/
theorem resetAdvance_removal (h : ownWaiting env d = false ∨ t + 3 * Config.second ≤ env.tick) :
    resetAdvance 4 t env d = (atStep 5 t env, startRemoval env 2 d) := by
  have hgo : (ownWaiting env d && decide (env.tick < t + 3 * Config.second)) = false := by
    rcases h with h | h
    · simp [h]
    · simp [Nat.not_lt.mpr h]
  simp only [resetAdvance, hgo]
  rfl

end

/-- The time base and power state as the last step of a device reset leaves them: bring-up starts over. -/
def restarted (env : Env) : Env :=
  { env with pw := { resetPower (restartBringup 3 env.pw) with st := .bringup } }

/-- The last step resets the VCORE domain and starts bring-up over; the change of state and the reset are reported. -/
theorem resetAdvance_bringup (t : Nat) (env : Env) (d : Dev) :
    resetAdvance 5 t env d = (restarted env, event (restarted env) 0x0002 1 clsPower 0 2 0 0
      (event (restarted env) 0x1208 0 clsPower 0 (pstateCode env.pw.st) (pstateCode .bringup) 3
        { domainReset false false env (forceBypass env 2 d) with lastReset := 2 })) := rfl

/-- DEVICE_RESET_STEP goes on from the step the reset has come to. -/
theorem deviceResetStep_next {s : State} {n t : Nat} (h : s.env.pw.resetStep = some (n, t)) {env : Env} {d : Dev}
    (hx : resetAdvance n t s.env s.dev = (env, d)) : exec .deviceResetStep s = .next { s with env := env, dev := d } := by
  change execDeviceResetStep s = _
  simp only [execDeviceResetStep, onEnv_next, h, hx]

/-- Settles O32: each end by its command, each step of a device reset by what it waits for. -/
theorem resetsEnd : Obligations.ResetsEnd := by
  intro s n t0 speed width at_ linked
  refine ⟨resetBusyClear_next, shutdownDone_next, pcieLinkUp_next, fun hstep => ?steps⟩
  case steps =>
    have next {k : Nat} {d : Dev} (hx : resetAdvance n t0 s.env s.dev = (atStep k t0 s.env, d)) :
        Does .deviceResetStep s (at_ k d) := ⟨_, deviceResetStep_next hstep hx, rfl⟩
    refine ⟨fun hn h => next (hn ▸ resetAdvance_idle h), fun hn h ht => next (hn ▸ resetAdvance_stops h ht),
      fun hn h => next (hn ▸ resetAdvance_recovering h), fun hn h hs => next (hn ▸ resetAdvance_checkpoint h hs),
      fun hn => next (hn ▸ resetAdvance_flows), fun hn h => next (hn ▸ resetAdvance_removal h), fun hn => ?bringup⟩
    case bringup =>
      refine ⟨_, deviceResetStep_next hstep (hn ▸ resetAdvance_bringup t0 s.env s.dev), rfl, rfl, rfl, rfl, rfl, ?last,
        ?tasks, ?enable⟩
      case last => simp only [event_lastReset]
      case tasks => simp only [event_mea]; rfl
      case enable => simp only [event_hqe_enable]; rfl

end Sys2Proof.Proofs
end

section
/-! Bus Master Enable, BAR0, configuration space, attention, and uncorrectable errors of protected felt (04, 15): each command
where its condition holds (R99, R122, R348, R442, R453, R517). -/

namespace Sys2Proof.Proofs

open Sys2Proof.Machine Sys2Proof.Claims Sys2Proof.Laws

/-! ### Bus Master Enable (R122, R127) -/

/-- Requests are held, while the controller is enabled for 1 s, and the lease is lost. -/
theorem busMasterDisable_next {s : State} (h : s.dev.hqe.busMaster = true) :
    NextDev .busMasterDisable s (loseLease s.env 3 { s.dev with hqe := { s.dev.hqe with
      busMaster := false, bmeHold := if s.dev.hqe.enable then some s.env.tick else none } }) := by
  change execBusMasterDisable s = _
  simp only [execBusMasterDisable, onDev_next, busMasterOff, h, Bool.not_true, Bool.false_eq_true, if_false]

/-- The hold ends: completion writes held back fail, then interrupt messages. -/
theorem bmeHoldExpiry_held {s : State} {t : Nat} (hhold : s.dev.hqe.bmeHold = some t)
    (ht : t + Config.second ≤ s.env.tick) :
    NextDev .bmeHoldExpiry s (s.dev.hqe.heldMsi.foldl (failMsi s.env) (failCqes s.env s.dev.hqe.heldCqes
      { s.dev with hqe := { s.dev.hqe with bmeHold := none, heldCqes := [], heldMsi := [] } })) := by
  change execBmeHoldExpiry s = _
  simp only [execBmeHoldExpiry, onDev_next, hhold, ht, if_true]

/-- With no hold running, interrupt messages raised with Bus Master Enable clear fail (log 115). -/
theorem bmeHoldExpiry_none {s : State} (hnone : s.dev.hqe.bmeHold = none) (hoff : s.dev.hqe.busMaster = false) :
    NextDev .bmeHoldExpiry s (failHeldMsi s.env s.dev) := by
  change execBmeHoldExpiry s = _
  simp only [execBmeHoldExpiry, onDev_next, hnone, hoff, Bool.false_eq_true, if_false]

/-! ### BAR0 (R99, R348, R442) -/

section
variable {s : State} (halive : barAlive s.env s.dev = true)
include halive

/-- An access that is neither four aligned bytes nor eight is ignored, counted and reported. -/
theorem barAccessInvalid_next {off size : Nat} (h4 : ¬ (size = 4 ∧ off % 4 = 0)) (h8 : ¬ (size = 8 ∧ off % 8 = 0))
    (wr : Bool) :
    NextDev (.barAccessInvalid off size wr) s (barInvalid off size s.env s.dev) := by
  change execBarAccessInvalid off size wr s = _
  unfold execBarAccessInvalid
  refine onDev_eq (if_neg ?_)
  simp only [halive, Bool.not_true, Bool.false_or, Bool.or_eq_true, Bool.and_eq_true, decide_eq_true_eq, not_or]
  exact ⟨h4, h8⟩

theorem attnMaskWrite_next (v : W32) :
    NextDev (.attnMaskWrite v) s (attnEdit s.env (fun a => { a with mask := v &&& 0x7FFFE }) s.dev) := by
  change execAttnMaskWrite v s = _
  simp only [execAttnMaskWrite, onDev_next, halive, if_true, setAttnMask]

/-- A read of RDM_TICK's low half through BAR0 latches the high half. -/
theorem rdmTickLowRead_bar {port : Nat} (hport : 2 ≤ port) :
    NextDev (.rdmTickLowRead port) s { s.dev with tickLatch := some (BitVec.ofNat 32 (s.env.tick / 2 ^ 32)) } := by
  change execRdmTickLowRead port s = _
  simp only [execRdmTickLowRead, onDev_next, halive, Bool.or_true, if_true, latchTick, Nat.not_lt.mpr hport, if_false, w32]

end

/-- A management port latches the high half for itself. -/
theorem rdmTickLowRead_port {s : State} {port : Nat} (hport : port < 2) :
    NextDev (.rdmTickLowRead port) s { s.dev with mg := vupd s.dev.mg port (fun g =>
      { g with latch := some (BitVec.ofNat 32 (s.env.tick / 2 ^ 32)) }) } := by
  change execRdmTickLowRead port s = _
  simp only [execRdmTickLowRead, onDev_next, hport, decide_true, Bool.true_or, if_true, latchTick, w32]

/-- The merged rises of the attention tree are signalled once. -/
theorem attnSignal_next {s : State} {t : Nat} (hlast : s.dev.attn.lastSignal = some t) (hpending : s.dev.attn.pending = true)
    (ht : t + 250 ≤ s.env.tick) (halive : hostAlive s.env = true) :
    NextDev .attnSignal s
      (sendMsi 0 { s.dev with attn := { s.dev.attn with pending := false, lastSignal := some s.env.tick } }) := by
  change execAttnSignal s = _
  simp only [execAttnSignal, onDev_next, hlast, hpending, ht, halive, decide_true, Bool.and_self, if_true]

/-! ### Configuration space (R96, R453) -/

/-- A configuration request is answered from the end of step 2 of bring-up on. -/
theorem configurationRequest_next {s : State} (halive : hostAlive s.env = true) (hperst : s.dev.hqe.perst = false)
    (r : CfgReq) :
    NextDev (.configurationRequest r) s (configure r s.env s.dev) := by
  change execConfigurationRequest r s = _
  simp only [execConfigurationRequest, onDev_next, halive, hperst, Bool.not_false, Bool.and_self, if_true]

/-! ### Protected felt (R120, R517) -/

/-- The data an uncorrectable error touches is lost and reported; of an acknowledged write it is a deferred error. -/
theorem protEccUncorr_next {s : State} {held drOff : Nat} {h : Held} {run : Run}
    (hheld : s.dev.flt.held.find? (fun y => y.id == held) = some h) (hrun : (touchedRun h s.dev).1 = some run) :
    let lost := event s.env 0x0A01 5 clsHardware 0 (drOff / 64) h.ksid.toNat h.version.toNat
      (setCause s.env 10 2 (loseRun h run (touchedRun h s.dev).2))
    NextDev (.protEccUncorr held drOff) s (if h.acked.isSome then deferError s.env h 1 lost else lost) := by
  change execProtEccUncorr held drOff s = _
  simp only [execProtEccUncorr, onDev_next, hheld, hrun]

/-- Settles O33: each command by what it does where its condition holds. -/
theorem hostSide : Obligations.HostSide := by
  intro s t0 off size port held drOff run wr v h x
  refine ⟨busMasterDisable_next, bmeHoldExpiry_held, bmeHoldExpiry_none,
    fun halive => ⟨fun h4 h8 => barAccessInvalid_next halive h4 h8 wr, attnMaskWrite_next halive v,
      rdmTickLowRead_bar halive⟩,
    fun halive hperst => ?config, rdmTickLowRead_port, attnSignal_next, protEccUncorr_next⟩
  case config =>
    have hnext := configurationRequest_next halive hperst
    exact ⟨hnext (.read off), hnext (.deviceControl2 off), hnext (.busMaster true), hnext (.busMaster false),
      hnext (.msix true wr)⟩

end Sys2Proof.Proofs
end

section
/-! Keyspaces, programs, queue pairs and the map lease (04, 12, 13): the commands, each by the cases of its rules
(R105–R107, R125, R127, R377–R379, R402–R408). -/

namespace Sys2Proof.Proofs

open Sys2Proof.Machine Sys2Proof.Claims Sys2Proof.Laws

/-- A task that serves a command of the standard program set has its meaning applied. -/
theorem serve_next {s : State} {r : TaskRef} {opc : Nat} {t : Task} (h : serving s.dev r opc = some t)
    {f : Env → Task → Dev → Dev} {d : Dev} (hd : f s.env t s.dev = d) : serve r opc f s = .next { s with dev := d } := by
  rw [serve, onDev_next, h, ← hd]

/-! ### Keyspaces (R377–R379, R402–R404) -/

section
variable {s : State} {r : TaskRef} {t : Task} {value : Rd} {bs : List Byte}

section
variable (h : serving s.dev r 0x4F = some t)
include h

theorem keyspaceCreate_exists
    (hx : (ksOf s.dev (capKsid t.capsule)).exist = true ∨ (ksOf s.dev (capKsid t.capsule)).deleting = true) :
    NextDev (.keyspaceCreate r value) s (adminDone s.env t scExists 0 s.dev) := by
  change execKeyspaceCreate r value s = _
  exact serve_next h (if_pos (by simpa using hx))

variable (hx : (ksOf s.dev (capKsid t.capsule)).exist = false) (hdel : (ksOf s.dev (capKsid t.capsule)).deleting = false)
include hx hdel

theorem keyspaceCreate_plain (hplain : bitOf t.capsule 48 = false) :
    NextDev (.keyspaceCreate r value) s
      (adminDone s.env t scOk 0 (createKs (capKsid t.capsule) (cap t.capsule 6 1) [] [] s.dev)) := by
  change execKeyspaceCreate r value s = _
  exact serve_next h (by simp [hx, hdel, hplain])

/-- An encrypted keyspace draws its salt, and its root comes of that and the credential. -/
theorem keyspaceCreate_encrypted (henc : bitOf t.capsule 48 = true) (hdata : fetchData s.dev t 32 value = .data bs) :
    let salt := takeFreeBytes 32 (copied t 32 s.dev)
    NextDev (.keyspaceCreate r value) s (adminDone s.env t scOk 0
      (createKs (capKsid t.capsule) (cap t.capsule 6 1) salt.1 (ksrOf (capKsid t.capsule) salt.1 bs) salt.2)) := by
  change execKeyspaceCreate r value s = _
  exact serve_next h (by simp [hx, hdel, henc, hdata])

end

theorem keyspaceDelete_next (h : serving s.dev r 0x50 = some t) :
    NextDev (.keyspaceDelete r) s (if (ksOf s.dev (capKsid t.capsule)).exist = false
      then adminDone s.env t scNotFound 0 s.dev else adminDone s.env t scOk 0 (deleteKs (capKsid t.capsule) s.dev)) := by
  change execKeyspaceDelete r s = _
  exact serve_next h (by simp)

/-- Erasing takes the salt away before the deletion. -/
theorem keyspaceErase_next (h : serving s.dev r 0x51 = some t) (hx : (ksOf s.dev (capKsid t.capsule)).exist = true) :
    let f := takeFreeBytes 32 s.dev
    NextDev (.keyspaceErase r) s (if (ksOf s.dev (capKsid t.capsule)).encrypted = false
      then adminDone s.env t scInvalidField 0 s.dev
      else adminDone s.env t scOk 0
        (deleteKs (capKsid t.capsule) (updKs (capKsid t.capsule) (fun y => { y with salt := f.1 }) f.2))) := by
  change execKeyspaceErase r s = _
  exact serve_next h (by simp [hx])

section
variable (h : serving s.dev r 0x52 = some t) (hx : (ksOf s.dev (capKsid t.capsule)).exist = true)
  (henc : (ksOf s.dev (capKsid t.capsule)).encrypted = true)
include h hx henc

/-- While a lockout runs an unlock fails without a comparison. -/
theorem keyspaceUnlock_locked_out (hop : capOpts t.capsule = 0)
    (hout : lockedOut s.env (ksOf s.dev (capKsid t.capsule)) = true) :
    NextDev (.keyspaceUnlock r value) s (adminDone s.env t scAuthFail 0 s.dev) := by
  change execKeyspaceUnlock r value s = _
  exact serve_next h (by simp [hop, hx, henc, hout])

/-- The credential's root is compared with the check value. -/
theorem keyspaceUnlock_compares (hop : capOpts t.capsule = 0)
    (hout : lockedOut s.env (ksOf s.dev (capKsid t.capsule)) = false) (hdata : fetchData s.dev t 32 value = .data bs) :
    let k := capKsid t.capsule
    let root := ksrOf k (ksOf s.dev k).salt bs
    NextDev (.keyspaceUnlock r value) s (if checkOf k root = (ksOf s.dev k).check
      then adminDone s.env t scOk 0 (unlockKs k root (copied t 32 s.dev))
      else adminDone s.env t scAuthFail 0 (unlockFailed s.env k (copied t 32 s.dev))) := by
  change execKeyspaceUnlock r value s = _
  exact serve_next h (by simp [hop, hx, henc, hout, hdata])

theorem keyspaceLock_next (hop : capOpts t.capsule = 1) :
    NextDev (.keyspaceLock r) s
      (adminDone s.env t scOk 0 (updKs (capKsid t.capsule) (fun y => { y with locked := true }) s.dev)) := by
  change execKeyspaceLock r s = _
  exact serve_next h (by simp [hop, hx, henc])

end

/-- A lockout ends at its tick. -/
theorem unlockLockoutEnd_next {ks : Byte} {n : Nat} (hout : (ksOf s.dev ks.toNat).lockout = some n) :
    NextDev (.unlockLockoutEnd ks) s (if n ≤ s.env.tick
      then updKs ks.toNat (fun y => { y with lockout := none, mismatches := 0 }) s.dev else s.dev) := by
  change execUnlockLockoutEnd ks s = _
  simp only [execUnlockLockoutEnd, onDev_next, hout]

/-! ### Programs (R405–R408) -/

section
variable (h : serving s.dev r 0x49 = some t) (hstart : t.job.phase = .start)
include h hstart

theorem programLoad_busy (hbusy : fwBusy s.dev = true) :
    NextDev (.programLoad r value) s (adminDone s.env t scBusyActivation 0 s.dev) := by
  change execProgramLoad r value s = _
  exact serve_next h (by simp [hstart, hbusy])

/-- The image read is checked and, where it may be, loaded. -/
theorem programLoad_loads (hbusy : fwBusy s.dev = false)
    (hdata : fetchData s.dev t (capLen t.capsule) value = .data bs) :
    NextDev (.programLoad r value) s (loadImage s.env t bs (copied t bs.length s.dev)) := by
  change execProgramLoad r value s = _
  exact serve_next h (by simp [hstart, hbusy, hdata])

end

theorem loadImage_rejects {env : Env} {d : Dev} {why : Nat × Nat} (h : imgReject bs = some why) :
    loadImage env t bs d = adminDone env t scImageRejected (why.1 + why.2 * 2 ^ 32) d := by
  simp [loadImage, h]

/-- With no task of the program it replaces left, the image takes its place. -/
theorem loadImage_installs {env : Env} {d : Dev} {at_ : Nat × Nat × Nat} (h : imgReject bs = none)
    (hgranted : hooksGranted d bs = true) (hfree : heldByOther d bs = false) (hplace : placement d bs = some at_)
    (hidle : tblGet d.mea.programs (imgId bs) = none ∨ programBusy d (imgId bs) = false) :
    loadImage env t bs d = adminDone env t scOk (imgId bs + at_.1 * 2 ^ 32)
      (installProgram env bs at_ (unbindProgram (imgId bs) d)) := by
  have hgo : ((tblGet d.mea.programs (imgId bs)).isSome && programBusy d (imgId bs)) = false := by
    rcases hidle with h | h <;> simp [h]
  simp [loadImage, h, hgranted, hfree, hplace, hgo]

section
variable (h : serving s.dev r 0x4A = some t) (hstart : t.job.phase = .start) (hbusy : fwBusy s.dev = false)
include h hstart hbusy

theorem programUnload_none (hnone : tblGet s.dev.mea.programs (capOpts t.capsule) = none) :
    NextDev (.programUnload r) s (adminDone s.env t scNotFound 0 s.dev) := by
  change execProgramUnload r s = _
  exact serve_next h (by simp [hstart, hbusy, hnone])

/-- With no task of it left, a program is unbound and unloaded at once. -/
theorem programUnload_idle {g : Program} (hg : tblGet s.dev.mea.programs (capOpts t.capsule) = some g)
    (hlive : g.unloading = false) (hidle : programBusy s.dev (capOpts t.capsule) = false) :
    NextDev (.programUnload r) s
      (endUnload s.env t (capOpts t.capsule) (unbindProgram (capOpts t.capsule) s.dev)) := by
  change execProgramUnload r s = _
  exact serve_next h (by simp [hstart, hbusy, hg, hlive, hidle])

end

/-! ### Queue pairs (R105–R107) -/

theorem queueCreate_new (h : serving s.dev r 0x4B = some t) (hnone : pairOf s.dev (capOpts t.capsule) = none) :
    NextDev (.queueCreate r) s (adminDone s.env t scOk (capOpts t.capsule)
      (addPair (capOpts t.capsule) { newPair t.capsule with born := s.dev.mea.nextArrival } s.dev)) := by
  change execQueueCreate r s = _
  exact serve_next h (by simp [hnone])

theorem queueCreate_exists (h : serving s.dev r 0x4B = some t) (hsome : (pairOf s.dev (capOpts t.capsule)).isSome = true) :
    NextDev (.queueCreate r) s (adminDone s.env t scExists 0 s.dev) := by
  change execQueueCreate r s = _
  exact serve_next h (if_pos hsome)

section
variable (h : serving s.dev r 0x4C = some t)
include h

theorem queueDelete_none (hstart : t.job.phase = .start) (hnone : pairOf s.dev (capOpts t.capsule) = none) :
    NextDev (.queueDelete r) s (adminDone s.env t scNotFound 0 s.dev) := by
  change execQueueDelete r s = _
  exact serve_next h (by simp [hstart, hnone])

theorem queueDelete_accepts {p : Pair} (hstart : t.job.phase = .start) (hp : pairOf s.dev (capOpts t.capsule) = some p)
    (hlive : p.deleting = none) :
    NextDev (.queueDelete r) s (acceptDelete s.env t (capOpts t.capsule) p s.dev) := by
  change execQueueDelete r s = _
  exact serve_next h (by simp [hstart, hp, hlive])

theorem queueDelete_waits (hwait : t.job.phase = .waitDrive) (hbusy : pairBusy s.dev (capOpts t.capsule) = true) :
    NextDev (.queueDelete r) s s.dev := by
  change execQueueDelete r s = _
  exact serve_next h (by simp [hwait, hbusy])

/-- With nothing of the pair left, the deletion ends. -/
theorem queueDelete_ends (hwait : t.job.phase = .waitDrive) (hidle : pairBusy s.dev (capOpts t.capsule) = false) :
    NextDev (.queueDelete r) s
      (adminDone s.env t scOk t.job.total (erasePair t (capOpts t.capsule) s.dev)) := by
  change execQueueDelete r s = _
  exact serve_next h (by simp [hwait, hidle, endDelete])

end

/-- The pair a deletion was accepted for goes. -/
theorem erasePair_mine {d : Dev} {q : Nat} {p : Pair} (hp : pairOf d q = some p) (hmine : p.deleting = some t.ref) :
    erasePair t q d = { d with hqe := { d.hqe with pairs := tblErase d.hqe.pairs q } } := by
  simp [erasePair, hp, hmine]

/-- One created under its QID since stays. -/
theorem erasePair_other {d : Dev} {q : Nat} {p : Pair} (hp : pairOf d q = some p) (hother : p.deleting ≠ some t.ref) :
    erasePair t q d = d := by
  simp [erasePair, hp, hother]

/-! ### The map lease (R125, R127) -/

section
variable (h : serving s.dev r 0x4D = some t)
include h

theorem mapLeaseGrant_exists (hop : capOpts t.capsule = 0) (hactive : s.dev.hqe.lease.active = true) :
    NextDev (.mapLeaseGrant r value) s (adminDone s.env t scExists 0 s.dev) := by
  change execMapLeaseGrant r value s = _
  exact serve_next h (by simp [hop, hactive])

/-- The list of regions read is checked against R125's limits. -/
theorem mapLeaseGrant_next (hop : capOpts t.capsule = 0) (hnone : s.dev.hqe.lease.active = false)
    (hdata : fetchData s.dev t (capLen t.capsule) value = .data bs) :
    let d := copied t bs.length s.dev
    let l := sglEntries (capLen t.capsule / 16) bs
    NextDev (.mapLeaseGrant r value) s (if leaseOk (capLen t.capsule / 16) bs = false
      then adminDone s.env t scInvalidField 0 d else adminDone s.env t scOk (leaseBytes l / 2 ^ 20) (grantLease l d)) := by
  change execMapLeaseGrant r value s = _
  exact serve_next h (by simp [hop, hnone, hdata])

theorem mapLeaseQuery_next (hop : capOpts t.capsule = 2) :
    NextDev (.mapLeaseQuery r) s
      (adminDone s.env t scOk (s.dev.hqe.lease.sizeMib + s.dev.hqe.lease.lastReason * 2 ^ 32) s.dev) := by
  change execMapLeaseQuery r s = _
  exact serve_next h (by simp [hop])

variable (hop : capOpts t.capsule = 1)
include hop

/-- Without a lease there is nothing to revoke. -/
theorem mapLeaseRevoke_none (hstart : t.job.phase = .start) (hnone : s.dev.hqe.lease.active = false) :
    NextDev (.mapLeaseRevoke r) s (adminDone s.env t scNotFound 0 s.dev) := by
  change execMapLeaseRevoke r s = _
  exact serve_next h (by simp [hop, hstart, hnone])

/-- A lease lost while its REVOKE waited leaves nothing to wait for. -/
theorem mapLeaseRevoke_other (hwait : t.job.phase = .waitDrive) (hother : t.job.asked ≠ s.dev.hqe.lease.gen.toNat) :
    NextDev (.mapLeaseRevoke r) s (adminDone s.env t scOk 0 s.dev) := by
  change execMapLeaseRevoke r s = _
  exact serve_next h (by simp [hop, hwait, hother])

variable (hactive : s.dev.hqe.lease.active = true)
include hactive

/-- With no read of the lease issued, it ends. -/
theorem mapLeaseRevoke_ends
    (hmine : t.job.phase = .start ∨ t.job.phase = .waitDrive ∧ t.job.asked = s.dev.hqe.lease.gen.toNat)
    (hidle : s.dev.hqe.lease.reads = []) :
    NextDev (.mapLeaseRevoke r) s (adminDone s.env t scOk 0
      { s.dev with hqe := { s.dev.hqe with lease := { gen := s.dev.hqe.lease.gen } } }) := by
  change execMapLeaseRevoke r s = _
  refine serve_next h ?_
  rcases hmine with hstart | ⟨hwait, hasked⟩
  · simp [hop, hactive, hidle, hstart]
  · simp [hop, hactive, hidle, hwait, hasked]

/-- With reads of the lease issued, a REVOKE is accepted and waits for them. -/
theorem mapLeaseRevoke_accepts (hstart : t.job.phase = .start) (hreads : s.dev.hqe.lease.reads ≠ []) :
    NextDev (.mapLeaseRevoke r) s
      (waitJob s.env t { t.job with phase := .waitDrive, asked := s.dev.hqe.lease.gen.toNat }
        { s.dev with hqe := { s.dev.hqe with lease := { s.dev.hqe.lease with revoking := true } } }) := by
  change execMapLeaseRevoke r s = _
  exact serve_next h (by simp [hop, hactive, hreads, hstart])

/-- An accepted REVOKE goes on waiting for them. -/
theorem mapLeaseRevoke_waits (hwait : t.job.phase = .waitDrive) (hasked : t.job.asked = s.dev.hqe.lease.gen.toNat)
    (hreads : s.dev.hqe.lease.reads ≠ []) : NextDev (.mapLeaseRevoke r) s s.dev := by
  change execMapLeaseRevoke r s = _
  exact serve_next h (by simp [hop, hactive, hreads, hwait, hasked])

end

end

/-! ### A command that waits -/

@[simp] theorem putJob_hqe (t : Task) (d : Dev) : (putJob t d).hqe = d.hqe := by
  unfold putJob; split <;> rfl

@[simp] theorem park_hqe (env : Env) (t : Task) (d : Dev) : (park env t d).hqe = d.hqe := by
  unfold park
  split
  · simp [leaveRunning, chargeInstrs]
  · rfl

@[simp] theorem waitJob_hqe (env : Env) (t : Task) (j : Job) (d : Dev) : (waitJob env t j d).hqe = d.hqe := by
  unfold waitJob; dsimp only; split <;> simp

/-! ### The statement -/

/-- Settles O41: each command by the case of its rule. -/
theorem keyspacesProgramsAndQueues : Obligations.KeyspacesProgramsAndQueues := by
  intro s r t opc value bs at_ why p ks until_ c k x fin took salt erased root id q lease
  refine ⟨fun h => ?commands, fun hout => ⟨fun hdue => nextDev_of_eq (unlockLockoutEnd_next hout) (if_pos hdue),
    fun hrun => nextDev_of_eq (unlockLockoutEnd_next hout) (if_neg (Nat.not_le.mpr hrun))⟩⟩
  refine ⟨?create, ?createExists, ?delete, ?deleteNone, ?erase, ?erasePlain, ?unlock, ?lock, ?load, ?loadBusy, ?unloadNone,
    ?unload, ?queueNew, ?queueExists, ?pairNone, ?pairAccept, ?pairEnds, ?pairWaits, ?grant, ?grantExists, ?revoke,
    ?revokeAccepted, ?revokeOther, ?revokeNone, ?query⟩
  all_goals rintro rfl
  case create =>
    exact fun hx hdel => ⟨keyspaceCreate_plain h hx hdel, keyspaceCreate_encrypted h hx hdel⟩
  case createExists => exact keyspaceCreate_exists h
  case delete => exact fun hx => nextDev_of_eq (keyspaceDelete_next h) (if_neg (ne_false_of_eq_true hx))
  case deleteNone => exact fun hx => nextDev_of_eq (keyspaceDelete_next h) (if_pos hx)
  case erase => exact fun hx henc => nextDev_of_eq (keyspaceErase_next h hx) (if_neg (ne_false_of_eq_true henc))
  case erasePlain => exact fun hx henc => nextDev_of_eq (keyspaceErase_next h hx) (if_pos henc)
  case unlock =>
    refine fun hop hx henc => ⟨keyspaceUnlock_locked_out h hx henc hop, fun hout hdata => ?_⟩
    have hnext := keyspaceUnlock_compares h hx henc hop hout hdata
    exact ⟨fun hok => nextDev_of_eq hnext (if_pos hok), fun hbad => nextDev_of_eq hnext (if_neg hbad)⟩
  case lock => exact fun hop hx henc => keyspaceLock_next h hx henc hop
  case load =>
    intro hstart hbusy hdata d
    have hnext := programLoad_loads h hstart hbusy hdata
    exact ⟨fun hbad => nextDev_of_eq hnext (loadImage_rejects hbad),
      fun hok hgranted hfree hplace hidle => nextDev_of_eq hnext (loadImage_installs hok hgranted hfree hplace hidle)⟩
  case loadBusy => exact fun hstart hbusy => programLoad_busy h hstart hbusy
  case unloadNone => exact fun hstart hbusy hnone => programUnload_none h hstart hbusy hnone
  case unload =>
    rintro hstart hbusy ⟨g, hg, hlive⟩ hidle
    exact programUnload_idle h hstart hbusy hg hlive hidle
  case queueNew => exact queueCreate_new h
  case queueExists => exact queueCreate_exists h
  case pairNone => exact queueDelete_none h
  case pairAccept => exact queueDelete_accepts h
  case pairEnds =>
    intro hwait hidle hp
    have hnext := queueDelete_ends h hwait hidle
    exact ⟨fun hmine => nextDev_of_eq hnext (congrArg (adminDone s.env t scOk t.job.total) (erasePair_mine hp hmine)),
      fun hother => nextDev_of_eq hnext (congrArg (adminDone s.env t scOk t.job.total) (erasePair_other hp hother))⟩
  case pairWaits => exact queueDelete_waits h
  case grant =>
    intro hop hnone hdata d
    have hnext := mapLeaseGrant_next h hop hnone hdata
    exact ⟨fun hok => nextDev_of_eq hnext (if_neg (ne_false_of_eq_true hok)), fun hbad => nextDev_of_eq hnext (if_pos hbad)⟩
  case grantExists => exact mapLeaseGrant_exists h
  case revoke =>
    exact fun hop hactive hstart => ⟨mapLeaseRevoke_ends h hop hactive (.inl hstart),
      fun hreads => ⟨_, mapLeaseRevoke_accepts h hop hactive hstart hreads, rfl, waitJob_hqe ..⟩⟩
  case revokeAccepted =>
    exact fun hop hactive hwait hasked => ⟨mapLeaseRevoke_ends h hop hactive (.inr ⟨hwait, hasked⟩),
      mapLeaseRevoke_waits h hop hactive hwait hasked⟩
  case revokeOther => exact fun hop _ hwait hother => mapLeaseRevoke_other h hop hwait hother
  case revokeNone => exact fun hop hnone hstart => mapLeaseRevoke_none h hop hstart hnone
  case query => exact mapLeaseQuery_next h

end Sys2Proof.Proofs
end

section
/-! What the directory says under each slot, and what placing data on media leaves of it: a version's place in the maps and
its object record may move, its key, number and bytes do not (R136, R212, R222). -/

namespace Sys2Proof.Proofs

open Sys2Proof.Machine Sys2Proof.Claims Sys2Proof.Laws

/-! ### Slots by number -/

/-- An entry stored leaves those under other keys. -/
theorem tblGet_tblSet_ne {α : Type} {k n : Nat} (h : n ≠ k) (t : Tbl α) (x : α) : tblGet (tblSet t k x) n = tblGet t n := by
  induction t with
  | nil => simp [tblSet, tblGet, h.symm]
  | cons e t ih =>
    obtain ⟨y, c⟩ := e
    simp only [tblSet]
    split
    · simp [tblGet, h.symm]
    · split
      · next heq => simp [tblGet, ← heq, h.symm]
      · simp [tblGet, ih]

theorem slotAt_updSlot_same {d : Dev} {n : Nat} {x : Slot} (h : slotAt d n = some x) (f : Slot → Slot) :
    slotAt (updSlot n f d) n = some (f x) := by
  have hget : tblGet d.kdr.slots n = some x := h
  simp [updSlot, hget, slotAt, tblGet_tblSet_same]

/-- A change of a slot that is EMPTY, or of another one, leaves the slot. -/
theorem slotAt_updSlot_ne {n m : Nat} (hne : n ≠ m) (f : Slot → Slot) (d : Dev) :
    slotAt (updSlot m f d) n = slotAt d n := by
  unfold updSlot
  split
  · exact tblGet_tblSet_ne hne ..
  · rfl

/-- What an object is to a reader: its length, its bytes and its frames. -/
def objBody (o : Obj) : Nat × Mem × Option FrameObj := (o.len, o.data, o.frame)

/-- What a slot says: its key, its keyspace, and the version and object a reader finds. -/
def slotSays (x : Slot) : List Byte × Byte × Option (W32 × Nat × Mem × Option FrameObj) :=
  (x.key, x.ksid, x.current.map (fun y => (y.1, objBody y.2)))

/-- What the slot of a number says. -/
def saysAt (d : Dev) (n : Nat) : Option (List Byte × Byte × Option (W32 × Nat × Mem × Option FrameObj)) :=
  (slotAt d n).map slotSays

theorem saysAt_of_slots {d e : Dev} (h : e.kdr.slots = d.kdr.slots) (n : Nat) : saysAt e n = saysAt d n := by
  rw [saysAt, saysAt, slotAt, slotAt, h]

theorem saysAt_of_kdr {d e : Dev} (h : e.kdr = d.kdr) (n : Nat) : saysAt e n = saysAt d n :=
  saysAt_of_slots (congrArg Kdr.slots h) n

/-- A change of slots that leaves what they say. -/
theorem saysAt_updSlot {f : Slot → Slot} (hf : ∀ x, slotSays (f x) = slotSays x) (m n : Nat) (d : Dev) :
    saysAt (updSlot m f d) n = saysAt d n := by
  by_cases hnm : n = m
  · subst hnm
    cases h : slotAt d n with
    | none =>
      have hget : tblGet d.kdr.slots n = none := h
      simp only [updSlot, hget]
    | some x => simp [saysAt, slotAt_updSlot_same h, h, hf]
  · simp only [saysAt, slotAt_updSlot_ne hnm]

/-- A slot that says a version and a body has an object of it. -/
theorem slotAt_of_saysAt {d : Dev} {n : Nat} {key : List Byte} {k : Byte} {v : W32} {body : Nat × Mem × Option FrameObj}
    (h : saysAt d n = some (key, k, some (v, body))) :
    ∃ y o, slotAt d n = some y ∧ y.key = key ∧ y.ksid = k ∧ y.current = some (v, o) ∧ objBody o = body := by
  obtain ⟨y, hy, hsays⟩ := Option.map_eq_some_iff.mp h
  obtain ⟨hkey, hrest⟩ := Prod.ext_iff.mp hsays
  obtain ⟨hk, hcur⟩ := Prod.ext_iff.mp hrest
  obtain ⟨⟨v', o⟩, ho, hbody⟩ := Option.map_eq_some_iff.mp hcur
  obtain ⟨hv, hb⟩ := Prod.ext_iff.mp hbody
  simp only at hv hb
  exact ⟨y, o, hy, hkey, hk, hv ▸ ho, hb⟩

/-- A slot that says no version has no object. -/
theorem slotAt_of_saysAt_none {d : Dev} {n : Nat} {key : List Byte} {k : Byte} (h : saysAt d n = some (key, k, none)) :
    ∃ y, slotAt d n = some y ∧ y.key = key ∧ y.ksid = k ∧ y.current = none := by
  obtain ⟨y, hy, hsays⟩ := Option.map_eq_some_iff.mp h
  obtain ⟨hkey, hrest⟩ := Prod.ext_iff.mp hsays
  obtain ⟨hk, hcur⟩ := Prod.ext_iff.mp hrest
  exact ⟨y, hy, hkey, hk, Option.map_eq_none_iff.mp hcur⟩

/-! ### What leaves the key directory -/

@[simp] theorem charge_kdr (c units : Nat) (d : Dev) : (charge c units d).kdr = d.kdr := by
  obtain ⟨b, h⟩ := charge_changes c units d
  rw [h]

@[simp] theorem takeFree_kdr (d : Dev) : (takeFree d).2.kdr = d.kdr := rfl
@[simp] theorem takeFreeBytes_kdr (n : Nat) (d : Dev) : (takeFreeBytes n d).2.kdr = d.kdr := rfl
@[simp] theorem updHeld_kdr (id : Nat) (f : Held → Held) (d : Dev) : (updHeld id f d).kdr = d.kdr := rfl
@[simp] theorem countTiles_kdr (tiles raw : Nat) (d : Dev) : (countTiles tiles raw d).kdr = d.kdr := rfl
@[simp] theorem bookForm_kdr (coded plain : List Byte) (d : Dev) : (bookForm coded plain d).kdr = d.kdr := rfl
@[simp] theorem chargeEncode_kdr (n : Nat) (d : Dev) : (chargeEncode n d).kdr = d.kdr := by
  rw [chargeEncode, charge_kdr]
@[simp] theorem placeCharge_kdr (slc : Bool) (n : Nat) (d : Dev) : (placeCharge slc n d).kdr = d.kdr := by
  rw [placeCharge, charge_kdr]

@[simp] theorem dirtyPages_kdr (ps : List Nat) (seq : Nat) (d : Dev) : (dirtyPages ps seq d).kdr = d.kdr := by
  unfold dirtyPages; dsimp only; split <;> rfl

@[simp] theorem updReam_kdr (r : Nat) (f : Ream → Ream) (d : Dev) : (updReam r f d).kdr = d.kdr := by
  unfold updReam; split <;> rfl

@[simp] theorem noteUrgent_kdr (env : Env) (before : Nat) (d : Dev) : (noteUrgent env before d).kdr = d.kdr := by
  simp only [noteUrgent]
  split
  · rw [event_kdr, setCause_kdr]
  · rfl

@[simp] theorem startReam_kdr (env : Env) (r stream : Nat) (slc : Bool) (d : Dev) :
    (startReam env r stream slc d).kdr = d.kdr := by
  rw [startReam, noteUrgent_kdr]

@[simp] theorem closeReam_kdr (r : Nat) (d : Dev) : (closeReam r d).kdr = d.kdr := updReam_kdr ..

@[simp] theorem closeQuire_kdr (r q : Nat) (d : Dev) : (closeQuire r q d).kdr = d.kdr := by
  unfold closeQuire
  dsimp only
  split
  · split <;> simp
  · simp

@[simp] theorem pageSeq_kdr (p : Nat) (first : Bool) (d : Dev) : (pageSeq p first d).2.kdr = d.kdr := by
  unfold pageSeq; split <;> rfl

theorem takeReam_kdr {env : Env} {stream : Nat} {slc : Bool} {d : Dev} {x : Nat × Dev}
    (h : takeReam env stream slc d = some x) : x.2.kdr = d.kdr := by
  unfold takeReam at h
  split at h
  · cases h; rfl
  · split at h
    · cases h
    · split at h
      · cases h
      · split at h
        · cases h
        · cases h; exact startReam_kdr ..

theorem placeIn_kdr {env : Env} {r : Nat} {sh : Sheet} {d : Dev} {x : Nat × Dev} (h : placeIn env r sh d = some x) :
    x.2.kdr = d.kdr := by
  unfold placeIn at h
  split at h
  · cases h
  · cases h
    dsimp only
    split <;> simp

@[simp] theorem padSheets_kdr (env : Env) (r n : Nat) (d : Dev) : (padSheets env r n d).kdr = d.kdr := by
  induction n generalizing d with
  | zero => rfl
  | succ n ih =>
    unfold padSheets
    dsimp only
    split
    · next h => rw [ih, placeIn_kdr h, updReam_kdr]
    · rfl

@[simp] theorem padQuire_kdr (env : Env) (r : Nat) (d : Dev) : (padQuire env r d).kdr = d.kdr := by
  unfold padQuire
  split
  · rfl
  · split <;> simp

theorem placeRow_kdr {env : Env} {r : Nat} {shs : List Sheet} {d : Dev} {x : List Nat × Dev}
    (h : placeRow env r shs d = some x) : x.2.kdr = d.kdr := by
  induction shs generalizing d x with
  | nil => cases h; rfl
  | cons sh shs ih =>
    unfold placeRow at h
    split at h
    · cases h
    · next hin =>
      obtain ⟨y, hy, rfl⟩ := Option.map_eq_some_iff.mp h
      exact (ih hy).trans (placeIn_kdr hin)

theorem reamFor_kdr {env : Env} {stream n : Nat} {slc : Bool} {d : Dev} {x : Nat × Dev}
    (h : reamFor env stream slc n d = some x) : x.2.kdr = d.kdr := by
  unfold reamFor at h
  split at h
  · split at h
    · split at h
      · cases h; rfl
      · simpa using takeReam_kdr h
    · cases h
  · exact takeReam_kdr h

/-- Placing sheets opens, fills and closes reams; the directory stays (R211–R213). -/
theorem placeStretch_kdr {env : Env} {stream : Nat} {slc : Bool} {shs : List Sheet} {d : Dev} {x : List Nat × Dev}
    (h : placeStretch env stream slc shs d = some x) : x.2.kdr = d.kdr := by
  unfold placeStretch at h
  split at h
  · cases h
  · next hream =>
    obtain ⟨y, hy, rfl⟩ := Option.map_eq_some_iff.mp h
    exact (placeRow_kdr hy).trans (reamFor_kdr hream)

/-! ### What leaves what the slots say -/

/-- A run's place is entered in the maps alone (R212). -/
theorem saysAt_setLoc (h : Held) (r : Run) (p : Nat) (d : Dev) (n : Nat) : saysAt (setLoc h r p d) n = saysAt d n := by
  refine saysAt_updSlot (fun x => ?_) _ n d
  split
  · cases hobj : x.obj with
    | none => simp [slotSays, Slot.current, hobj]
    | some o =>
      cases r.coded <;> simp [slotSays, Slot.current, hobj, objBody]
  · rfl

theorem saysAt_placeRuns (env : Env) (h : Held) (rs : List Run) (d : Dev) (n : Nat) :
    saysAt (placeRuns env h rs d).2 n = saysAt d n := by
  induction rs generalizing d with
  | nil => rfl
  | cons r rs ih =>
    unfold placeRuns
    split
    · exact ih d
    · split
      · rfl
      · dsimp only
        split
        · rfl
        · next hplaced =>
          dsimp only
          rw [ih, saysAt_setLoc]
          exact saysAt_of_kdr (by rw [updHeld_kdr, placeCharge_kdr, placeStretch_kdr hplaced]) n

theorem saysAt_placeHeld (env : Env) (id : Nat) (d : Dev) (n : Nat) : saysAt (placeHeld env id d) n = saysAt d n := by
  unfold placeHeld
  split
  · rfl
  · next h _ =>
    dsimp only
    split
    · exact saysAt_placeRuns ..
    · exact (saysAt_of_kdr (by simp) n).trans (saysAt_placeRuns env h h.runs d n)

/-- A staged record that has its place is named by its slot; the version is the same (R222). -/
theorem saysAt_settleStaged (psa : Nat) (ss : List Staged) (off : Nat) (d : Dev) (n : Nat) :
    saysAt (settleStaged psa off ss d) n = saysAt d n := by
  induction ss generalizing off d with
  | nil => rfl
  | cons s ss ih =>
    have named (f : Slot → Word) : saysAt (updSlot s.slot (fun x => { x with record := f x }) d) n = saysAt d n :=
      saysAt_updSlot (f := fun x => { x with record := f x }) (fun _ => rfl) s.slot n d
    unfold settleStaged
    dsimp only
    rw [ih]
    refine Eq.trans ?_ (b := saysAt (match slotAt d s.slot with
      | some x => if x.record == BitVec.ofNat 64 (s.dr + 2 ^ 63) then
          addJournal .commit s.slot x.version.toNat (x.objId + (psa + off * 2 ^ 40) * 2 ^ 48)
            (updSlot s.slot (fun x => { x with record := BitVec.ofNat 64 (psa + off * 2 ^ 40) }) d)
        else d
      | none => d) n) ?_
    · exact saysAt_of_kdr rfl n
    · split
      · split
        · exact (saysAt_of_kdr rfl n).trans (named _)
        · rfl
      · rfl

theorem saysAt_placeStaged (env : Env) (force : Bool) (k : Nat) (d : Dev) (n : Nat) :
    saysAt (placeStaged env force k d) n = saysAt d n := by
  induction k generalizing d with
  | zero => rfl
  | succ k ih =>
    unfold placeStaged
    dsimp only
    split
    · rfl
    · split
      · rfl
      · next hplaced =>
        rw [ih]
        refine (saysAt_of_kdr rfl n).trans ((saysAt_settleStaged ..).trans (saysAt_of_kdr ?_ n))
        rw [placeCharge_kdr, placeStretch_kdr hplaced]

end Sys2Proof.Proofs
end

section
/-! What installing a version and taking one away make of a slot (R136, R144, R222, R223). -/

namespace Sys2Proof.Proofs

open Sys2Proof.Machine Sys2Proof.Claims Sys2Proof.Laws

/-! ### What the layout of an object leaves of its body (R216–R218) -/

@[simp] theorem objBody_takeKgen (s : Slot) (o : Obj) (d : Dev) : objBody (takeKgen s o d) = objBody o := by
  unfold takeKgen; split <;> rfl

@[simp] theorem objBody_givePages (es : List Nat) (o : Obj) (d : Dev) : objBody (givePages o es d).1 = objBody o := by
  induction es generalizing o d with
  | nil => rfl
  | cons e es ih =>
    unfold givePages
    split
    · exact ih o d
    · exact ih ..

@[simp] theorem objBody_giveXtab (o : Obj) (d : Dev) : objBody (giveXtab o d).1 = objBody o := by
  unfold giveXtab; split <;> rfl

@[simp] theorem objBody_withStored (o : Obj) (d : Dev) : objBody (withStored o d).1 = objBody o := by
  unfold withStored; split <;> rfl

@[simp] theorem objBody_sheetRuns (id off len : Nat) (ss : List Nat) (o : Obj) :
    objBody (sheetRuns id off len ss o).1 = objBody o := by
  induction ss generalizing o with
  | nil => rfl
  | cons s ss ih => exact ih _

@[simp] theorem objBody_pieceRuns (id off len : Nat) (us : List Nat) (o : Obj) (d : Dev) :
    objBody (pieceRuns id off len us o d).1 = objBody o := by
  induction us generalizing o d with
  | nil => rfl
  | cons u us ih => exact ih _ _

/-- A change's layout gives its sheets and pieces places, and leaves the bytes. -/
@[simp] theorem objBody_layOut (id : Nat) (o : Obj) (touch gone : List Nat) (off len : Nat) (d : Dev) :
    objBody (layOut id o touch gone off len d).1 = objBody o := by
  unfold layOut
  split
  · rfl
  · dsimp only
    split
    · exact objBody_pieceRuns ..
    · exact objBody_sheetRuns ..

/-! ### What it leaves of the directory -/

@[simp] theorem givePages_kdr (es : List Nat) (o : Obj) (d : Dev) : (givePages o es d).2.kdr = d.kdr := by
  induction es generalizing o d with
  | nil => rfl
  | cons e es ih =>
    unfold givePages
    split <;> rw [ih]

@[simp] theorem giveXtab_kdr (o : Obj) (d : Dev) : (giveXtab o d).2.kdr = d.kdr := by
  unfold giveXtab; split <;> rfl

@[simp] theorem withStored_kdr (o : Obj) (d : Dev) : (withStored o d).2.kdr = d.kdr := by
  unfold withStored; split <;> rfl

@[simp] theorem stageRecord_kdr (env : Env) (n id : Nat) (s : Slot) (ver : W32) (o : Obj) (d : Dev) :
    (stageRecord env n id s ver o d).2.kdr = d.kdr := by
  simp only [stageRecord, stageBytes, takeFree_kdr]

@[simp] theorem codePiece_kdr (plain : List Byte) (d : Dev) : (codePiece plain d).2.kdr = d.kdr := by
  unfold codePiece
  dsimp only
  split <;> simp

@[simp] theorem pieceRuns_kdr (id off len : Nat) (us : List Nat) (o : Obj) (d : Dev) :
    (pieceRuns id off len us o d).2.2.kdr = d.kdr := by
  induction us generalizing o d with
  | nil => rfl
  | cons u us ih => exact (ih _ _).trans (codePiece_kdr ..)

@[simp] theorem layOut_kdr (id : Nat) (o : Obj) (touch gone : List Nat) (off len : Nat) (d : Dev) :
    (layOut id o touch gone off len d).2.2.kdr = d.kdr := by
  unfold layOut
  split
  · rfl
  · dsimp only
    split
    · exact pieceRuns_kdr ..
    · rfl

@[simp] theorem advanceKgen_slots (env : Env) (k : Nat) (d : Dev) : (advanceKgen env k d).kdr.slots = d.kdr.slots := by
  unfold advanceKgen
  dsimp only
  split
  · rfl
  · rw [event_kdr, setCause_kdr]
    rfl

@[simp] theorem countOps_slots (env : Env) (k bytes : Nat) (d : Dev) : (countOps env k bytes d).kdr.slots = d.kdr.slots := by
  unfold countOps
  dsimp only
  rw [charge_kdr]
  split
  · exact (advanceKgen_slots ..).trans (congrArg Kdr.slots (setCause_kdr ..))
  · rfl

@[simp] theorem takeRun_slots (env : Env) (k n : Nat) (d : Dev) : (takeRun env k n d).2.kdr.slots = d.kdr.slots := by
  unfold takeRun
  dsimp only
  split
  · rw [advanceKgen_slots]
    split <;> rfl
  · split <;> rfl

/-- A run's first version follows the last one its keyspace has taken (R136, R138). -/
theorem takeRun_fst (env : Env) (k n : Nat) (d : Dev) : (takeRun env k n d).1 = runFirst (ksOf d k).seq n := rfl

/-! ### A version installed and a version removed -/

@[simp] theorem saysAt_addJournal (y : JType) (a b c : Nat) (d : Dev) (n : Nat) :
    saysAt (addJournal y a b c d) n = saysAt d n := rfl

@[simp] theorem saysAt_addHeld (t : Task) (m : Nat) (s : Slot) (ver : W32) (objId bytes : Nat) (runs : List Run) (d : Dev)
    (n : Nat) : saysAt (addHeld t m s ver objId bytes runs d).2 n = saysAt d n := rfl

/-- The slot a version is installed in says it, under the key and keyspace it had. -/
theorem saysAt_install (env : Env) (t : Task) {n : Nat} (ver : W32) (o : Obj) (runs : List Run) (bytes : Nat) {d : Dev}
    {x : Slot} (h : slotAt d n = some x) :
    saysAt (install env t n ver o runs bytes d).2 n = some (x.key, x.ksid, some (ver, objBody o)) := by
  unfold install
  simp only [h]
  rw [saysAt_placeStaged, saysAt_placeHeld, saysAt_addHeld, saysAt_addJournal, saysAt, slotAt_updSlot_same (x := x)]
  · simp [slotSays, Slot.current]
  · rw [slotAt, stageRecord_kdr, withStored_kdr, giveXtab_kdr, givePages_kdr]
    split
    · rw [countOps_slots]; exact h
    · exact h

/-- The slot a version is removed from keeps its key and has no object (R144). -/
theorem saysAt_uninstall (t : Task) {n : Nat} (ver : W32) {d : Dev} {x : Slot} (h : slotAt d n = some x) :
    saysAt (uninstall t n ver d).2 n = some (x.key, x.ksid, none) := by
  unfold uninstall
  simp only [h]
  rw [saysAt_addHeld, saysAt_addJournal, saysAt, slotAt_updSlot_same h]
  rfl

/-- The object a slot held before a write, as the write sees it. -/
theorem currentOf_slot {d : Dev} {n : Nat} {x : Slot} (h : slotAt d n = some x) : currentOf d (.slot n) = x.current := by
  simp [currentOf, h]

section
variable {env : Env} {t : Task} {n : Nat} {objId i : Nat} {r : Nat × Nat} {ver : W32} {data : List Byte} {d : Dev} {x : Slot}
  (h : slotAt d n = some x)
include h

theorem saysAt_commitPiece_removes (hrem : removes t.capsule = true) :
    saysAt (commitPiece env t n objId r i ver data false d).2 n = some (x.key, x.ksid, none) := by
  rw [commitPiece, if_pos hrem]
  exact saysAt_uninstall t ver h

theorem saysAt_commitPiece (hrem : removes t.capsule = false) :
    saysAt (commitPiece env t n objId r i ver data false d).2 n =
      some (x.key, x.ksid, some (ver, objBody (pieceObj t x.current objId r i data d).1)) := by
  rw [commitPiece, if_neg (by simp [hrem])]
  simp only [h, Bool.false_eq_true, ↓reduceIte]
  rw [saysAt_install (x := x)]
  · rw [objBody_layOut]
  · rw [slotAt, layOut_kdr]
    exact h

end

end Sys2Proof.Proofs
end

section
/-! A write on a plain value that is one piece, from its acceptance to its completion (R136, R142, R144, R146, R148–R150, R160,
R169, R173). -/

namespace Sys2Proof.Proofs

open Sys2Proof.Machine Sys2Proof.Claims Sys2Proof.Laws

/-! ### Bytes and memory -/

@[simp] theorem slice_length (bs : List Byte) (off n : Nat) : (slice bs off n).length = n := by
  simp [slice]

/-- All the bytes of a byte string. -/
theorem slice_all (bs : List Byte) : slice bs 0 bs.length = bs := by simp [slice]

/-- Bytes stored read back, all of them. -/
theorem memBytes_memStore_all (m : Mem) (a : Nat) (bs : List Byte) : memBytes (memStore m a bs) a bs.length = bs := by
  simpa using memBytes_memStore m a bs 0 bs.length (by simp)

theorem memRead_memStore (m : Mem) (a b : Nat) (bs : List Byte) :
    memRead (memStore m a bs) b = if a ≤ b ∧ b < a + bs.length then bs.getD (b - a) 0 else memRead m b := by
  split
  · next h =>
    have hb : b = a + (b - a) := by omega
    conv_lhs => rw [hb]
    exact memRead_store bs m a (b - a) (by omega)
  · exact memRead_store_out bs m a b (by omega)

theorem memRead_memZero (m : Mem) (a n b : Nat) :
    memRead (memZero m a n) b = if a ≤ b ∧ b < a + n then 0 else memRead m b := by
  induction m with
  | nil => simp [memZero, memRead]
  | cons c m ih =>
    obtain ⟨x, y⟩ := c
    simp only [memZero, List.filter_cons] at ih ⊢
    by_cases hx : a ≤ x ∧ x < a + n
    · simp only [hx, decide_true, Bool.and_self, Bool.not_true, Bool.false_eq_true, ↓reduceIte, ih, memRead]
      split
      · rfl
      · rw [if_neg (by omega)]
    · have hkeep : (!(decide (a ≤ x) && decide (x < a + n))) = true := by simp; omega
      simp only [hkeep, ↓reduceIte, memRead, ih]
      by_cases hxb : x = b
      · subst hxb
        simp [hx]
      · simp only [hxb, ↓reduceIte]

/-! ### The data of a write -/

/-- A write's data is as long as its capsule says. -/
theorem fetchData_length {d : Dev} {t : Task} {len : Nat} {value : Rd} {bs : List Byte}
    (h : fetchData d t len value = .data bs) : bs.length = len := by
  unfold fetchData at h
  split at h
  · next h0 => cases h; exact h0.symm
  · split at h
    · split at h
      · cases h; exact slice_length ..
      · cases h
    · split at h
      · split at h
        · split at h
          · cases h
          · cases h; exact slice_length ..
        · cases h
      · split at h
        · cases h; exact slice_length ..
        · next hother => exact (hother bs h).elim

theorem fetchData_zero (d : Dev) (t : Task) (value : Rd) : fetchData d t 0 value = .data [] := if_pos rfl

theorem serving_opc {d : Dev} {r : TaskRef} {opc : Nat} {t : Task} (h : serving d r opc = some t) :
    capOpc t.capsule = opc := by
  unfold serving at h
  split at h
  · split at h
    · next hc =>
      cases h
      simp only [Bool.and_eq_true, beq_iff_eq] at hc
      exact hc.1.1.1
    · cases h
  · cases h

/-! ### The object a write makes -/

/-- A value that makes an object is all the capsule brings, from the object's first byte on (R139). -/
theorem range_of_put {c : V512} (hop : capOpc c = 0x01 ∨ capOpc c = 0x09) (hkeep : ¬ (capOpc c = 0x09 ∧ bitOf c 48 = true))
    (cur : Option (W32 × Obj)) : writeRange c cur = (0, inboundLen c) := by
  rcases hop with hop | hop <;> simp [hop] at hkeep <;> simp [writeRange, inboundLen, hop, hkeep]

/-- The bytes APPEND and RANGE_WRITE bring fill their range (R139). -/
theorem range_of_write {c : V512} (hop : capOpc c = 0x05 ∨ capOpc c = 0x07) (cur : Option (W32 × Obj)) :
    inboundLen c = (writeRange c cur).2 := by
  rcases hop with hop | hop <;> simp [writeRange, inboundLen, hop]

/-- A range of one piece is that piece (R160). -/
theorem pieceAt_of_count {off len : Nat} (h : pieceCount off len = 1) : pieceAt off len 0 = (off, len) := by
  unfold pieceCount at h
  unfold pieceAt
  by_cases hlen : len ≤ 2 ^ 20
  · rw [if_pos hlen]
  · rw [if_neg hlen] at h
    omega

section
variable {t : Task} {cur : Option (W32 × Obj)} {objId : Nat} {bs : List Byte} {d : Dev}

/-- What PUT and a CAS that writes make: an object of the value alone (R142, R150). -/
theorem objBody_put (hop : capOpc t.capsule = 0x01 ∨ capOpc t.capsule = 0x09) :
    objBody (pieceObj t cur objId (0, bs.length) 0 bs d).1 = (bs.length, memStore [] 0 bs, none) := by
  rcases hop with hop | hop <;> simp [pieceObj, hop, ranged, slice_all, freshObj, objBody]

/-- The object before a write: what the slot holds, or none yet. -/
def objBefore (cur : Option (W32 × Obj)) : Obj := match cur with | some y => y.2 | none => freshObj 0 0 0 []

/-- What APPEND and RANGE_WRITE make: the bytes of the range are the value's, and the object reaches to their end (R146,
R148). -/
theorem objBody_range (hop : capOpc t.capsule = 0x05 ∨ capOpc t.capsule = 0x07) {r : Nat × Nat}
    (hcount : pieceCount r.1 r.2 = 1) (hlen : bs.length = r.2) :
    objBody (pieceObj t cur objId r 0 bs d).1 =
      (max (objBefore cur).len (r.1 + r.2), memStore (objBefore cur).data r.1 bs, (objBefore cur).frame) := by
  have hall : slice bs 0 r.2 = bs := hlen ▸ slice_all bs
  rcases hop with hop | hop <;> cases cur <;>
    simp [pieceObj, hop, ranged, pieceAt_of_count hcount, hall, hlen, objBody, objBefore, Obj.write, freshObj]

/-- What PUNCH makes: the bytes of the range are zero, and the length stays (R149). -/
theorem objBody_punch (hop : capOpc t.capsule = 0x08) {r : Nat × Nat} (hcount : pieceCount r.1 r.2 = 1) :
    objBody (pieceObj t cur objId r 0 bs d).1 =
      ((objBefore cur).len, memZero (objBefore cur).data r.1 r.2, (objBefore cur).frame) := by
  cases cur <;> simp [pieceObj, hop, ranged, pieceAt_of_count hcount, objBody, objBefore, Obj.punch, freshObj]

end

/-! ### Acceptance (R162, R169, R172) -/

/-- What accepting a write and bringing its data into felt may change: the next object id, the space reserved, the tasks, and
what their classes are charged. -/
def Accepted (d e : Dev) : Prop :=
  ∃ id space m b, e = { d with kdr := { d.kdr with nextObj := id, reserved := space }, mea := m, bgv := b }

theorem Accepted.trans {a b c : Dev} (h : Accepted a b) (k : Accepted b c) : Accepted a c := by
  obtain ⟨_, _, _, _, rfl⟩ := h
  obtain ⟨id, space, m, b, rfl⟩ := k
  exact ⟨id, space, m, b, rfl⟩

theorem putJob_accepted (t : Task) (d : Dev) : Accepted d (putJob t d) := by
  unfold putJob; split <;> exact ⟨_, _, _, _, rfl⟩

theorem copied_accepted (t : Task) (n : Nat) (d : Dev) : Accepted d (copied t n d) := by
  unfold copied
  split
  · exact ⟨_, _, _, _, rfl⟩
  · obtain ⟨b, gs, h⟩ := chargeFor_changes t.wclass t.group (energyV2 d 10000 n 1024) d
    rw [h]
    exact ⟨_, _, _, _, rfl⟩

theorem acceptJob_accepted (env : Env) (t : Task) (n : Nat) (d : Dev) : Accepted d (acceptJob env t n d).2 := by
  have reserve (d : Dev) (g : Nat) : Accepted d { d with kdr := { d.kdr with reserved := g } } := ⟨_, _, _, _, rfl⟩
  unfold acceptJob
  dsimp only
  refine Accepted.trans ?_ (putJob_accepted ..)
  split
  · exact reserve ..
  · exact Accepted.trans ⟨_, _, _, _, rfl⟩ (reserve ..)

namespace Accepted
variable {d e : Dev} (h : Accepted d e)
include h

theorem slotAt_eq (n : Nat) : slotAt e n = slotAt d n := by obtain ⟨_, _, _, _, rfl⟩ := h; rfl
theorem ksOf_eq (k : Nat) : ksOf e k = ksOf d k := by obtain ⟨_, _, _, _, rfl⟩ := h; rfl
theorem runAllowed_eq (k n : Nat) : runAllowed e k n = runAllowed d k n := by obtain ⟨_, _, _, _, rfl⟩ := h; rfl
theorem roomFor_eq (env : Env) (n : Nat) : roomFor env e n = roomFor env d n := by obtain ⟨_, _, _, _, rfl⟩ := h; rfl
theorem fetchData_eq (t : Task) (len : Nat) (value : Rd) : fetchData e t len value = fetchData d t len value := by
  obtain ⟨_, _, _, _, rfl⟩ := h; rfl

end Accepted

/-! ### From the lock to the commit -/

section
variable {env : Env} {t : Task} {n : Nat} {d : Dev} {x : Slot}

/-- A write under its lock whose conditions hold and for which there is space is accepted. -/
theorem runWrite_accepts (hphase : t.job.phase = .start) (hworn : wornStops d t.capsule = false) (hlock : t.job.lock = .held n)
    (hslot : slotAt d n = some x) (hconds : writeConds t.capsule x.current = none)
    (hspace : spaceFor d (growth t.capsule x.current) = true) (value : Rd) :
    runWrite env t value d =
      takeValue env (acceptJob env t n d).1 n (streams env t.capsule) value (acceptJob env t n d).2 := by
  simp [runWrite, hphase, hworn, lockOf, hlock, currentOf_slot hslot, hconds, acceptWrite, hspace]

/-- A command whose value is in felt. -/
def withValue (t : Task) (bs : List Byte) : Task := { t with job := { t.job with data := bs, phase := .pieces 0 } }

theorem takeValue_data {value : Rd} {bs : List Byte} (h : fetchData d t (inboundLen t.capsule) value = .data bs) :
    takeValue env t n false value d =
      admitPiece env (withValue t bs) n (putJob (withValue t bs) (copied t bs.length d)) := by
  simp only [takeValue, h]
  rfl

theorem admitPiece_room (hlim : env.pw.limitMib ≠ 0) (hroom : pieceNeed t d = 0 ∨ roomFor env d (pieceNeed t d) = true) :
    admitPiece env t n d = commitNext env t n false d := by
  rcases hroom with h | h <;> simp [admitPiece, hlim, h]

/-- A first version and no more. -/
theorem add_w32_zero (v : W32) : v + w32 0 = v := by simp [w32]

/-- A command that has committed its one piece: its result stands, and it asks for no lock or space any more. -/
def writeEnded (t : Task) : Task :=
  { t with job := { t.job with phase := .media 0, result := resultOf t.job.firstVer (writeHi t), lock := .dropped, reserved := 0 } }

/-- Space reserved is given back (R169). -/
def unreserve (n : Nat) (d : Dev) : Dev := { d with kdr := { d.kdr with reserved := d.kdr.reserved - n } }

/-- A write of one piece that need not wait for media completes as its locks are released (R23, R139). -/
theorem writeDone_completes (htotal : t.job.total = 1) (hdur : t.job.durable = false) :
    writeDone env t d = endJob env (writeEnded t) scOk (resultOf t.job.firstVer (writeHi t)) false
      (putJob (writeEnded t) (dropPortions t.job.heldIds (releaseSlots t.owner (unreserve t.job.reserved d)))) := by
  simp only [writeDone, writeEnded, unreserve, hdur, Bool.false_and, Bool.false_eq_true, ↓reduceIte, htotal, Nat.sub_self,
    add_w32_zero]

/-- The task of a write whose one piece has committed. -/
def committedOnce (ver : W32) (id freed : Nat) (t : Task) : Task :=
  { t with job := { t.job with firstVer := ver, done := 1, heldIds := t.job.heldIds ++ [id], reserved := t.job.reserved - freed } }

/-- The one piece of a write commits with the next version of its keyspace, and the write is done (R136, R160). -/
theorem commitNext_done (hdone : t.job.done = 0) (htotal : t.job.total = 1)
    (hrun : runAllowed d (capKsid t.capsule) 1 = true) :
    let ver := runFirst (ksOf d (capKsid t.capsule)).seq 1
    let run := takeRun env (capKsid t.capsule) 1 d
    let h := commitPiece env t n t.job.objId (t.job.off, t.job.len) 0 ver t.job.data false run.2
    let freed := min t.job.reserved (slotFoot h.2 n - slotFoot run.2 n)
    commitNext env t n false d =
      writeDone env (committedOnce ver h.1 freed t) (putJob (committedOnce ver h.1 freed t) (unreserve freed h.2)) := by
  simp only [commitNext, committedOnce, unreserve, hdone, htotal, hrun, Bool.not_true, Bool.and_false, Bool.false_eq_true,
    ↓reduceIte, Nat.zero_add, takeRun_fst, add_w32_zero]

theorem commitNext_completes (hdone : t.job.done = 0) (htotal : t.job.total = 1) (hdur : t.job.durable = false)
    (hrun : runAllowed d (capKsid t.capsule) 1 = true) :
    let ver := runFirst (ksOf d (capKsid t.capsule)).seq 1
    let run := takeRun env (capKsid t.capsule) 1 d
    ∃ u e, u.ref = t.ref ∧ u.who = t.who ∧
      e.kdr.slots = (commitPiece env t n t.job.objId (t.job.off, t.job.len) 0 ver t.job.data false run.2).2.kdr.slots ∧
      commitNext env t n false d = endJob env u scOk (resultOf ver (writeHi t)) false
        (putJob u (dropPortions u.job.heldIds (releaseSlots t.owner e))) := by
  intro ver run
  rw [commitNext_done hdone htotal hrun, writeDone_completes (t := committedOnce ..) htotal hdur]
  refine ⟨_, _, ?_, ?_, ?_, rfl⟩
  · rfl
  · rfl
  · simp only [unreserve, putJob_kdr]
    rfl

end

/-! ### One execution of a write (R142, R144, R146, R148–R150) -/

/-- The task of an accepted write whose value is in felt, and the drive then. -/
def inFelt (env : Env) (t : Task) (n : Nat) (bs : List Byte) (d : Dev) : Task := withValue (acceptJob env t n d).1 bs
def feltDev (env : Env) (t : Task) (n : Nat) (bs : List Byte) (d : Dev) : Dev :=
  putJob (inFelt env t n bs d) (copied (acceptJob env t n d).1 bs.length (acceptJob env t n d).2)

theorem feltDev_accepted (env : Env) (t : Task) (n : Nat) (bs : List Byte) (d : Dev) : Accepted d (feltDev env t n bs d) :=
  (acceptJob_accepted env t n d).trans ((copied_accepted ..).trans (putJob_accepted ..))

/-- The operation codes of the writes whose range R160 splits. -/
theorem ranged_iff (opc : Nat) : ranged opc = true ↔ opc = 0x05 ∨ opc = 0x07 ∨ opc = 0x08 := by
  simp [ranged, or_assoc]

section
variable {env : Env} {t : Task} {n opc : Nat} {d : Dev} {x : Slot} {bs : List Byte}
  (hopc : capOpc t.capsule = opc) (hslot : slotAt d n = some x)
  (hpiece : opc = 0x05 ∨ opc = 0x07 ∨ opc = 0x08 →
    pieceCount (writeRange t.capsule x.current).1 (writeRange t.capsule x.current).2 = 1)
include hopc hslot hpiece

theorem inFelt_total : (inFelt env t n bs d).job.total = 1 := by
  have htotal : (inFelt env t n bs d).job.total = if ranged (capOpc t.capsule) then pieceCount
      (writeRange t.capsule (currentOf d (.slot n))).1 (writeRange t.capsule (currentOf d (.slot n))).2 else 1 := rfl
  rw [htotal, hopc, currentOf_slot hslot]
  split
  · next h => exact hpiece ((ranged_iff opc).mp h)
  · rfl

/-- RESULT bits 63:32 of a write of one piece (R139). -/
theorem writeHi_inFelt : writeHi (inFelt env t n bs d) = if opc = 0x05 ∨ opc = 0x07 ∨ opc = 0x08 then 1
    else if opc = 0x03 ∨ opc = 0x09 ∧ bitOf t.capsule 48 = true then 0 else capLen t.capsule := by
  have hcap : (inFelt env t n bs d).capsule = t.capsule := rfl
  simp only [writeHi, inFelt_total hopc hslot hpiece, hcap, hopc, ranged_iff, Bool.or_eq_true, Bool.and_eq_true,
    decide_eq_true_eq]

/-- Bytes the piece brings into protected felt: those of its range, for a punch its zeros (R149). -/
theorem pieceNeed_inFelt (hlock : t.job.lock = .held n) (hsome : opc = 0x08 → x.current.isSome = true) :
    pieceNeed (inFelt env t n bs d) (feltDev env t n bs d) = if opc = 0x08
      then punchBytes (objBefore x.current) (writeRange t.capsule x.current).1 (writeRange t.capsule x.current).2
      else (writeRange t.capsule x.current).2 := by
  have hcap : (inFelt env t n bs d).capsule = t.capsule := rfl
  have hrange : ((inFelt env t n bs d).job.off, (inFelt env t n bs d).job.len) = writeRange t.capsule x.current := by
    rw [← currentOf_slot hslot]; rfl
  have hp : (if ranged opc then pieceAt (inFelt env t n bs d).job.off (inFelt env t n bs d).job.len 0
      else ((inFelt env t n bs d).job.off, (inFelt env t n bs d).job.len)) = writeRange t.capsule x.current := by
    split
    · next h =>
      rw [← hrange] at hpiece
      rw [pieceAt_of_count (hpiece ((ranged_iff opc).mp h)), hrange]
    · exact hrange
  have hheld : (inFelt env t n bs d).job.lock = .held n := hlock
  have hdone : (inFelt env t n bs d).job.done = 0 := rfl
  have hcur : currentOf (feltDev env t n bs d) (.slot n) = x.current :=
    currentOf_slot (((feltDev_accepted env t n bs d).slotAt_eq n).trans hslot)
  simp only [pieceNeed, hcap, hopc, hdone, hp, hheld, hcur]
  split
  · next h =>
    obtain ⟨y, hy⟩ := Option.isSome_iff_exists.mp (hsome h)
    simp [hy, objBefore]
  · rfl

/-- A write of one piece that may commit and need not wait for media completes, and its slot is as its commit leaves it. -/
theorem runWrite_completes {value : Rd} (hphase : t.job.phase = .start) (hlock : t.job.lock = .held n)
    (hworn : wornStops d t.capsule = false) (hconds : writeConds t.capsule x.current = none)
    (hspace : spaceFor d (growth t.capsule x.current) = true)
    (hdata : fetchData d t (inboundLen t.capsule) value = .data bs) (hstream : streams env t.capsule = false)
    (hdurable : durableWrite env t.capsule = false) (hdur : t.job.durable = false)
    (hroom : pieceNeed (inFelt env t n bs d) (feltDev env t n bs d) = 0 ∨
      roomFor env d (pieceNeed (inFelt env t n bs d) (feltDev env t n bs d)) = true)
    (hrun : runAllowed d (capKsid t.capsule) 1 = true) :
    let ver := runFirst (ksOf d (capKsid t.capsule)).seq 1
    let w := inFelt env t n bs d
    ∃ u e d', u.ref = t.ref ∧ u.who = t.who ∧
      saysAt e n = some (x.key, x.ksid, if removes t.capsule then none
        else some (ver, objBody (pieceObj w x.current w.job.objId (writeRange t.capsule x.current) 0 bs d').1)) ∧
      runWrite env t value d = endJob env u scOk (resultOf ver (writeHi w)) false
        (putJob u (dropPortions u.job.heldIds (releaseSlots t.owner e))) := by
  intro ver w
  have hacc := feltDev_accepted env t n bs d
  have hlim : env.pw.limitMib ≠ 0 := by
    intro h0
    simp [durableWrite, h0] at hdurable
  have hnotDurable : w.job.durable = false := by
    have : w.job.durable = (t.job.durable || durableWrite env t.capsule) := rfl
    rw [this, hdur, hdurable]
    rfl
  have hrange : (w.job.off, w.job.len) = writeRange t.capsule x.current := by
    rw [← currentOf_slot hslot]; rfl
  have htake : takeValue env (acceptJob env t n d).1 n false value (acceptJob env t n d).2 =
      admitPiece env w n (feltDev env t n bs d) :=
    takeValue_data (((acceptJob_accepted env t n d).fetchData_eq ..).trans hdata)
  have hcommit : runWrite env t value d = commitNext env w n false (feltDev env t n bs d) := by
    rw [runWrite_accepts hphase hworn hlock hslot hconds hspace, hstream, htake,
      admitPiece_room hlim (by rw [hacc.roomFor_eq]; exact hroom)]
  obtain ⟨u, e, href, hwho, hslots, heq⟩ := commitNext_completes (env := env) (n := n) (t := w) (d := feltDev env t n bs d) rfl
    (inFelt_total hopc hslot hpiece) hnotDurable (by rw [hacc.runAllowed_eq]; exact hrun)
  rw [hacc.ksOf_eq] at heq hslots
  refine ⟨u, e, (takeRun env (capKsid w.capsule) 1 (feltDev env t n bs d)).2, href, hwho, ?_, hcommit.trans heq⟩
  have hcur : slotAt (takeRun env (capKsid w.capsule) 1 (feltDev env t n bs d)).2 n = some x := by
    rw [slotAt, takeRun_slots]
    exact (hacc.slotAt_eq n).trans hslot
  rw [saysAt_of_slots hslots, hrange]
  split
  · next hrem => exact saysAt_commitPiece_removes hcur hrem
  · next hrem => exact saysAt_commitPiece hcur (Bool.eq_false_of_not_eq_true hrem)

end

theorem objBody_eq {o : Obj} {len : Nat} {data : Mem} {frame : Option FrameObj} (h : objBody o = (len, data, frame)) :
    o.len = len ∧ o.data = data ∧ o.frame = frame := by
  simpa [objBody] using h

/-! ### The commands -/

/-- The writes on plain values, each with its operation code. -/
theorem write_next {s : State} {i : Instr} {r : TaskRef} {value : Rd} {opc : Nat} {t : Task} {bs : List Byte}
    (hi : (i, opc) ∈ [(.put r value, 0x01), (.delete r, 0x03), (.append r value, 0x05), (.rangeWrite r value, 0x07),
      (.punch r, 0x08), (.cas r value, 0x09)]) (h : serving s.dev r opc = some t)
    (hdata : fetchData s.dev t (inboundLen t.capsule) value = .data bs) :
    ∃ w, fetchData s.dev t (inboundLen t.capsule) w = .data bs ∧
      exec i s = .next { s with dev := runWrite s.env t w s.dev } := by
  have none_in (h0 : inboundLen t.capsule = 0) : fetchData s.dev t (inboundLen t.capsule) (.ok []) = .data bs := by
    rw [h0, fetchData_zero] at hdata ⊢
    exact hdata
  have hopc := serving_opc h
  simp only [List.mem_cons, Prod.mk.injEq, List.not_mem_nil, or_false] at hi
  rcases hi with ⟨rfl, rfl⟩ | ⟨rfl, rfl⟩ | ⟨rfl, rfl⟩ | ⟨rfl, rfl⟩ | ⟨rfl, rfl⟩ | ⟨rfl, rfl⟩
  · exact ⟨value, hdata, serve_next (f := fun env t d => runWrite env t value d) h rfl⟩
  · exact ⟨.ok [], none_in (by simp [inboundLen, hopc]), serve_next (f := fun env t d => runWrite env t (.ok []) d) h rfl⟩
  · exact ⟨value, hdata, serve_next (f := fun env t d => runWrite env t value d) h rfl⟩
  · exact ⟨value, hdata, serve_next (f := fun env t d => runWrite env t value d) h rfl⟩
  · exact ⟨.ok [], none_in (by simp [inboundLen, hopc]), serve_next (f := fun env t d => runWrite env t (.ok []) d) h rfl⟩
  · exact ⟨value, hdata, serve_next (f := fun env t d => runWrite env t value d) h rfl⟩

/-- PUNCH meets its conditions on an object alone (R149). -/
theorem punch_on_object {c : V512} {cur : Option (W32 × Obj)} (hop : capOpc c = 0x08) (h : writeConds c cur = none) :
    cur.isSome = true := by
  cases cur with
  | some y => rfl
  | none => simp [writeConds, hop, curFrame] at h

/-- Settles O36: the write is followed from its lock to its completion, and its slot read from what its commit installs. -/
theorem writesTakeEffect : Obligations.WritesTakeEffect := by
  intro s i r value opc n t x bs hi h hphase hlock hslot c cur rg old v gone need hworn hconds hspace hdata hstream hdurable hdur
    hpiece hroom hrun hi'
  have hopc := serving_opc h
  obtain ⟨w, hw, hexec⟩ := write_next hi h hdata
  have hsome : opc = 0x08 → x.current.isSome = true := fun h8 => punch_on_object (hopc.trans h8) hconds
  have hneed := pieceNeed_inFelt (env := s.env) (bs := bs) hopc hslot hpiece hlock hsome
  obtain ⟨u, e, d', href, hwho, hsays, heq⟩ := runWrite_completes hopc hslot hpiece hphase hlock hworn hconds hspace hw hstream
    hdurable hdur (by rw [hneed]; exact hroom) hrun
  rw [writeHi_inFelt hopc hslot hpiece] at heq
  refine ⟨u, _, href, hwho, ?_, by rw [hexec, heq]⟩
  have hremoves : removes t.capsule = true ↔ gone := by
    simp [removes, hopc, gone, c]
  by_cases hgone : gone
  · rw [if_pos (hremoves.mpr hgone)] at hsays
    obtain ⟨y, hy, hkey, hk, hcur⟩ := slotAt_of_saysAt_none hsays
    exact ⟨e, u, y, rfl, href, hy, hkey, hk, fun _ => hcur, fun hn => absurd hgone hn⟩
  · rw [if_neg (fun h => hgone (hremoves.mp h))] at hsays
    obtain ⟨y, o, hy, hkey, hk, hcur, hbody⟩ := slotAt_of_saysAt hsays
    have hcap : capOpc (inFelt s.env t n bs s.dev).capsule = opc := hopc
    have hlen := fetchData_length hdata
    generalize inFelt s.env t n bs s.dev = u at hbody hcap
    refine ⟨e, _, y, rfl, href, hy, hkey, hk, fun hg => absurd hg hgone, fun _ => ⟨o, hcur, ?put, ?range, ?punch⟩⟩
    case put =>
      intro hop
      have hrg : writeRange t.capsule x.current = (0, bs.length) := by
        rw [hlen]; exact range_of_put (by rwa [hopc]) (fun h9 => hgone (.inr (by rwa [hopc] at h9))) _
      rw [hrg, objBody_put (by rwa [hcap])] at hbody
      obtain ⟨hl, hd, hf⟩ := objBody_eq hbody
      rw [hl, hd]
      exact ⟨hf, rfl, memBytes_memStore_all ..⟩
    case range =>
      intro hop
      have hfill : bs.length = rg.2 := hlen.trans (range_of_write (by rwa [hopc]) _)
      rw [objBody_range (by rwa [hcap]) (hpiece (by omega)) hfill] at hbody
      obtain ⟨hl, hd, -⟩ := objBody_eq hbody
      exact ⟨hl, fun a => by rw [hd, memRead_memStore, hfill]; rfl⟩
    case punch =>
      intro hop
      rw [objBody_punch (by rwa [hcap]) (hpiece (by omega))] at hbody
      obtain ⟨hl, hd, -⟩ := objBody_eq hbody
      exact ⟨hl, fun a => by rw [hd, memRead_memZero]; rfl⟩

end Sys2Proof.Proofs
end

section
/-! The reads (05, 06): what a read of an object needs and answers, LIST and FLUSH (R143, R145, R147, R151–R153, R156, R163,
R173, R197, R198). -/

namespace Sys2Proof.Proofs

open Sys2Proof.Machine Sys2Proof.Claims Sys2Proof.Laws

/-! ### What reading pages leaves of host memory (R214, R242, R249) -/

/-- Host memory, and whether requests to it go out. -/
def hostView (d : Dev) : Mem × Bool := (d.hqe.hmem, d.hqe.issues)

theorem hostView_of_hqe {d e : Dev} (h : e.hqe = d.hqe) : hostView e = hostView d := by rw [hostView, hostView, h]

theorem hostView_of_reports {d e : Dev} (h : Reports d e) : hostView e = hostView d := by
  obtain ⟨_, _, _, _, _, _, rfl⟩ := h
  rfl

@[simp] theorem hostView_setCause (env : Env) (n : Nat) (bits : W32) (d : Dev) :
    hostView (setCause env n bits d) = hostView d := hostView_of_reports (setCause_reports ..)

@[simp] theorem hostView_event (env : Env) (code : BitVec 16) (sev cls src p0 p1 p2 : Nat) (d : Dev) :
    hostView (event env code sev cls src p0 p1 p2 d) = hostView d := hostView_of_reports (event_reports ..)

@[simp] theorem updReam_hqe (r : Nat) (f : Ream → Ream) (d : Dev) : (updReam r f d).hqe = d.hqe := by
  unfold updReam; split <;> rfl

theorem queueRefresh_hqe (psa cause : Nat) (d : Dev) : (queueRefresh psa cause d).hqe = d.hqe := by
  unfold queueRefresh; split <;> simp

theorem countRead_hqe (psa : Nat) (d : Dev) : (countRead psa d).hqe = d.hqe := by
  unfold countRead
  dsimp only
  split
  · split <;> simp [queueRefresh_hqe]
  · rfl

theorem countRebuild_hqe (psa : Nat) (d : Dev) : (countRebuild psa d).hqe = d.hqe := by
  unfold countRebuild
  split
  · exact foldl_keeps (·.hqe) _ _ (fun _ _ _ => countRead_hqe ..) d
  · rfl

@[simp] theorem hostView_queueRefresh (psa cause : Nat) (d : Dev) : hostView (queueRefresh psa cause d) = hostView d :=
  hostView_of_hqe (queueRefresh_hqe ..)

@[simp] theorem hostView_trl (t : Trl) (d : Dev) : hostView { d with trl := t } = hostView d := rfl
@[simp] theorem hostView_updBlock (k : Nat) (f : Block → Block) (d : Dev) : hostView (updBlock k f d) = hostView d := rfl

@[simp] theorem hostView_countRead (psa : Nat) (d : Dev) : hostView (countRead psa d) = hostView d :=
  hostView_of_hqe (countRead_hqe ..)
@[simp] theorem hostView_countRebuild (psa : Nat) (d : Dev) : hostView (countRebuild psa d) = hostView d :=
  hostView_of_hqe (countRebuild_hqe ..)

/-- A page read counts, reports and queues; it moves nothing to the host. -/
theorem hostView_pageRead (env : Env) (psa : Nat) (e : ReadEnd) (d : Dev) : hostView (pageRead env psa e d) = hostView d := by
  cases hend : deadEnd d psa e with
  | hard l =>
    simp only [pageRead, hend, Bool.false_eq_true, ↓reduceIte]
    split
    · simp
    · rw [hostView_trl]
      split <;> simp
  | channel kind =>
    simp only [pageRead, hend, Bool.false_eq_true, ↓reduceIte]
    rw [hostView_trl]
    simp
  | _ => simp [pageRead, hend]

/-- Reading the pages of a read moves nothing to the host. -/
theorem hostView_readPages (env : Env) (psas : List Nat) (ends : List ReadEnd) (d : Dev) :
    hostView (readPages env psas ends d).2 = hostView d :=
  foldl_keeps hostView (fun d (x : Nat × ReadEnd × Nat) => pageRead env x.1 x.2.1 d) _ (fun _ _ _ => hostView_pageRead ..) d

@[simp] theorem hostView_charge (c units : Nat) (d : Dev) : hostView (charge c units d) = hostView d := by
  obtain ⟨b, h⟩ := charge_changes c units d
  rw [h]
  rfl

@[simp] theorem hostView_chargeRead (t : Task) (psas : List Nat) (nd : Need) (bytes : Nat) (d : Dev) :
    hostView (chargeRead t psas nd bytes d) = hostView d := by
  simp only [chargeRead, chargeDecode]
  split <;> simp

/-! ### Serving a read (R156, R173) -/

section
variable {env : Env} {t : Task} {d : Dev}

/-- A read's bytes go out and it completes, where it has none or its buffer can be reached (R173). -/
theorem moveOut_completes {outs : List (Nat × List Byte)} (h : outs = [] ∨ d.hqe.issues = true) (status : Byte)
    (result : Word) (more : Bool) :
    moveOut status env t .ok outs result more d = endJob env t status result more (deliverAll env t outs d) := by
  unfold moveOut
  split
  · rfl
  · next hmoves =>
    have hissues : d.hqe.issues = true := h.resolve_left (by rintro rfl; simp at hmoves)
    simp [hissues]

/-- A failed access to the buffer fails the read (R122). -/
theorem moveOut_hostFail {outs : List (Nat × List Byte)} (houts : outs ≠ []) (hkind : t.kind ≠ .act)
    (hissues : d.hqe.issues = true) (status : Byte) (e : HostErr) (result : Word) (more : Bool) :
    moveOut status env t (.hostFail e) outs result more d =
      endJob env t scAbortedHost 0 false (undefineBuffer t (bufferFail env t (errCode e) d)) := by
  simp [moveOut, houts, hkind, hissues]

/-- The pages a pinned read goes through, with how their reads end. -/
def readEnds (env : Env) (t : Task) (ends : List ReadEnd) (d : Dev) : List (Nat × ReadEnd × Nat) × Dev :=
  readPages env t.job.psas ends d

/-- The drive once a read's pages are read and charged. -/
def readMoved (env : Env) (t : Task) (ends : List ReadEnd) (o : Obj) (outs : List (Nat × List Byte)) (d : Dev) : Dev :=
  chargeRead t t.job.psas (needOf d t.capsule o) ((outs.map (fun x => x.2.length)).foldl (· + ·) 0) (readEnds env t ends d).2

/-- Some of what a read needs is lost: a sheet of it cannot be read, or never reached media (R173, R517). -/
def readLost (env : Env) (t : Task) (ends : List ReadEnd) (o : Obj) (d : Dev) : Prop :=
  (needOf d t.capsule o).bad = true ∨ ∃ y ∈ (readEnds env t ends d).1, y.2.1 = .unrecoverable

theorem hostView_readMoved (env : Env) (t : Task) (ends : List ReadEnd) (o : Obj) (outs : List (Nat × List Byte)) (d : Dev) :
    hostView (readMoved env t ends o outs d) = hostView d :=
  (hostView_chargeRead ..).trans (hostView_readPages ..)

/-- The test finishRead makes of its pages. -/
theorem readLost_test (env : Env) (t : Task) (ends : List ReadEnd) (o : Obj) (d : Dev) :
    ((needOf d t.capsule o).bad || (readPages env t.job.psas ends d).1.any (fun x => x.2.1 == .unrecoverable)) = true ↔
      readLost env t ends o d := by
  simp only [Bool.or_eq_true, List.any_eq_true, beq_iff_eq]
  rfl

section
variable {ends : List ReadEnd} {o : Obj} {outs : List (Nat × List Byte)} {result : Word}
  (hop : capOpc t.capsule ≠ 0x04) (houts : outs ≠ []) (hissues : d.hqe.issues = true)
include hop houts hissues

theorem finishRead_lost (hlost : readLost env t ends o d) (f : Fetch) :
    finishRead env t f ends o outs result d =
      endJob env t scUnrecoveredRead 0 false (undefineBuffer t (readMoved env t ends o outs d)) := by
  have hany := (readLost_test ..).mpr hlost
  simp [finishRead, houts, hop, hissues, hany, readMoved, readEnds]

section
variable (hkept : ¬ readLost env t ends o d)
include hkept

/-- A read whose data is whole and whose buffer is reached completes with its bytes placed. -/
theorem finishRead_ok : finishRead env t .ok ends o outs result d =
    endJob env t scOk result false (deliverAll env t outs (readMoved env t ends o outs d)) := by
  have hnone := Bool.eq_false_of_not_eq_true (mt (readLost_test ..).mp hkept)
  have hmoved : (readMoved env t ends o outs d).hqe.issues = true :=
    (congrArg Prod.snd (hostView_readMoved env t ends o outs d)).trans hissues
  rw [← moveOut_completes (.inr hmoved)]
  simp [finishRead, houts, hop, hissues, hnone, readMoved, readEnds]

/-- A tag that does not match fails a read of an encrypted keyspace (R385). -/
theorem finishRead_authFail (henc : (ksOf d (capKsid t.capsule)).encrypted = true) :
    finishRead env t .authFail ends o outs result d =
      endJob env t scAuthFail 0 false (undefineBuffer t (tagMismatch env t (readMoved env t ends o outs d))) := by
  have hnone := Bool.eq_false_of_not_eq_true (mt (readLost_test ..).mp hkept)
  simp [finishRead, houts, hop, hissues, hnone, henc, readMoved, readEnds]

/-- A tile or piece that cannot be decoded fails a read of coded data (R198). -/
theorem finishRead_decodeFail (hcoded : (needOf d t.capsule o).coded = true) (k : Nat) :
    finishRead env t (.decodeFail k) ends o outs result d =
      endJob env t scUnrecoveredRead 0 false (undefineBuffer t (decodeFailed env t k (readMoved env t ends o outs d))) := by
  have hnone := Bool.eq_false_of_not_eq_true (mt (readLost_test ..).mp hkept)
  simp [finishRead, houts, hop, hissues, hnone, hcoded, readMoved, readEnds]

theorem finishRead_hostFail (hkind : t.kind ≠ .act) (e : HostErr) :
    finishRead env t (.hostFail e) ends o outs result d =
      endJob env t scAbortedHost 0 false
        (undefineBuffer t (bufferFail env t (errCode e) (readMoved env t ends o outs d))) := by
  have hnone := Bool.eq_false_of_not_eq_true (mt (readLost_test ..).mp hkept)
  have hmoved : (readMoved env t ends o outs d).hqe.issues = true :=
    (congrArg Prod.snd (hostView_readMoved env t ends o outs d)).trans hissues
  rw [← moveOut_hostFail houts hkind hmoved scOk e result false]
  simp [finishRead, houts, hop, hissues, hnone, readMoved, readEnds]

end

end

/-- A read that needs no bytes moved, or is EXIST, completes with what it places (R145). -/
theorem finishRead_unmoved {o : Obj} {outs : List (Nat × List Byte)} (h : capOpc t.capsule = 0x04 ∨ outs = [])
    (hissues : d.hqe.issues = true) (ends : List ReadEnd) (result : Word) :
    finishRead env t .ok ends o outs result d =
      endJob env t scOk result false (deliverAll env t outs (readEnds env t ends d).2) := by
  have hends : (readEnds env t ends d).2.hqe.issues = true :=
    (congrArg Prod.snd (hostView_readPages env t.job.psas ends d)).trans hissues
  rw [← moveOut_completes (.inr hends)]
  rcases h with h | h <;> simp [finishRead, h, hissues, readEnds]

/-- A read whose data is whole completes with its bytes placed, host memory as it was until then. -/
theorem finishRead_whole {ends : List ReadEnd} {o : Obj} {outs : List (Nat × List Byte)} (hop : capOpc t.capsule ≠ 0x04)
    (hissues : d.hqe.issues = true) (hkept : ¬ readLost env t ends o d) (result : Word) :
    ∃ e, hostView e = hostView d ∧
      finishRead env t .ok ends o outs result d = endJob env t scOk result false (deliverAll env t outs e) := by
  by_cases houts : outs = []
  · exact ⟨_, hostView_readPages .., finishRead_unmoved (.inr houts) hissues ends result⟩
  · exact ⟨_, hostView_readMoved .., finishRead_ok hop houts hissues hkept⟩

end

/-! ### Under the lock (R155, R156) -/

section
variable {env : Env} {t : Task} {n : Nat} {d : Dev} {x : Slot}

@[simp] theorem pinRead_hqe (t : Task) (lk : Lk) (cur : W32 × Obj) (d : Dev) : (pinRead t lk cur d).2.hqe = d.hqe := by
  simp [pinRead]

theorem leasedPages_of_hqe {d e : Dev} (h : e.hqe = d.hqe) (c : V512) (o : Obj) : leasedPages e c o = leasedPages d c o := by
  have hholds : leaseHolds e = leaseHolds d := by
    funext p
    simp only [leaseHolds, leased, h]
  simp only [leasedPages, hholds]

variable (hpin : t.job.pin = none) (hlock : t.job.lock = .held n) (hslot : slotAt d n = some x)
include hpin hlock hslot

theorem runRead_stops {w : Verdict} (h : readOut t.capsule x.current = .stop w) (f : Fetch) (ends : List ReadEnd) :
    runRead env t f ends d = endJob env t w.1 w.2 false d := by
  simp [runRead, hpin, lockOf, hlock, currentOf_slot hslot, h]

section
variable {v : W32} {o : Obj} {outs : List (Nat × List Byte)} {result : Word} (hcur : x.current = some (v, o))
  (hout : readOut t.capsule x.current = .out outs result) (hpages : leasedPages d t.capsule o = [])
include hcur hout hpages

/-- A read under its lock pins the version, and reads it once it has its staging. -/
theorem runRead_reads (hstage : roiStage t.capsule o = 0 ∨
      stageNow (pinRead t (.slot n) (v, o) d).2 (pinRead t (.slot n) (v, o) d).1 true (roiStage t.capsule o) = true)
    (f : Fetch) (ends : List ReadEnd) :
    runRead env t f ends d =
      finishRead env (pinRead t (.slot n) (v, o) d).1 f ends o outs result (pinRead t (.slot n) (v, o) d).2 := by
  have hcap : (pinRead t (.slot n) (v, o) d).1.capsule = t.capsule := rfl
  have hpages' := (leasedPages_of_hqe (pinRead_hqe t (.slot n) (v, o) d) t.capsule o).trans hpages
  rw [hcur] at hout
  simp [runRead, hpin, lockOf, hlock, currentOf_slot hslot, hcur, hout, readObj, hcap, hpages', hstage]

/-- A read that must wait for its staging waits with the version pinned (R203). -/
theorem runRead_waits (hneeds : 0 < roiStage t.capsule o)
    (hstage : stageNow (pinRead t (.slot n) (v, o) d).2 (pinRead t (.slot n) (v, o) d).1 true (roiStage t.capsule o) = false)
    (f : Fetch) (ends : List ReadEnd) :
    let p := pinRead t (.slot n) (v, o) d
    runRead env t f ends d =
      waitJob env p.1 { p.1.job with phase := .waitDrive } (stageWait p.1 true (roiStage t.capsule o) p.2) := by
  have hcap : (pinRead t (.slot n) (v, o) d).1.capsule = t.capsule := rfl
  have hpages' := (leasedPages_of_hqe (pinRead_hqe t (.slot n) (v, o) d) t.capsule o).trans hpages
  rw [hcur] at hout
  simp [runRead, hpin, lockOf, hlock, currentOf_slot hslot, hcur, hout, readObj, hcap, hpages', hstage, Nat.ne_of_gt hneeds]

end

end

/-! ### What EXIST and GET need of an object (R143, R145) -/

/-- EXIST reads no sheet. -/
theorem pinRead_exist_psas {t : Task} (hop : capOpc t.capsule = 0x04) (lk : Lk) (v : W32) (o : Obj) (d : Dev) :
    (pinRead t lk (v, o) d).1.job.psas = [] := by
  have hrange : readRange t.capsule o = (0, 0) := by simp [readRange, hop]
  have hinline (s : Slot) : inlinePsas s o 0 = [] := by simp [inlinePsas]
  have hneed : (needOf d t.capsule o).psas = [] := by
    unfold needOf
    split
    · simp [hrange, plainNeed, sheetsOf, needUnits]
    · simp [hop, hrange, tileNeed, tilesIn, overlap, needUnits]
  unfold pinRead
  simp only [hrange, hneed, List.append_nil]
  split
  · split
    · exact hinline _
    · rfl
  · rfl

/-- EXIST completes with its record alone, and reads and charges nothing. -/
theorem finishRead_exist {env : Env} {t : Task} {d : Dev} (hop : capOpc t.capsule = 0x04) (hpsas : t.job.psas = [])
    (hissues : d.hqe.issues = true) (o : Obj) (outs : List (Nat × List Byte)) (result : Word) :
    finishRead env t .ok [] o outs result d = endJob env t scOk result false (deliverAll env t outs d) := by
  rw [finishRead_unmoved (.inl hop) hissues, readEnds, hpsas]
  rfl

/-- A plain object none of whose data was lost before it reached media lacks nothing. -/
theorem needOf_plain_bad {o : Obj} (hframe : o.frame = none) (hbad : o.bad = []) (d : Dev) (c : V512) :
    (needOf d c o).bad = false := by
  simp [needOf, hframe, plainNeed, hbad]

/-- GET answers the whole object where it fits. -/
theorem readOut_get {c : V512} (hop : capOpc c = 0x02) {v : W32} {o : Obj} (hlen : o.len ≤ capLen c) :
    readOut c (some (v, o)) = .out (if o.len = 0 then [] else [(0, valueBytes v o)]) (resultOf v o.len) := by
  simp [readOut, hop, Nat.not_lt.mpr hlen]

theorem readOut_get_too_large {c : V512} (hop : capOpc c = 0x02) {v : W32} {o : Obj} (hlen : capLen c < o.len) :
    readOut c (some (v, o)) = .stop (scTooLarge, resultOf v o.len) := by
  simp [readOut, hop, hlen]

theorem roiStage_other {c : V512} (hop : capOpc c ≠ 0x0D) (o : Obj) : roiStage c o = 0 := if_neg hop

/-! ### Bytes placed in a buffer of one stretch (R110) -/

@[simp] theorem copied_hqe (t : Task) (n : Nat) (d : Dev) : (copied t n d).hqe = d.hqe := by
  unfold copied; split <;> simp

/-- A value placed at the head of a buffer of one stretch that has room for it; an empty one has nothing to place. -/
theorem deliverAll_value (env : Env) {t : Task} (hkind : t.kind = .host) {base room len : Nat} (hsgl : t.sgl = [(base, room)])
    (hlen : len ≤ room) (m : Mem) (d : Dev) :
    (deliverAll env t (if len = 0 then [] else [(0, memBytes m 0 len)]) d).hqe.hmem =
      memStore d.hqe.hmem base (memBytes m 0 len) := by
  by_cases hempty : len = 0
  · simp [deliverAll, hkind, hempty, memBytes, memStore]
  · have htake : (memBytes m 0 len).take room = memBytes m 0 len := List.take_of_length_le (by simpa [memBytes] using hlen)
    have hroom : ¬ room ≤ 0 := by omega
    simp [deliverAll, hkind, hempty, hostWrite, hsgl, storeSegs, hroom, htake]

@[simp] theorem memBytes_length (m : Mem) (a n : Nat) : (memBytes m a n).length = n := by simp [memBytes]

/-! ### The commands -/

/-- GET, RANGE_READ and ROI_READ run as reads with what they are given. -/
theorem read_next {s : State} {i : Instr} {r : TaskRef} {opc : Nat} {t : Task} {f : Fetch} {ends : List ReadEnd}
    (hi : (i, opc) ∈ [(.get r ⟨f, ends⟩, 0x02), (.exist r f, 0x04), (.rangeRead r ⟨f, ends⟩, 0x06), (.roiRead r ⟨f, ends⟩, 0x0D)])
    (h : serving s.dev r opc = some t) (hop : opc ≠ 0x04) : NextDev i s (runRead s.env t f ends s.dev) := by
  simp only [List.mem_cons, Prod.mk.injEq, List.not_mem_nil, or_false] at hi
  rcases hi with ⟨rfl, rfl⟩ | ⟨rfl, rfl⟩ | ⟨rfl, rfl⟩ | ⟨rfl, rfl⟩
  · exact serve_next (f := fun env t d => runRead env t f ends d) h rfl
  · exact absurd rfl hop
  · exact serve_next (f := fun env t d => runRead env t f ends d) h rfl
  · exact serve_next (f := fun env t d => runRead env t f ends d) h rfl

/-- EXIST is a read that only the access to its buffer can fail. -/
theorem exist_next {s : State} {i : Instr} {r : TaskRef} {t : Task} {f : Fetch} {ends : List ReadEnd}
    (hi : (i, 0x04) ∈ [(.get r ⟨f, ends⟩, 0x02), (.exist r f, 0x04), (.rangeRead r ⟨f, ends⟩, 0x06), (.roiRead r ⟨f, ends⟩, 0x0D)])
    (h : serving s.dev r 0x04 = some t) : NextDev i s (runRead s.env t (hostOnly f) [] s.dev) := by
  have hexist : i = .exist r f := by simpa using hi
  subst hexist
  exact serve_next (f := fun env t d => runRead env t (hostOnly f) [] d) h rfl

section
variable {s : State} {r : TaskRef} {t : Task}

/-- GET of a plain object that fits puts its bytes at the head of the buffer, and changes no other byte (R143). -/
theorem get_completes {ends : List ReadEnd} {n base : Nat} {x : Slot} {v : W32} {o : Obj} (h : serving s.dev r 0x02 = some t)
    (hpin : t.job.pin = none) (hlock : t.job.lock = .held n) (hslot : slotAt s.dev n = some x) (hcur : x.current = some (v, o))
    (hframe : o.frame = none) (hbad : o.bad = []) (hlen : o.len ≤ capLen t.capsule) (hkind : t.kind = .host)
    (hsgl : t.sgl = [(base, capLen t.capsule)]) (hissues : s.dev.hqe.issues = true) (hpages : leasedPages s.dev t.capsule o = [])
    (hends : let p := pinRead t (.slot n) (v, o) s.dev; ∀ y ∈ (readEnds s.env p.1 ends p.2).1, y.2.1 ≠ .unrecoverable) :
    Completes (.get r ⟨.ok, ends⟩) s t scOk (resultOf v o.len) (fun d =>
      memBytes d.hqe.hmem base o.len = memBytes o.data 0 o.len ∧
      ∀ a, (a < base ∨ base + o.len ≤ a) → memRead d.hqe.hmem a = memRead s.dev.hqe.hmem a) := by
  have hop := serving_opc h
  have hout := readOut_get hop (v := v) hlen
  have hnext : NextDev (.get r ⟨.ok, ends⟩) s (runRead s.env t .ok ends s.dev) := read_next (opc := 0x02) (by simp) h (by decide)
  rw [NextDev, runRead_reads hpin hlock hslot hcur (by rw [hcur]; exact hout) hpages (.inl (roiStage_other (by omega) o))] at hnext
  have hkept : ¬ readLost s.env (pinRead t (.slot n) (v, o) s.dev).1 ends o (pinRead t (.slot n) (v, o) s.dev).2 := by
    rintro (hlost | ⟨y, hy, hunrec⟩)
    · rw [needOf_plain_bad hframe hbad] at hlost
      cases hlost
    · exact hends y hy hunrec
  have hpinned : (pinRead t (.slot n) (v, o) s.dev).2.hqe.issues = true := by rw [pinRead_hqe]; exact hissues
  obtain ⟨e, hview, hfinish⟩ := finishRead_whole (t := (pinRead t (.slot n) (v, o) s.dev).1) (outs := if o.len = 0 then [] else
    [(0, valueBytes v o)]) (show capOpc t.capsule ≠ 0x04 by omega) hpinned hkept (resultOf v o.len)
  have hmem : (deliverAll s.env (pinRead t (.slot n) (v, o) s.dev).1 (if o.len = 0 then [] else [(0, valueBytes v o)]) e).hqe.hmem =
      memStore s.dev.hqe.hmem base (memBytes o.data 0 o.len) := by
    have hbytes : valueBytes v o = memBytes o.data 0 o.len := by simp [valueBytes, hframe]
    have hsame : e.hqe.hmem = s.dev.hqe.hmem := (congrArg Prod.fst hview).trans (by rw [hostView, pinRead_hqe])
    rw [hbytes, ← hsame]
    exact deliverAll_value s.env hkind hsgl hlen o.data e
  rw [hfinish] at hnext
  refine ⟨_, _, ?ref, ?who, ⟨?bytes, fun a ha => ?frame⟩, hnext⟩
  case ref => rfl
  case who => rfl
  case bytes =>
    have hback := memBytes_memStore_all s.dev.hqe.hmem base (memBytes o.data 0 o.len)
    rwa [memBytes_length, ← hmem] at hback
  case frame => rw [hmem]; exact memRead_store_out _ _ _ _ (by simpa using ha)

/-- GET of an object that does not fit (R143). -/
theorem get_too_large {f : Fetch} {ends : List ReadEnd} {n : Nat} {x : Slot} {v : W32} {o : Obj}
    (h : serving s.dev r 0x02 = some t) (hpin : t.job.pin = none) (hlock : t.job.lock = .held n)
    (hslot : slotAt s.dev n = some x) (hcur : x.current = some (v, o)) (hlen : capLen t.capsule < o.len) :
    NextDev (.get r ⟨f, ends⟩) s (endJob s.env t scTooLarge (resultOf v o.len) false s.dev) := by
  have hnext : NextDev (.get r ⟨f, ends⟩) s (runRead s.env t f ends s.dev) := read_next (opc := 0x02) (by simp) h (by decide)
  rwa [runRead_stops hpin hlock hslot (by rw [hcur]; exact readOut_get_too_large (serving_opc h) hlen)] at hnext

/-- What LIST answers: the status, the cursor of the next scan, its bytes, and whether more follow (R151–R153). -/
theorem list_next {budget : Nat} (h : serving s.dev r 0x0A = some t) (hissues : s.dev.hqe.issues = true) :
    let c := t.capsule
    let ss := listSlots s.dev (capKsid c) (capOff c)
    let l := scanList t.key (capLen c - 16) (ss.length + 1) budget ss [] 0
    let hdr (next : Word) := natLe 8 next.toNat ++ natLe 4 l.count ++ natLe 4 (16 + l.bytes.length)
    (l.big = true → NextDev (.list r .ok budget) s (endJob s.env t scTooLarge (BitVec.ofNat 64 (capOff c)) false
      (deliverOut s.env t 0 (hdr (BitVec.ofNat 64 (capOff c))) s.dev))) ∧
    (l.big = false → NextDev (.list r .ok budget) s (endJob s.env t scOk (l.next.getD 0) l.next.isSome
      (deliverAll s.env t [(0, hdr (l.next.getD 0) ++ l.bytes)] s.dev))) := by
  intro c ss l hdr
  refine ⟨fun hbig => ?_, fun hfits => ?_⟩
  · change execList r .ok budget s = _
    rw [deliverOut, ← moveOut_completes (.inr hissues)]
    exact serve_next h (by simp only [l, ss, c] at hbig; simp only [hbig, ↓reduceIte]; rfl)
  · change execList r .ok budget s = _
    rw [← moveOut_completes (.inr hissues)]
    exact serve_next h (by simp only [l, ss, c] at hfits; simp only [hfits, Bool.false_eq_true, ↓reduceIte]; rfl)

/-- FLUSH completes once no write acknowledged before it was fetched is on its way (R163). -/
theorem flush_next (h : serving s.dev r 0x0B = some t) :
    let pendingBefore := s.dev.flt.held.any (fun h =>
      (match h.acked with | some k => decide (k ≤ t.arrNo) | none => false) && !h.settled s.dev)
    NextDev (.flush r) s (if pendingBefore then waitJob s.env t { t.job with phase := .flush 0 } s.dev
      else endJob s.env t scOk 0 false s.dev) := by
  change execFlush r s = _
  exact serve_next h rfl

end

/-- Settles O38: each read by what it finds under its lock, reads, and places. -/
theorem readsAnswer : Obligations.ReadsAnswer := by
  intro s i r opc n budget base k t x v o w outs result e f ends h c fin ss l hdr pendingBefore p nd es bytes moved ended lost
  refine ⟨fun hi hpin hlock hslot => ⟨?stops, ?exist, ?reads, ?waits⟩, ?get, ?tooLarge, ?list, ?flush⟩
  case stops =>
    intro hstop
    by_cases hop : opc = 0x04
    · subst hop
      exact nextDev_of_eq (exist_next hi h) (runRead_stops hpin hlock hslot hstop ..)
    · exact nextDev_of_eq (read_next hi h hop) (runRead_stops hpin hlock hslot hstop ..)
  case exist =>
    rintro rfl hcur hout hissues hreach hpages
    have hop := serving_opc h
    have hok : hostOnly f = .ok := by
      unfold hostOnly
      split
      · next y => exact absurd rfl (hreach y)
      · rfl
    have hnext : NextDev i s _ := exist_next hi h
    rw [hok, NextDev, runRead_reads hpin hlock hslot hcur hout hpages (.inl (roiStage_other (by omega) o)),
      finishRead_exist (show capOpc p.1.capsule = 0x04 from hop) (pinRead_exist_psas hop ..) (by rw [pinRead_hqe]; exact hissues)] at hnext
    refine ⟨_, _, ?ref, ?who, ⟨_, rfl, pinRead_hqe ..⟩, hnext⟩
    case ref => rfl
    case who => rfl
  case reads =>
    intro hop hcur hout hissues hpages hstage houts
    have hop' : capOpc p.1.capsule ≠ 0x04 := (serving_opc h).trans_ne hop
    have hpinned : p.2.hqe.issues = true := by rw [pinRead_hqe]; exact hissues
    have hnext : NextDev i s (finishRead s.env p.1 f ends o outs result p.2) :=
      nextDev_of_eq (read_next hi h hop) (runRead_reads hpin hlock hslot hcur hout hpages hstage f ends)
    refine ⟨fun hlost => ?_, ?_, ?_, ?_, ?_⟩
    · exact nextDev_of_eq hnext (finishRead_lost hop' houts hpinned hlost f)
    · rintro hkept rfl
      exact nextDev_of_eq hnext (finishRead_ok hop' houts hpinned hkept)
    · rintro hkept rfl henc
      exact nextDev_of_eq hnext (finishRead_authFail hop' houts hpinned hkept henc)
    · rintro hkept rfl hcoded
      exact nextDev_of_eq hnext (finishRead_decodeFail hop' houts hpinned hkept hcoded k)
    · rintro hkept rfl hkind
      exact nextDev_of_eq hnext (finishRead_hostFail hop' houts hpinned hkept hkind e)
  case waits =>
    intro hop hcur hout hpages hneeds hstage
    exact nextDev_of_eq (read_next hi h hop) (runRead_waits hpin hlock hslot hcur hout hpages hneeds hstage f ends)
  case get =>
    rintro rfl rfl hpin hlock hslot hcur hframe hbad hlen hkind hsgl hissues hpages hends
    exact get_completes h hpin hlock hslot hcur hframe hbad hlen hkind hsgl hissues hpages hends
  case tooLarge =>
    rintro rfl rfl hpin hlock hslot hcur hlen
    exact get_too_large h hpin hlock hslot hcur hlen
  case list =>
    rintro rfl rfl hissues
    exact list_next h hissues
  case flush =>
    rintro rfl rfl
    exact ⟨fun hnone => nextDev_of_eq (flush_next h) (if_neg (ne_true_of_eq_false hnone)),
      fun hsome => nextDev_of_eq (flush_next h) (if_pos hsome)⟩

end Sys2Proof.Proofs
end

section
/-! The reconstructed pixel v′ passes the integer test of its mode, so that a verify the lanes report no failure of finds none
(R186–R195). -/

namespace Sys2Proof.Proofs

open Sys2Proof.Machine Sys2Proof.Claims Sys2Proof.Laws

/-! ### Bins of CAL4 (R188) -/

theorem isqrtBits_sq_le {n r : Nat} (k : Nat) (h : r * r ≤ n) : isqrtBits n k r * isqrtBits n k r ≤ n := by
  induction k generalizing r with
  | zero => exact h
  | succ k ih =>
    unfold isqrtBits
    split
    · next hnext => exact ih hnext
    · exact ih h

theorem isqrt_sq_le (n : Nat) : isqrt n * isqrt n ≤ n := isqrtBits_sq_le 32 (Nat.zero_le n)

/-- A bin wider than one value is no wider than a 64th of the root of p²b. -/
theorem binWidth_sq_le (p b : Nat) : binWidth p b = 1 ∨ 64 * binWidth p b * (64 * binWidth p b) ≤ p * p * b := by
  rcases Nat.le_total (isqrt (p * p * b) / 64) 1 with h | h
  · exact .inl (Nat.max_eq_left h)
  · have hw : binWidth p b = isqrt (p * p * b) / 64 := Nat.max_eq_right h
    have h64 : 64 * binWidth p b ≤ isqrt (p * p * b) := by omega
    exact .inr ((Nat.mul_le_mul h64 h64).trans (isqrt_sq_le _))

/-- The bins cover every value: v lies in the one whose middle is its reconstruction. -/
theorem binValue_mem (p v : Nat) {n b : Nat} (hb : b ≤ v) (hn : v < b + n) :
    ∃ a, a ≤ v ∧ v < a + binWidth p a ∧ binValue p v n b = a + (binWidth p a - 1) / 2 := by
  induction n generalizing b with
  | zero => omega
  | succ n ih =>
    have hw : 1 ≤ binWidth p b := Nat.le_max_left ..
    unfold binValue
    dsimp only
    split
    · next hin => exact ⟨b, hb, hin, rfl⟩
    · exact ih (by omega) (by omega)

/-! ### The bounds (R194) -/

/-- Distance of two values. -/
def gapOf (v v' : Nat) : Nat := (v' - v) + (v - v')

/-- Cutting off at a top that v does not pass moves nothing away from v. -/
theorem gapOf_min_le {v top : Nat} (hv : v ≤ top) (v' : Nat) : gapOf v (min v' top) ≤ gapOf v v' := by
  unfold gapOf; omega

theorem gapOf_cal3 (param v : Nat) : gapOf v ((v + param) / (2 * param + 1) * (2 * param + 1)) ≤ param := by
  have hdiv := Nat.div_add_mod (v + param) (2 * param + 1)
  have hmod := Nat.mod_lt (v + param) (show 0 < 2 * param + 1 by omega)
  rw [Nat.mul_comm] at hdiv
  unfold gapOf
  omega

theorem gapOf_cal4 (p v : Nat) :
    16384 * (gapOf v (binValue p v (v + 1) 0) * gapOf v (binValue p v (v + 1) 0)) ≤ p * p * v := by
  obtain ⟨a, ha, hin, heq⟩ := binValue_mem p v (Nat.zero_le v) (show v < 0 + (v + 1) by omega)
  rw [heq]
  rcases binWidth_sq_le p a with hw | hw
  · have hgap : gapOf v (a + (binWidth p a - 1) / 2) = 0 := by unfold gapOf; omega
    simp [hgap]
  · have hgap : 128 * gapOf v (a + (binWidth p a - 1) / 2) ≤ 64 * binWidth p a := by unfold gapOf; omega
    calc 16384 * (gapOf v (a + (binWidth p a - 1) / 2) * gapOf v (a + (binWidth p a - 1) / 2))
        = 128 * gapOf v (a + (binWidth p a - 1) / 2) * (128 * gapOf v (a + (binWidth p a - 1) / 2)) := by ring
      _ ≤ 64 * binWidth p a * (64 * binWidth p a) := Nat.mul_le_mul hgap hgap
      _ ≤ p * p * a := hw
      _ ≤ p * p * v := Nat.mul_le_mul_left _ ha

theorem gapOf_cal5 (param v : Nat) : gapOf v (v / 2 ^ param * 2 ^ param + 2 ^ (param - 1)) ≤ 2 ^ (param - 1) := by
  have hdiv := Nat.div_add_mod v (2 ^ param)
  have hmod := Nat.mod_lt v (Nat.two_pow_pos param)
  have hhalf : 2 ^ param ≤ 2 * 2 ^ (param - 1) := by
    rw [← Nat.pow_succ']
    exact Nat.pow_le_pow_right (by omega) (by omega)
  rw [Nat.mul_comm] at hdiv
  unfold gapOf
  omega

/-- Every mode's reconstruction meets its own bound. -/
theorem boundMet_recon {ptype v : Nat} (mode param floorT : Nat) (hv : v ≤ vmax ptype) :
    boundMet ptype mode param floorT v (recon ptype mode param floorT v) = true := by
  unfold boundMet recon
  by_cases hfloor : floored ptype mode floorT v = true
  · simp [hfloor]
  · simp only [hfloor, Bool.false_eq_true, ↓reduceIte]
    split
    · exact decide_eq_true ((gapOf_min_le hv _).trans (gapOf_cal3 param v))
    · have hle := gapOf_min_le hv (binValue param v (v + 1) 0)
      exact decide_eq_true ((Nat.mul_le_mul_left 16384 (Nat.mul_le_mul hle hle)).trans (gapOf_cal4 param v))
    · split
      · split
        · simp
        · simp
      · exact decide_eq_true (gapOf_cal5 param v)
    · simp

/-- No pixel of a tile fails its test. -/
theorem firstUnmet_recon {ptype : Nat} {vs : List Nat} (mode param floorT : Nat) (h : ∀ v ∈ vs, v ≤ vmax ptype) :
    firstUnmet ptype mode param floorT vs (vs.map (recon ptype mode param floorT)) = none := by
  have hzip : vs.zip (vs.map (recon ptype mode param floorT)) = vs.map (fun v => (v, recon ptype mode param floorT v)) := by
    simpa using List.zip_map' (l := vs) (f := id) (g := recon ptype mode param floorT)
  rw [firstUnmet, hzip, List.findIdx?_eq_none_iff]
  intro x hx
  obtain ⟨v, hmem, rfl⟩ := List.mem_map.mp hx
  simp [boundMet_recon mode param floorT (h v hmem)]

/-! ### Pixels (R176, R178) -/

theorem leNat_lt (bs : List Byte) : leNat bs < 256 ^ bs.length := by
  induction bs with
  | nil => simp [leNat]
  | cons b bs ih =>
    have hb : b.toNat < 256 := b.isLt
    simp only [leNat, List.length_cons, Nat.pow_succ]
    omega

/-- A pixel read is a value of its type. -/
theorem pixelAt_le (data : List Byte) (off ptype : Nat) (swap : Bool) : pixelAt data off (bpp ptype) swap ≤ vmax ptype := by
  have hlt (bs : List Byte) (hbs : bs.length = bpp ptype) : leNat bs ≤ vmax ptype := by
    have h := leNat_lt bs
    rw [hbs, show 256 = 2 ^ 8 from rfl, ← Nat.pow_mul] at h
    unfold vmax
    omega
  unfold pixelAt
  split
  · exact hlt _ (by simp)
  · exact hlt _ (by simp)

/-- A pixel of a plane is one of its pixels, or zero outside it. -/
theorem planeAt_le {pixels : List Nat} {top : Nat} (h : ∀ v ∈ pixels, v ≤ top) (width x y : Nat) :
    planeAt pixels width x y ≤ top := by
  unfold planeAt
  rw [List.getD_eq_getElem?_getD]
  cases hget : pixels[y * width + x]? with
  | none => exact Nat.zero_le _
  | some v => exact h v (List.mem_of_getElem? hget)

/-- The pixels of a tile are values of its type. -/
theorem tile_le (h : FrameHdr) (data : List Byte) (f j : Nat) : ∀ v ∈ h.tile (inputPixels h data f) j, v ≤ vmax h.ptype := by
  have hinput : ∀ v ∈ inputPixels h data f, v ≤ vmax h.ptype := by
    intro v hv
    simp only [inputPixels, List.mem_flatMap, List.mem_map] at hv
    obtain ⟨y, -, x, -, rfl⟩ := hv
    exact pixelAt_le ..
  intro v hv
  simp only [FrameHdr.tile, tilePixels, List.mem_flatMap, List.mem_map] at hv
  obtain ⟨y, -, x, -, rfl⟩ := hv
  exact planeAt_le hinput ..

end Sys2Proof.Proofs
end

section
/-! FRAME_PUT from its admission to its end (06, R178–R185, R193–R195), and BATCH (05, R164–R167). -/

namespace Sys2Proof.Proofs

open Sys2Proof.Machine Sys2Proof.Claims Sys2Proof.Laws

/-! ### What the calender leaves of the directory and the tasks -/

/-- The key directory, with the keyspaces, and the tasks. -/
def besideCal (d : Dev) : Kdr × Mea := (d.kdr, d.mea)

theorem besideCal_of_reports {d e : Dev} (h : Reports d e) : besideCal e = besideCal d := by
  obtain ⟨_, _, _, _, _, _, rfl⟩ := h
  rfl

@[simp] theorem besideCal_setCause (env : Env) (n : Nat) (bits : W32) (d : Dev) :
    besideCal (setCause env n bits d) = besideCal d := besideCal_of_reports (setCause_reports ..)

@[simp] theorem besideCal_event (env : Env) (code : BitVec 16) (sev cls src p0 p1 p2 : Nat) (d : Dev) :
    besideCal (event env code sev cls src p0 p1 p2 d) = besideCal d := besideCal_of_reports (event_reports ..)

@[simp] theorem besideCal_charge (c units : Nat) (d : Dev) : besideCal (charge c units d) = besideCal d := by
  obtain ⟨b, h⟩ := charge_changes c units d
  rw [h]
  rfl

@[simp] theorem besideCal_cal (c : Cal) (d : Dev) : besideCal { d with cal := c } = besideCal d := rfl
@[simp] theorem besideCal_countTiles (tiles raw : Nat) (d : Dev) : besideCal (countTiles tiles raw d) = besideCal d := rfl
@[simp] theorem besideCal_bookForm (coded plain : List Byte) (d : Dev) : besideCal (bookForm coded plain d) = besideCal d := rfl
@[simp] theorem besideCal_takeFree (d : Dev) : besideCal (takeFree d).2 = besideCal d := rfl
@[simp] theorem besideCal_takeFreeBytes (n : Nat) (d : Dev) : besideCal (takeFreeBytes n d).2 = besideCal d := rfl

@[simp] theorem besideCal_stageFree (t : Task) (d : Dev) : besideCal (stageFree t d) = besideCal d := rfl

@[simp] theorem besideCal_dropPortions (ids : List Nat) (d : Dev) : besideCal (dropPortions ids d) = besideCal d := rfl

@[simp] theorem besideCal_verifyFailed (env : Env) (lane mode ptype param pixel : Nat) (d : Dev) :
    besideCal (verifyFailed env lane mode ptype param pixel d) = besideCal d := by
  simp [verifyFailed]

@[simp] theorem besideCal_retryLane (lane : Nat) (d : Dev) : besideCal (retryLane lane d).2 = besideCal d := by
  unfold retryLane
  dsimp only
  split <;> rfl

@[simp] theorem besideCal_verifyLossy (env : Env) (v : Verify) (lane mode ptype param ksid hash : Nat) (d : Dev) :
    besideCal (verifyLossy env v lane mode ptype param ksid hash d).2 = besideCal d := by
  cases v <;> simp [verifyLossy]

@[simp] theorem besideCal_losslessFallback (env : Env) (lane mode ptype : Nat) (d : Dev) :
    besideCal (losslessFallback env lane mode ptype d) = besideCal d := by
  simp [losslessFallback]

@[simp] theorem besideCal_chargeCodings (bytes n : Nat) (d : Dev) : besideCal (chargeCodings bytes n d) = besideCal d := by
  induction n generalizing d with
  | zero => rfl
  | succ n ih => simp [chargeCodings, ih, chargeEncode]

section
variable (env : Env) (t : Task) (h : FrameHdr) (data : List Byte) (kept : Nat) (tiles : List (Nat × Verify))

@[simp] theorem besideCal_codeTile (no : Nat) (d : Dev) :
    besideCal (codeTile env t h data kept tiles no d).2 = besideCal d := by
  simp [codeTile, apply_ite besideCal, apply_ite Prod.snd]

/-- Coding tiles leaves the directory and the tasks. -/
@[simp] theorem besideCal_codeTiles (nos : List Nat) (d : Dev) :
    besideCal (codeTiles env t h data kept tiles nos d).2 = besideCal d := by
  induction nos generalizing d with
  | nil => rfl
  | cons no nos ih =>
    unfold codeTiles
    dsimp only
    split
    · exact besideCal_codeTile ..
    · rw [ih, besideCal_codeTile]

end

/-! ### Tiles that pass verify (R193–R195) -/

/-- A lossy tile whose second coding fails too. -/
def tileFails (h : FrameHdr) (tiles : List (Nat × Verify)) (no : Nat) : Prop :=
  lossy h.mode = true ∧ ∃ a b, (tiles.getD no (0, .pass)).2 = .failed a b

/-- The verdict on a tile is what the lanes report: the reconstruction passes the test the model makes of it. -/
theorem verdict_tile (v : Verify) (h : FrameHdr) (data : List Byte) (f j : Nat) :
    verdict v (firstUnmet h.ptype h.mode h.param h.floorT (h.tile (inputPixels h data f) j)
      ((h.tile (inputPixels h data f) j).map (recon h.ptype h.mode h.param h.floorT))) = v := by
  rw [firstUnmet_recon _ _ _ (tile_le h data f j)]
  rfl

theorem verifyLossy_fst (env : Env) (v : Verify) (lane mode ptype param ksid hash : Nat) (d : Dev) :
    (verifyLossy env v lane mode ptype param ksid hash d).1 = true ↔ ∀ a b, v ≠ .failed a b := by
  cases v <;> simp [verifyLossy]

section
variable (env : Env) (t : Task) (h : FrameHdr) (data : List Byte) (kept : Nat) (tiles : List (Nat × Verify))

/-- A tile is coded unless it is lossy and fails verify twice. -/
theorem codeTile_ok (no : Nat) (d : Dev) :
    (codeTile env t h data kept tiles no d).1.ok = true ↔ ¬ tileFails h tiles no := by
  unfold codeTile
  simp only [verdict_tile]
  have hlane : (tileLane tiles no d).2 = (tiles.getD no (0, .pass)).2 := rfl
  by_cases hlossy : lossy h.mode = true
  · have hpass := verifyLossy_fst env (tileLane tiles no d).2 (tileLane tiles no d).1 h.mode h.ptype h.param (capKsid t.capsule)
      ((keyHash (BitVec.ofNat 8 (capKsid t.capsule)) t.key).toNat % 2 ^ 32) d
    simp only [hlossy, ↓reduceIte]
    have hfails : tileFails h tiles no ↔ ¬ ∀ a b, (tileLane tiles no d).2 ≠ .failed a b := by
      simp [tileFails, hlossy, hlane]
    rw [hfails, not_not, ← hpass]
    split
    · next hfail => simpa using hfail
    · next hok => simpa using hok
  · simp [hlossy, tileFails]

theorem codeTiles_ok {nos : List Nat} (hpass : ∀ no ∈ nos, ¬ tileFails h tiles no) (d : Dev) :
    (codeTiles env t h data kept tiles nos d).1.ok = true := by
  induction nos generalizing d with
  | nil => rfl
  | cons no nos ih =>
    have hok := (codeTile_ok env t h data kept tiles no d).mpr (hpass no (by simp))
    simp only [codeTiles, hok, Bool.not_true, Bool.false_eq_true, ↓reduceIte]
    exact ih (fun no' hno => hpass no' (by simp [hno])) _

theorem codeTiles_stops {no : Nat} {nos : List Nat} (hfail : tileFails h tiles no) (d : Dev) :
    (codeTiles env t h data kept tiles (no :: nos) d).1.ok = false := by
  have hnot : (codeTile env t h data kept tiles no d).1.ok = false :=
    Bool.eq_false_iff.mpr (fun hok => (codeTile_ok env t h data kept tiles no d).mp hok hfail)
  simp only [codeTiles, hnot, Bool.not_false, ↓reduceIte]

end

/-- Lanes that report no second failure of a lossy tile fail none. -/
theorem not_tileFails {h : FrameHdr} {tiles : List (Nat × Verify)}
    (hgood : lossy h.mode = true → ∀ y ∈ tiles, ∀ a b, y.2 ≠ .failed a b) (no : Nat) : ¬ tileFails h tiles no := by
  rintro ⟨hlossy, a, b, hfailed⟩
  rw [List.getD_eq_getElem?_getD] at hfailed
  cases hget : tiles[no]? with
  | none => rw [hget] at hfailed; simp at hfailed
  | some y =>
    rw [hget] at hfailed
    exact hgood hlossy y (List.mem_of_getElem? hget) a b hfailed

/-! ### The tiles of a value (R178, R179) -/

theorem tilesOf_pos {dim side : Nat} (hdim : 1 ≤ dim) (hside : 0 < side) : 0 < tilesOf dim side :=
  Nat.div_pos (by omega) hside

/-- A header that parses is of at least one pixel and one frame. -/
theorem parseHeader_pos {bs : List Byte} {n : Nat} {h : FrameHdr} (hp : parseHeader bs n = some h) :
    1 ≤ h.width ∧ 1 ≤ h.height ∧ 1 ≤ h.nframes := by
  simp only [parseHeader, Option.ite_none_right_eq_some, Bool.and_eq_true, decide_eq_true_eq, Option.some.injEq] at hp
  obtain ⟨hguard, rfl⟩ := hp
  simp only
  omega

/-- A FRAME_PUT has a tile to code. -/
theorem frameValue_tiles {t : Task} {h : FrameHdr} {data : List Byte} (hv : frameValue t = some (h, data)) :
    0 < h.tiles * h.nframes := by
  obtain ⟨h', hp, heq⟩ := Option.map_eq_some_iff.mp hv
  obtain ⟨rfl, -⟩ := Prod.ext_iff.mp heq
  obtain ⟨hw, hh, hn⟩ := parseHeader_pos hp
  have hside := Nat.two_pow_pos h'.tileLog2
  exact Nat.mul_pos (Nat.mul_pos (tilesOf_pos hw hside) (tilesOf_pos hh hside)) hn

/-! ### The commit of the frames (R181–R185) -/

/-- The frames an ADD keeps of the object before it (R181). -/
def framesKept (c : V512) (cur : Option (W32 × Obj)) : List FrameRec :=
  match cur with
  | some y => if bitOf c 49 then (match y.2.frame with | some f => f.frames | none => []) else []
  | none => []

/-- The task of a FRAME_PUT whose frames have committed. -/
def framesPut (t : Task) (ver : W32) (id : Nat) (result : Word) : Task :=
  { t with job := { t.job with firstVer := ver, done := 1, heldIds := t.job.heldIds ++ [id], reserved := 0, phase := .media 0,
                               lock := .dropped, result := result } }

/-- The frame object after the commit: what ADD keeps, then the new frames. -/
theorem framesAfter_frames (c : V512) (h : FrameHdr) (cur : Option (W32 × Obj)) (new : List FrameRec) :
    (framesAfter c h cur new).frames = framesKept c cur ++ new := rfl

section
variable {env : Env} {t : Task} {n : Nat} {d : Dev} {x : Slot}

/-- The slot a version is installed in holds its frames, also once the version's stage is noted and the reserve given back. -/
theorem slotAt_install_frame (hslot : slotAt d n = some x) (ver : W32) (o : Obj) (runs : List Run) (bytes id stage back : Nat) :
    ∃ y o', slotAt (unreserve back (holdStage id stage (install env t n ver o runs bytes d).2)) n = some y ∧ y.key = x.key ∧
      y.current = some (ver, o') ∧ o'.frame = o.frame := by
  obtain ⟨y, o', hy, hkey, -, hcur, hbody⟩ := slotAt_of_saysAt (saysAt_install env t ver o runs bytes hslot)
  obtain ⟨-, -, hframe⟩ := objBody_eq hbody
  exact ⟨y, o', hy, hkey, hcur, hframe⟩

variable {h : FrameHdr} {data : List Byte}

/-- A FRAME_PUT whose version stands on drive `d` ends, or waits for media. -/
def framesEnd (env : Env) (t : Task) (ver : W32) (result : Word) (id : Nat) (d : Dev) : Dev :=
  let u := framesPut t ver id result
  let d2 := dropPortions u.job.heldIds (releaseSlots t.owner (unreserve t.job.reserved d))
  if t.job.durable && !allSettled d2 u.job.heldIds then waitJob env t u.job d2
  else endJob env u scOk result false (putTask u d2)

theorem framesEnd_completes (hdur : t.job.durable = false) (ver : W32) (result : Word) (id : Nat) :
    framesEnd env t ver result id d = endJob env (framesPut t ver id result) scOk result false
      (putTask (framesPut t ver id result) (dropPortions (framesPut t ver id result).job.heldIds
        (releaseSlots t.owner (unreserve t.job.reserved d)))) := by
  unfold framesEnd
  rw [hdur]
  rfl

/-- The frames a FRAME_PUT brings. -/
def framesNew (t : Task) (h : FrameHdr) (data : List Byte) (ver : W32) : List FrameRec :=
  (List.range h.nframes).map (frameRec h data ver t.accTick (fun no => (tblGet t.job.tiles no).getD ⟨0, false, false⟩))

theorem framesNew_length (t : Task) (h : FrameHdr) (data : List Byte) (ver : W32) : (framesNew t h data ver).length = h.nframes := by
  simp [framesNew]

/-- The object a FRAME_PUT installs on drive `d`, from what its slot held before. -/
def framesObj (t : Task) (h : FrameHdr) (cur : Option (W32 × Obj)) (new : List FrameRec) (runs : List Run) (next : Nat)
    (d : Dev) : Obj :=
  let old : Obj := (match cur with | some x => if bitOf t.capsule 49 then some x.2 else none | none => none).getD
    { objId := t.job.objId, len := 0, kgen := (ksOf d (capKsid t.capsule)).kgen }
  { old with len := (framesAfter t.capsule h cur new).streamLen, compress := 3,
             frame := some (framesAfter t.capsule h cur new), coded := old.coded ++ unitsOf next runs }

/-- A FRAME_PUT takes a version and installs its object, over what its slot held before. -/
def framesInstall (env : Env) (t : Task) (n : Nat) (h : FrameHdr) (data : List Byte) (runs : List Run)
    (cur : Option (W32 × Obj)) (d : Dev) : Nat × Dev :=
  let run := takeVer env (capKsid t.capsule) d
  install env t n run.1 (framesObj t h cur (framesNew t h data run.1) runs run.2.flt.nextHeld d) runs data.length run.2

/-- The commit of a FRAME_PUT: its object is installed and the version's stage noted. -/
theorem commitFrames_eq (runs : List Run) :
    commitFrames env t n h data runs false d =
      let ver := (takeVer env (capKsid t.capsule) d).1
      let cur := currentOf d (.slot n)
      let put := framesInstall env t n h data runs cur d
      framesEnd env t ver (resultOf ver (framesAfter t.capsule h cur (framesNew t h data ver)).frames.length) put.1
        (holdStage put.1 (fullTile h) put.2) := rfl

/-- The frames of a FRAME_PUT that does not wait for media commit as one version (R181), and it completes. -/
theorem commitFrames_completes (hdur : t.job.durable = false) (hslot : slotAt d n = some x) (runs : List Run) :
    let ver := runFirst (ksOf d (capKsid t.capsule)).seq 1
    let keep := framesKept t.capsule x.current
    let res := resultOf ver (keep.length + h.nframes)
    ∃ e id y o fo new,
      commitFrames env t n h data runs false d = endJob env (framesPut t ver id res) scOk res false
        (putTask (framesPut t ver id res) (dropPortions (framesPut t ver id res).job.heldIds (releaseSlots t.owner e))) ∧
      slotAt e n = some y ∧ y.key = x.key ∧ y.current = some (ver, o) ∧ o.frame = some fo ∧ fo.frames = keep ++ new ∧
      new.length = h.nframes ∧ fo.width = h.width ∧ fo.height = h.height ∧ fo.ptype = h.ptype := by
  intro ver keep res
  have hrun : slotAt (takeVer env (capKsid t.capsule) d).2 n = some x := by
    rw [takeVer, slotAt, takeRun_slots]; exact hslot
  obtain ⟨y, o, hy, hkey, hcur, hframe⟩ := slotAt_install_frame (env := env) (t := t) hrun ver
    (framesObj t h x.current (framesNew t h data ver) runs (takeVer env (capKsid t.capsule) d).2.flt.nextHeld d) runs data.length
    (framesInstall env t n h data runs x.current d).1 (fullTile h) t.job.reserved
  refine ⟨_, (framesInstall env t n h data runs x.current d).1, y, o, _, framesNew t h data ver, ?_, hy, hkey, hcur, hframe, framesAfter_frames .., framesNew_length .., rfl, rfl, rfl⟩
  rw [commitFrames_eq, currentOf_slot hslot]
  dsimp only
  rw [framesEnd_completes hdur, framesAfter_frames, List.length_append, framesNew_length]
  rfl

end

/-! ### FRAME_PUT whose value is in felt -/

section
variable {env : Env} {t : Task} {n : Nat} {h : FrameHdr} {data : List Byte} {d : Dev} {tiles : List (Nat × Verify)}
  (hvalue : frameValue t = some (h, data)) (hstage : stageNow d t false (fullTile h) = true)
  (hrun : runAllowed d (capKsid t.capsule) 1 = true)
include hvalue hstage hrun

theorem codeAndCommit_commits (hpass : ∀ no, ¬ tileFails h tiles no) :
    ∃ info runs e, besideCal e = besideCal d ∧ codeAndCommit env t n tiles d =
      commitFrames env { t with job := { t.job with tiles := info } } n h data runs false e := by
  have hok := codeTiles_ok env t h data (keptFrames t.capsule (currentOf d (.slot n))) tiles
    (nos := List.range (h.tiles * h.nframes)) (fun no _ => hpass no) (stageFree t d)
  unfold codeAndCommit
  rw [hvalue]
  dsimp only
  rw [hstage, hrun, hok]
  exact ⟨_, _, _, (besideCal_codeTiles ..).trans (besideCal_stageFree ..), rfl⟩

theorem codeAndCommit_fails (hfail : tileFails h tiles 0) :
    ∃ e, besideCal e = besideCal d ∧ codeAndCommit env t n tiles d = endJob env t scBoundViolation 0 false e := by
  have hrange : List.range (h.tiles * h.nframes) = 0 :: (List.range (h.tiles * h.nframes)).tail := by
    obtain ⟨k, hk⟩ := Nat.exists_eq_succ_of_ne_zero (frameValue_tiles hvalue).ne'
    rw [hk, List.range_succ_eq_map]
    rfl
  have hbad := codeTiles_stops env t h data (keptFrames t.capsule (currentOf d (.slot n))) tiles
    (nos := (List.range (h.tiles * h.nframes)).tail) hfail (stageFree t d)
  rw [← hrange] at hbad
  unfold codeAndCommit
  rw [hvalue]
  dsimp only
  rw [hstage, hrun, hbad]
  exact ⟨_, (besideCal_dropPortions ..).trans ((besideCal_codeTiles ..).trans (besideCal_stageFree ..)), rfl⟩

end

/-- A FRAME_PUT in one value, locked and admitted, is coded and committed. -/
theorem framePut_next {s : State} {r : TaskRef} {t : Task} {n a : Nat} (h : serving s.dev r 0x0C = some t)
    (hphase : t.job.phase = .pieces a) (htotal : t.job.total = 1) (hlock : t.job.lock = .held n) (hlim : s.env.pw.limitMib ≠ 0)
    (hroom : roomFor s.env s.dev t.job.len = true) (value : Rd) (tiles : List (Nat × Verify)) :
    NextDev (.framePut r value tiles) s (codeAndCommit s.env t n tiles s.dev) := by
  change execFramePut r value tiles s = _
  refine serve_next h ?_
  simp only [hphase, hlock, htotal, ↓reduceIte]
  rw [admitFrames, if_neg hlim, if_pos hroom]

theorem slotAt_of_besideCal {d e : Dev} (h : besideCal e = besideCal d) (n : Nat) : slotAt e n = slotAt d n := by
  rw [slotAt, slotAt, show e.kdr = d.kdr from congrArg Prod.fst h]

theorem ksOf_of_besideCal {d e : Dev} (h : besideCal e = besideCal d) (k : Nat) : ksOf e k = ksOf d k := by
  rw [ksOf, ksOf, show e.kdr = d.kdr from congrArg Prod.fst h]

/-- FRAME_PUT whose tiles pass commits its frames behind those kept, as one version (R181–R185). -/
theorem framePut_completes {s : State} {t : Task} {n : Nat} {h : FrameHdr} {data : List Byte} {x : Slot} {i : Instr}
    {tiles : List (Nat × Verify)} (hnext : NextDev i s (codeAndCommit s.env t n tiles s.dev)) (hslot : slotAt s.dev n = some x)
    (hvalue : frameValue t = some (h, data)) (hstage : stageNow s.dev t false (fullTile h) = true)
    (hrun : runAllowed s.dev (capKsid t.capsule) 1 = true) (hdur : t.job.durable = false) (hpass : ∀ no, ¬ tileFails h tiles no) :
    let ver := runFirst (ksOf s.dev (capKsid t.capsule)).seq 1
    let keep := framesKept t.capsule x.current
    Completes i s t scOk (resultOf ver (keep.length + h.nframes)) (fun d => ∃ e u y o fo new,
      d = putTask u (dropPortions u.job.heldIds (releaseSlots t.owner e)) ∧ u.ref = t.ref ∧
      slotAt e n = some y ∧ y.key = x.key ∧ y.current = some (ver, o) ∧ o.frame = some fo ∧ fo.frames = keep ++ new ∧
      new.length = h.nframes ∧ fo.width = h.width ∧ fo.height = h.height ∧ fo.ptype = h.ptype) := by
  intro ver keep
  obtain ⟨info, runs, d, hbeside, heq⟩ := codeAndCommit_commits (env := s.env) (n := n) hvalue hstage hrun hpass
  obtain ⟨e, id, y, o, fo, new, hcommit, hholds⟩ := commitFrames_completes (env := s.env) (h := h) (data := data)
    (t := { t with job := { t.job with tiles := info } }) hdur ((slotAt_of_besideCal hbeside n).trans hslot) runs
  rw [ksOf_of_besideCal hbeside] at hcommit hholds
  have hdone := nextDev_of_eq hnext (heq.trans hcommit)
  generalize hu : framesPut _ _ id _ = u at hdone
  have href : u.ref = t.ref := by rw [← hu]; rfl
  have hwho : u.who = t.who := by rw [← hu]; rfl
  exact ⟨u, _, href, hwho, ⟨e, u, y, o, fo, new, rfl, href, hholds⟩, hdone⟩

end Sys2Proof.Proofs
end

section
/-! BATCH: its members, its group and its end (05, R164–R167). -/

namespace Sys2Proof.Proofs

open Sys2Proof.Machine Sys2Proof.Claims Sys2Proof.Laws

/-! ### A task under its context, and its members -/

theorem serving_taskOf {d : Dev} {r : TaskRef} {opc : Nat} {t : Task} (h : serving d r opc = some t) : taskOf d r = some t := by
  unfold serving at h
  split at h
  · next u hu =>
    rw [Option.ite_none_right_eq_some] at h
    rw [hu]
    exact h.2
  · cases h

theorem taskOf_of_mea {d e : Dev} (h : e.mea = d.mea) (r : TaskRef) : taskOf e r = taskOf d r := by
  rw [taskOf, taskOf, taskAt, taskAt, h]

/-- A task updated in its context is the one found there. -/
theorem taskOf_updTask (r : TaskRef) {f : Task → Task} (hf : ∀ t, (f t).ref = t.ref) (d : Dev) :
    taskOf (updTask r.eng r.ctx f d) r = (taskOf d r).map f := by
  have href (t : Task) : (f t).eng = t.eng ∧ (f t).ctx = t.ctx := by simpa [Task.ref] using hf t
  have hpred : ((fun t : Task => t.eng == r.eng && t.ctx == r.ctx) ∘ fun t => if t.eng == r.eng && t.ctx == r.ctx then f t else t) =
      fun t => t.eng == r.eng && t.ctx == r.ctx := by
    funext t
    simp only [Function.comp_apply]
    split
    · rw [(href t).1, (href t).2]
    · rfl
  unfold taskOf taskAt updTask
  rw [List.find?_map, hpred]
  refine Option.map_congr fun t ht => ?_
  rw [if_pos (List.find?_some ht)]

/-- Member `j` of the task in a context. -/
def memberAt (d : Dev) (r : TaskRef) (j : Nat) : Option Member := (taskOf d r).bind (fun t => t.members[j]?)

theorem memberAt_of_mea {d e : Dev} (h : e.mea = d.mea) (r : TaskRef) (j : Nat) : memberAt e r j = memberAt d r j := by
  rw [memberAt, memberAt, taskOf_of_mea h]

theorem memberAt_updTask (r : TaskRef) (j : Nat) {f : Task → Task} (hf : ∀ t, (f t).ref = t.ref)
    (hmem : ∀ t, (f t).members = t.members) (d : Dev) : memberAt (updTask r.eng r.ctx f d) r j = memberAt d r j := by
  rw [memberAt, memberAt, taskOf_updTask r hf]
  cases taskOf d r with
  | none => rfl
  | some t => simp [hmem]

theorem memberAt_updMember (r : TaskRef) (i j : Nat) (f : Member → Member) (d : Dev) :
    memberAt (updMember r.eng r.ctx i f d) r j = (memberAt d r j).map (fun m => if j = i then f m else m) := by
  rw [memberAt, memberAt, updMember, taskOf_updTask]
  · cases taskOf d r with
    | none => rfl
    | some t => simp
  · exact fun _ => rfl

@[simp] theorem eraseSlots_mea (p : Slot → Bool) (n : Nat) (d : Dev) : (eraseSlots p n d).mea = d.mea := by
  induction n generalizing d with
  | zero => rfl
  | succ n ih =>
    unfold eraseSlots
    split
    · rw [ih]; rfl
    · rfl

@[simp] theorem releaseSlots_mea (o : Owner) (d : Dev) : (releaseSlots o d).mea = d.mea := by
  simp [releaseSlots, pruneSlots, moveSlots]

/-- A member that ends has its outcome, and no other member changes. -/
theorem memberAt_endJob {t : Task} {i : Nat} (hmem : t.mem = some i) (env : Env) (status : Byte) (result : Word) (more : Bool)
    (j : Nat) (d : Dev) :
    memberAt (endJob env t status result more d) t.ref j = (memberAt d t.ref j).map (fun m =>
      if j = i then { m with job := { t.job with reserved := 0 }, verdict := some (status, result) } else m) := by
  unfold endJob
  simp only [hmem]
  rw [memberAt_of_mea (releaseSlots_mea ..), show t.eng = t.ref.eng from rfl, show t.ctx = t.ref.ctx from rfl,
    memberAt_updTask, memberAt_updMember]
  · rfl
  · exact fun _ => rfl
  · exact fun _ => rfl

/-! ### Releasing locks moves slots and changes no key (R157, R222) -/

/-- What a slot of the directory says beside its locks. -/
def slotKept (x : Slot) : Bool × List Byte × Byte × W32 × Option Obj := (x.live, x.key, x.ksid, x.version, x.obj)

/-- Every slot of `u` says what some slot of `t` says. -/
def SlotsFrom (t u : Tbl Slot) : Prop := ∀ q ∈ u, ∃ y ∈ t, slotKept y.2 = slotKept q.2

theorem SlotsFrom.refl (t : Tbl Slot) : SlotsFrom t t := fun q hq => ⟨q, hq, rfl⟩

theorem SlotsFrom.trans {t u v : Tbl Slot} (h : SlotsFrom t u) (h' : SlotsFrom u v) : SlotsFrom t v := by
  intro q hq
  obtain ⟨y, hy, hsame⟩ := h' q hq
  obtain ⟨z, hz, hsame'⟩ := h y hy
  exact ⟨z, hz, hsame'.trans hsame⟩

theorem mem_tblSet {α : Type} {t : Tbl α} {k : Nat} {v : α} {q : Nat × α} (h : q ∈ tblSet t k v) : q = (k, v) ∨ q ∈ t := by
  induction t with
  | nil => exact .inl (by simpa [tblSet] using h)
  | cons e t ih =>
    unfold tblSet at h
    split at h
    · simpa using h
    · split at h
      · rcases List.mem_cons.mp h with h | h
        · exact .inl h
        · exact .inr (List.mem_cons_of_mem _ h)
      · rcases List.mem_cons.mp h with h | h
        · exact .inr (h ▸ List.mem_cons_self ..)
        · exact (ih h).imp_right (List.mem_cons_of_mem _)

theorem mem_of_tblGet {α : Type} {t : Tbl α} {k : Nat} {v : α} (h : tblGet t k = some v) : (k, v) ∈ t := by
  induction t with
  | nil => cases h
  | cons e t ih =>
    unfold tblGet at h
    split at h
    · next hk => cases h; simp [← hk]
    · exact List.mem_cons_of_mem _ (ih h)

theorem slotsFrom_erase (t : Tbl Slot) (k : Nat) : SlotsFrom t (tblErase t k) :=
  fun q hq => ⟨q, (List.mem_filter.mp hq).1, rfl⟩

/-- A slot moved to another index. -/
theorem slotsFrom_move {t : Tbl Slot} {m : Nat} {s : Slot} (h : (m, s) ∈ t) (f : Nat) :
    SlotsFrom t (tblSet (tblErase t m) f s) := by
  intro q hq
  rcases mem_tblSet hq with rfl | hq
  · exact ⟨(m, s), h, rfl⟩
  · exact slotsFrom_erase t m q hq

theorem mem_of_shiftFrom {t : Tbl Slot} {free n i m : Nat} {s : Slot} (h : shiftFrom t free n i = some (m, s)) : (m, s) ∈ t := by
  induction n generalizing i with
  | zero => cases h
  | succ n ih =>
    unfold shiftFrom at h
    dsimp only at h
    split at h
    · cases h
    · next hget =>
      split at h
      · cases h; exact mem_of_tblGet hget
      · exact ih h

theorem slotsFrom_shiftBack (t : Tbl Slot) (n free : Nat) : SlotsFrom t (shiftBack n free t).1 := by
  induction n generalizing free t with
  | zero => exact .refl t
  | succ n ih =>
    unfold shiftBack
    split
    · exact .refl t
    · next m s hfrom => exact (slotsFrom_move (mem_of_shiftFrom hfrom) free).trans (ih _ m)

theorem slotsFrom_shiftLate (t : Tbl Slot) (n : Nat) : SlotsFrom t (shiftLate n t).1 := by
  induction n generalizing t with
  | zero => exact .refl t
  | succ n ih =>
    unfold shiftLate
    split
    · exact .refl t
    · next m f s hsome =>
      obtain ⟨x, hx, hmove⟩ := List.exists_of_findSome?_eq_some hsome
      rw [Option.ite_none_right_eq_some, Option.map_eq_some_iff] at hmove
      obtain ⟨-, _, -, heq⟩ := hmove
      cases heq
      exact (slotsFrom_move hx f).trans (ih _)

theorem slotsFrom_eraseSlots (p : Slot → Bool) (n : Nat) (d : Dev) : SlotsFrom d.kdr.slots (eraseSlots p n d).kdr.slots := by
  induction n generalizing d with
  | zero => exact .refl _
  | succ n ih =>
    unfold eraseSlots
    split
    · exact ((slotsFrom_erase _ _).trans (slotsFrom_shiftBack _ _ _)).trans (ih _)
    · exact .refl _

theorem slotsFrom_release (o : Owner) (t : Tbl Slot) : SlotsFrom t (t.map (fun x => (x.1, x.2.release o))) := by
  intro q hq
  obtain ⟨y, hy, rfl⟩ := List.mem_map.mp hq
  exact ⟨y, hy, rfl⟩

/-- A release leaves every slot it keeps as it was but for its locks. -/
theorem slotsFrom_releaseSlots (o : Owner) (d : Dev) : SlotsFrom d.kdr.slots (releaseSlots o d).kdr.slots :=
  (slotsFrom_release o d.kdr.slots).trans ((slotsFrom_eraseSlots _ _ _).trans (slotsFrom_shiftLate _ _))

theorem slotsFrom_endJob {t : Task} {i : Nat} (hmem : t.mem = some i) (env : Env) (status : Byte) (result : Word) (more : Bool)
    (d : Dev) : SlotsFrom d.kdr.slots (endJob env t status result more d).kdr.slots := by
  unfold endJob
  simp only [hmem]
  exact slotsFrom_releaseSlots _ _

/-! ### A group that fails (R166) -/

/-- The outcome of member `j` of a group that fails: its own verdict, or SC_ABORTED_HOST. -/
def failVerdict (vs : List (Nat × Verdict)) (j : Nat) : Verdict :=
  match vs.find? (fun y => y.1 == j) with | some y => y.2 | none => (scAbortedHost, 0)

/-- One member of a group that fails ends. -/
def failMember (env : Env) (t : Task) (vs : List (Nat × Verdict)) (d : Dev) (x : Member × Nat) : Dev :=
  if !x.1.group || x.1.verdict.isSome then d
  else dropPortions x.1.job.heldIds
    (endJob env (memberTask t x.2 x.1) (failVerdict vs x.2).1 (failVerdict vs x.2).2 false d)

theorem failGroup_eq {d : Dev} {r : TaskRef} {t : Task} (h : taskOf d r = some t) (env : Env) (vs : List (Nat × Verdict)) :
    failGroup env r vs d = t.members.zipIdx.foldl (failMember env t vs) d := by
  unfold failGroup
  rw [h]
  rfl

section
variable (env : Env) (t : Task) (vs : List (Nat × Verdict))

theorem slotsFrom_failMember (x : Member × Nat) (d : Dev) : SlotsFrom d.kdr.slots (failMember env t vs d x).kdr.slots := by
  unfold failMember
  split
  · exact .refl _
  · exact slotsFrom_endJob (t := memberTask t x.2 x.1) rfl env _ _ false d

theorem slotsFrom_failMembers (xs : List (Member × Nat)) (d : Dev) :
    SlotsFrom d.kdr.slots (xs.foldl (failMember env t vs) d).kdr.slots := by
  induction xs generalizing d with
  | nil => exact .refl _
  | cons x xs ih => exact (slotsFrom_failMember env t vs x d).trans (ih _)

theorem memberAt_failMember (m : Member) (i j : Nat) (d : Dev) (hopen : ¬ (!m.group || m.verdict.isSome) = true) :
    memberAt (failMember env t vs d (m, i)) t.ref j = (memberAt d t.ref j).map (fun m' =>
      if j = i then { m' with job := { m.job with reserved := 0 }, verdict := some (failVerdict vs i) } else m') := by
  rw [failMember, if_neg hopen]
  exact memberAt_endJob (t := memberTask t i m) rfl env _ _ false j d

/-- The end of other members leaves a member. -/
theorem memberAt_failMember_ne {x : Member × Nat} {j : Nat} (hne : x.2 ≠ j) (d : Dev) :
    memberAt (failMember env t vs d x) t.ref j = memberAt d t.ref j := by
  by_cases hstays : (!x.1.group || x.1.verdict.isSome) = true
  · rw [failMember, if_pos hstays]
  · rw [memberAt_failMember env t vs x.1 x.2 j d hstays]
    simp [Ne.symm hne]

theorem memberAt_failMembers_ne {xs : List (Member × Nat)} {j : Nat} (hne : ∀ x ∈ xs, x.2 ≠ j) (d : Dev) :
    memberAt (xs.foldl (failMember env t vs) d) t.ref j = memberAt d t.ref j := by
  induction xs generalizing d with
  | nil => rfl
  | cons x xs ih =>
    rw [List.foldl_cons, ih (fun y hy => hne y (List.mem_cons_of_mem _ hy)),
      memberAt_failMember_ne env t vs (hne x (List.mem_cons_self ..))]

/-- An index occurs once among the indices of a list. -/
theorem zipIdx_split {α : Type} {l : List α} {j : Nat} {m : α} (h : l[j]? = some m) :
    ∃ xs ys, l.zipIdx = xs ++ (m, j) :: ys ∧ (∀ x ∈ xs, x.2 ≠ j) ∧ ∀ y ∈ ys, y.2 ≠ j := by
  obtain ⟨hj, rfl⟩ := List.getElem?_eq_some_iff.mp h
  refine ⟨(l.take j).zipIdx, (l.drop (j + 1)).zipIdx (j + 1), ?_, fun x hx => ?_, fun y hy => ?_⟩
  · conv_lhs => rw [← List.take_append_drop j l, List.drop_eq_getElem_cons hj]
    rw [List.zipIdx_append, List.zipIdx_cons, List.length_take, Nat.min_eq_left (Nat.le_of_lt hj)]
    simp
  · have := List.snd_lt_of_mem_zipIdx hx
    simp only [List.length_take] at this
    omega
  · have := List.le_snd_of_mem_zipIdx hy
    omega

end

/-- Every open member of a group that fails has its outcome. -/
theorem memberAt_failGroup {d : Dev} {t : Task} {j : Nat} {m : Member} (h : taskOf d t.ref = some t)
    (hmem : t.members[j]? = some m) (hgroup : m.group = true) (hopen : m.verdict = none) (env : Env) (vs : List (Nat × Verdict)) :
    ∃ m', memberAt (failGroup env t.ref vs d) t.ref j = some m' ∧ m'.verdict = some (failVerdict vs j) := by
  obtain ⟨xs, ys, hsplit, hxs, hys⟩ := zipIdx_split hmem
  have hat : memberAt d t.ref j = some m := by rw [memberAt, h]; exact hmem
  rw [failGroup_eq h, hsplit, List.foldl_append, List.foldl_cons, memberAt_failMembers_ne env t vs hys,
    memberAt_failMember _ _ _ _ _ _ _ (by simp [hgroup, hopen]), memberAt_failMembers_ne env t vs hxs, hat]
  simp

/-! ### The array of a BATCH, and a member without GROUP (R164, R165) -/

theorem membersOf_length (env : Env) (t : Task) (bs : List Byte) (ins : List MemberIn) (n i : Nat) (d : Dev) :
    (membersOf env t bs ins n i d).1.length = n := by
  induction n generalizing i d with
  | zero => rfl
  | succ n ih => simp [membersOf, ih]

/-- A BATCH without members reads its array and goes on with them. -/
theorem batch_reads {s : State} {r : TaskRef} {t : Task} {value : Rd} {bs : List Byte} (h : serving s.dev r 0x0E = some t)
    (hnone : t.members = []) (hdata : fetchData s.dev t (64 * capOpts t.capsule) value = .data bs) (ins : List MemberIn)
    (f : Fetch) :
    let ms := membersOf s.env t bs ins (capOpts t.capsule) 0 (copied t bs.length s.dev)
    NextDev (.batch r value ins f) s (runBatch s.env t.ref ins f (putTask { t with members := judgeGroup ms.1 } ms.2)) := by
  intro ms
  change execBatch r value ins f s = _
  exact serve_next h (by simp only [hnone, List.isEmpty_nil, Bool.not_true, Bool.false_eq_true, ↓reduceIte, hdata]; rfl)

/-- A BATCH whose array cannot be read (R164). -/
theorem batch_readFails {s : State} {r : TaskRef} {t : Task} {value : Rd} {code : Byte} (h : serving s.dev r 0x0E = some t)
    (hnone : t.members = []) (hdata : fetchData s.dev t (64 * capOpts t.capsule) value = .fail code) (ins : List MemberIn)
    (f : Fetch) :
    NextDev (.batch r value ins f) s (endJob s.env t scAbortedHost 0 false (bufferFail s.env t code s.dev)) := by
  change execBatch r value ins f s = _
  exact serve_next h (by simp only [hnone, List.isEmpty_nil, Bool.not_true, Bool.false_eq_true, ↓reduceIte, hdata])

/-- A BATCH that has its members goes on with them. -/
theorem batch_continues {s : State} {r : TaskRef} {t : Task} (h : serving s.dev r 0x0E = some t) (hsome : t.members ≠ [])
    (value : Rd) (ins : List MemberIn) (f : Fetch) :
    NextDev (.batch r value ins f) s (runBatch s.env t.ref ins f s.dev) := by
  have hfull : (!t.members.isEmpty) = true := by simpa using hsome
  change execBatch r value ins f s = _
  exact serve_next h (by simp only [hfull, ↓reduceIte])

/-- A member without GROUP that has asked for its lock goes on as the command it is. -/
theorem stepMember_command {env : Env} {r : TaskRef} {ins : List MemberIn} {j : Nat} {d : Dev} {t : Task} {m : Member}
    (h : taskOf d r = some t) (hmem : t.members[j]? = some m) (hgroup : m.group = false) (hopen : m.verdict = none)
    (hasked : m.asked = true) (hgate : quarantineMember d t m = none) (hop : capOpc m.capsule ≠ 0x04) :
    stepMember env r ins j d = if isRead (capOpc m.capsule)
      then runRead env (memberTask t j m) (inAt ins j).fetch (inAt ins j).ends d
      else runWrite env (memberTask t j m) (inAt ins j).value d := by
  have hcommand : commandOf d r (some j) = some (memberTask t j m) := by simp [commandOf, h, hmem, hopen]
  unfold stepMember
  simp only [h, hmem, hgroup, hopen, hgate, hasked, hcommand, hop, Option.isSome_none, Bool.or_self, Bool.false_eq_true,
    ↓reduceIte, Bool.not_true, Bool.false_and, decide_false, Bool.or_false]

/-! ### A BATCH whose members have all ended (R167) -/

theorem mem_insertGroup {x y : Nat × Member} {xs : List (Nat × Member)} (hy : y ∈ insertGroup x xs) : y = x ∨ y ∈ xs := by
  induction xs with
  | nil => simpa [insertGroup] using hy
  | cons z xs ih =>
    unfold insertGroup at hy
    split at hy
    · simpa using hy
    · rcases List.mem_cons.mp hy with rfl | hy
      · simp
      · exact (ih hy).imp_right (List.mem_cons_of_mem _)

theorem mem_of_foldr_insertGroup {y : Nat × Member} {xs : List (Nat × Member)} (hy : y ∈ xs.foldr insertGroup []) : y ∈ xs := by
  induction xs with
  | nil => exact hy
  | cons x xs ih =>
    rcases mem_insertGroup hy with rfl | hy
    · exact List.mem_cons_self ..
    · exact List.mem_cons_of_mem _ (ih hy)

theorem mem_of_groupOrder {ms : List Member} {y : Nat × Member} (hy : y ∈ groupOrder ms) : y.2 ∈ ms := by
  obtain ⟨x, hx, rfl⟩ := List.mem_map.mp (mem_of_foldr_insertGroup hy)
  exact List.fst_mem_of_mem_zipIdx (List.mem_filter.mp hx).1

section
variable {env : Env} {r : TaskRef} {ins : List MemberIn} {d : Dev} {t : Task} (h : taskOf d r = some t)
  (hended : ∀ m ∈ t.members, m.verdict.isSome = true)
include h hended

theorem stepMember_ended (i : Nat) : stepMember env r ins i d = d := by
  unfold stepMember
  rw [h]
  dsimp only
  cases hget : t.members[i]? with
  | none => rfl
  | some m => simp [hended m (List.mem_of_getElem? hget)]

omit h in
theorem groupNext_ended {xs : List (Nat × Member)} (hxs : ∀ x ∈ xs, x.2 ∈ t.members) : groupNext d t xs = none := by
  induction xs with
  | nil => rfl
  | cons x xs ih =>
    rw [groupNext, if_pos (hended _ (hxs x (List.mem_cons_self ..)))]
    exact ih fun y hy => hxs y (List.mem_cons_of_mem _ hy)

theorem lockGroup_ended (n : Nat) : lockGroup env r n d = d := by
  cases n with
  | zero => rfl
  | succ n =>
    rw [lockGroup, h]
    dsimp only
    rw [groupNext_ended hended fun _ => mem_of_groupOrder]

theorem stepGroup_ended : stepGroup env r ins d = d := by
  have hnone : t.members.filter (fun m => m.group && m.verdict.isNone) = [] := by
    rw [List.filter_eq_nil_iff]
    intro m hm
    have := hended m hm
    simp only [Option.isSome_iff_ne_none] at this
    simp [this]
  unfold stepGroup
  rw [lockGroup_ended h hended]
  dsimp only
  rw [h]
  dsimp only
  rw [hnone]
  rfl

theorem runBatch_ended (f : Fetch) : runBatch env r ins f d = endBatch env t f d := by
  have hsteps (is : List Nat) : is.foldl (fun d i => stepMember env r ins i d) d = d := by
    induction is with
    | nil => rfl
    | cons i is ih => rw [List.foldl_cons, stepMember_ended h hended, ih]
  unfold runBatch
  simp only [hsteps, stepGroup_ended h hended, h]
  rw [if_pos (List.all_eq_true.mpr hended)]

end

theorem endBatch_ok {t : Task} {d : Dev} (hkind : t.kind = .host) (hissues : d.hqe.issues = true) (env : Env) :
    endBatch env t .ok d = endJob env t (batchVerdict t.members).1 (batchVerdict t.members).2 false
      (copied t (resultArray t.members).length
        (hostWrite [(capOff t.capsule, (resultArray t.members).length)] 0 (resultArray t.members) d)) := by
  unfold endBatch
  simp [hkind, hissues]

theorem endBatch_hostFail {t : Task} {d : Dev} (hkind : t.kind = .host) (hissues : d.hqe.issues = true) (env : Env)
    (e : HostErr) :
    endBatch env t (.hostFail e) d = endJob env t scAbortedHost 0 false (bufferFail env t (errCode e) d) := by
  unfold endBatch
  simp [hkind, hissues]

/-- A BATCH all of whose members succeeded succeeds. -/
theorem batchVerdict_ok {ms : List Member} (h : ∀ m ∈ ms, m.verdict.map (·.1) = some scOk) : (batchVerdict ms).1 = scOk := by
  have hnone : ms.zipIdx.find? (fun x => x.1.verdict.map (·.1) != some scOk) = none := by
    rw [List.find?_eq_none]
    intro x hx
    simp [h x.1 (List.fst_mem_of_mem_zipIdx hx)]
  unfold batchVerdict
  simp only [hnone]

/-- Settles O39: FRAME_PUT from its admission to the commit or the failure of its tiles, and the BATCH by its stages. -/
theorem framesAndBatches : Obligations.FramesAndBatches := by
  intro s r value n a lane j px1 px2 t x h ins bs data m code tiles f c ver keep
  refine ⟨?frames, ?reads, ?member, ?group, ?ends⟩
  case frames =>
    intro hserve hphase htotal hlock hslot hlim hroom hstage hvalue hrun
    refine ⟨fun hdur hgood => ?_, fun hlossy => ?_⟩
    · exact framePut_completes (framePut_next hserve hphase htotal hlock hlim hroom value tiles) hslot hvalue hstage hrun hdur
        (not_tileFails hgood)
    · obtain ⟨d, hbeside, heq⟩ := codeAndCommit_fails (env := s.env) (n := n) (tiles := (lane, .failed px1 px2) :: tiles)
        hvalue hstage hrun ⟨hlossy, px1, px2, rfl⟩
      have hnext := framePut_next hserve hphase htotal hlock hlim hroom value ((lane, .failed px1 px2) :: tiles)
      exact ⟨_, hnext, d, heq, congrArg Prod.fst hbeside, congrArg Prod.snd hbeside⟩
  case reads =>
    intro hserve hnone
    exact ⟨fun hdata => ⟨membersOf_length .., batch_reads hserve hnone hdata ins f⟩,
      fun hfail => batch_readFails hserve hnone hfail ins f⟩
  case member =>
    intro htask hmem hgroup hopen hasked hgate _
    refine ⟨fun hread hop => ?_, fun hread hop => ?_⟩
    · rw [stepMember_command htask hmem hgroup hopen hasked hgate hop, if_neg (by simp [hread])]
    · rw [stepMember_command htask hmem hgroup hopen hasked hgate hop, if_pos hread]
  case group =>
    rintro vs htask rfl
    refine ⟨fun q hq hlive => ?_, fun hmem hgroup hopen => ?_⟩
    · rw [failGroup_eq htask] at hq
      obtain ⟨y, hy, hsame⟩ := slotsFrom_failMembers s.env t vs _ _ q hq
      simp only [slotKept, Prod.mk.injEq] at hsame
      obtain ⟨hlive', hkey, hk, hver, hobj⟩ := hsame
      exact ⟨y, hy, hlive'.trans hlive, hkey, hk, hver, hobj⟩
    · obtain ⟨m', hat, hverdict⟩ := memberAt_failGroup htask hmem hgroup hopen s.env vs
      obtain ⟨t', htask', hmem'⟩ := Option.bind_eq_some_iff.mp hat
      exact ⟨t', m', htask', hmem', hverdict⟩
  case ends =>
    rintro hserve rfl hsome hall hkind hissues
    have hended := List.all_eq_true.mp hall
    have hnext (f : Fetch) : NextDev (.batch t.ref value ins f) s (endBatch s.env t f s.dev) :=
      nextDev_of_eq (batch_continues hserve hsome value ins f) (runBatch_ended (serving_taskOf hserve) hended f)
    exact ⟨nextDev_of_eq (hnext .ok) (endBatch_ok hkind hissues s.env),
      fun e => nextDev_of_eq (hnext (.hostFail e)) (endBatch_hostFail hkind hissues s.env e), batchVerdict_ok⟩

end Sys2Proof.Proofs
end

section
/-! The reconstructed pixel of each mode, and how far it lies from the pixel (06, R186–R194). -/

namespace Sys2Proof.Proofs

open Sys2Proof.Machine Sys2Proof.Claims Sys2Proof.Laws

/-! ### Distances -/

theorem gapOf_le_iff (v v' n : Nat) : gapOf v v' ≤ n ↔ v' ≤ v + n ∧ v ≤ v' + n := by
  unfold gapOf; omega

/-- The distance is the absolute difference, so its square is that of the difference. -/
theorem sq_sub_eq_gapOf (v v' : Nat) : ((v' : Int) - v) * ((v' : Int) - v) = (gapOf v v' * gapOf v v' : Nat) := by
  have habs : gapOf v v' = ((v' : Int) - v).natAbs := by unfold gapOf; omega
  rw [habs, Int.natAbs_mul_self]

/-! ### v′ in each mode (R186–R191) -/

theorem vmax_eq {ptype : Nat} (h : ptype ≤ 2) : vmax ptype = [255, 65535, 4294967295].getD ptype 0 := by
  interval_cases ptype <;> rfl

/-- Without FLOOR no pixel is floored. -/
theorem floored_plain {mode : Nat} (h : mode < 16) (ptype floorT v : Nat) : floored ptype mode floorT v = false := by
  simp [floored, Nat.div_eq_of_lt h]

/-- Under FLOOR the integer pixels up to FLOOR_T are. -/
theorem floored_floor {ptype mode : Nat} (htype : ptype ≠ 3) (h : mode < 16) (floorT v : Nat) :
    floored ptype (16 + mode) floorT v = decide (v ≤ floorT) := by
  have hbit : (16 + mode) / 16 = 1 := by omega
  simp [floored, htype, hbit]

section
variable {ptype : Nat} (param floorT v : Nat)

theorem recon_exact {mode : Nat} (h : mode ≤ 2) : recon ptype mode param floorT v = v := by
  rw [recon, floored_plain (by omega)]
  interval_cases mode <;> rfl

theorem recon_cal3 : recon ptype 3 param floorT v = min ((v + param) / (2 * param + 1) * (2 * param + 1)) (vmax ptype) := by
  rw [recon, floored_plain (by omega)]
  rfl

theorem recon_cal4 : recon ptype 4 param floorT v = min (binValue param v (v + 1) 0) (vmax ptype) := by
  rw [recon, floored_plain (by omega)]
  rfl

theorem recon_cal5 (htype : ptype ≠ 3) :
    recon ptype 5 param floorT v = v / 2 ^ param * 2 ^ param + 2 ^ (param - 1) := by
  rw [recon, floored_plain (by omega)]
  simp [htype]

/-- FLOOR gives 0 for a floored pixel and leaves every other to its mode. -/
theorem recon_floor {mode : Nat} (htype : ptype ≠ 3) (h : mode < 16) :
    recon ptype (16 + mode) param floorT v = if v ≤ floorT then 0 else recon ptype mode param floorT v := by
  unfold recon
  rw [floored_floor htype h, floored_plain h, Nat.add_mod_left]
  simp

end

/-! ### CAL5 (R189) -/

/-- The middle of the 2^m values that share v's upper bits, as shifts give it. -/
theorem cal5_shifts {m : Nat} (hm : 1 ≤ m) (v : Nat) :
    v / 2 ^ m * 2 ^ m + 2 ^ (m - 1) = (v >>> m <<< m ||| 1 <<< (m - 1)) := by
  have hlt : 2 ^ (m - 1) < 2 ^ m := Nat.pow_lt_pow_right (by omega) (by omega)
  rw [Nat.shiftRight_eq_div_pow, Nat.one_shiftLeft, ← Nat.shiftLeft_add_eq_or_of_lt hlt, Nat.shiftLeft_eq]

/-- Bits below the width of the type do not pass its top. -/
theorem cal5_le_vmax {ptype m v : Nat} (hm : 1 ≤ m) (hwidth : m < 8 * bpp ptype) (hv : v ≤ vmax ptype) :
    v / 2 ^ m * 2 ^ m + 2 ^ (m - 1) ≤ vmax ptype := by
  have hlt : 2 ^ (m - 1) < 2 ^ m := Nat.pow_lt_pow_right (by omega) (by omega)
  have hsplit : 2 ^ (8 * bpp ptype) = 2 ^ (8 * bpp ptype - m) * 2 ^ m := by rw [← Nat.pow_add, Nat.sub_add_cancel hwidth.le]
  have hupper : v / 2 ^ m < 2 ^ (8 * bpp ptype - m) := by
    have hpos := Nat.two_pow_pos (8 * bpp ptype)
    rw [Nat.div_lt_iff_lt_mul (Nat.two_pow_pos m), ← hsplit]
    unfold vmax at hv
    omega
  have hnext : (v / 2 ^ m + 1) * 2 ^ m ≤ 2 ^ (8 * bpp ptype) := hsplit ▸ Nat.mul_le_mul_right _ hupper
  rw [Nat.succ_mul] at hnext
  unfold vmax
  omega

/-! ### The statement -/

/-- Settles O23, mode by mode: each bound is that of the mode's distance, cut off at the top of the type. -/
theorem calenderBounds : Obligations.CalenderBounds := by
  intro ptype v e m floorT mode top hptype hv
  have htype : ptype ≠ 3 := by omega
  have htop : vmax ptype = top := vmax_eq hptype
  refine ⟨recon_exact e floorT v, fun _ _ => ?cal3, fun _ _ => ?cal4, fun hm hwidth => ?cal5,
    fun _ _ => recon_floor e floorT v htype (by omega)⟩
  case cal3 =>
    rw [recon_cal3, htop]
    exact ⟨rfl, (gapOf_le_iff ..).mp ((gapOf_min_le hv _).trans (gapOf_cal3 e v))⟩
  case cal4 =>
    have hgap := gapOf_min_le hv (binValue e v (v + 1) 0)
    rw [recon_cal4, htop]
    dsimp only
    rw [mul_assoc 16384, sq_sub_eq_gapOf]
    exact ⟨Nat.min_le_right .., mod_cast (Nat.mul_le_mul_left _ (Nat.mul_le_mul hgap hgap)).trans (gapOf_cal4 e v)⟩
  case cal5 =>
    have hle := (gapOf_le_iff ..).mp (gapOf_cal5 m v)
    rw [recon_cal5 m floorT v htype]
    exact ⟨cal5_shifts hm v, hle.1, hle.2, htop ▸ cal5_le_vmax hm hwidth (htop ▸ hv), fun hzero => by simp [hzero]⟩

end Sys2Proof.Proofs
end

section
/-! The posts to the calender (06, R193–R196, R200–R202), and which staging request is granted (R203). -/

namespace Sys2Proof.Proofs

open Sys2Proof.Machine Sys2Proof.Claims Sys2Proof.Laws

/-- A unit that finds the post it takes up does with it what its kind says. -/
theorem unitStep_next {s : State} {p : PostRef} {unit : BitVec 4} {pf : BitVec 6} {t : Task} {x : Post}
    (h : postOf s.dev p unit pf = some (t, x)) (f : Env → Task → Post → Dev → Dev) :
    unitStep p unit pf f s = .next { s with dev := f s.env t x s.dev } := by
  rw [unitStep, onDev_next, h]

/-! ### Coded forms (R193) -/

/-- A coded form is no longer than the raw data. -/
theorem codedForm_length_le (mode : Nat) (raw : List Byte) (d : Dev) : (codedForm mode raw d).1.length ≤ raw.length := by
  unfold codedForm
  dsimp only
  split
  · exact le_rfl
  · next hshort =>
    have hlt : (takeFree d).1.toNat % 2 ^ 32 < raw.length := by
      simp only [heldRaw, Bool.or_eq_true, decide_eq_true_eq, not_or, Nat.not_le] at hshort
      exact hshort.2
    simpa [takeFreeBytes] using hlt.le

/-- Under RAW it is the raw data. -/
theorem codedForm_raw (mode : Nat) (raw : List Byte) (d : Dev) (h : (codedForm mode raw d).2.1 = true) :
    (codedForm mode raw d).1 = raw := by
  unfold codedForm at h ⊢
  dsimp only at h ⊢
  split at h
  · next hraw => rw [if_pos hraw]
  · cases h

/-! ### What a verify leaves of the tasks and of the count of tiles (R204) -/

theorem mea_of_besideCal {d e : Dev} (h : besideCal e = besideCal d) : e.mea = d.mea := congrArg Prod.snd h

@[simp] theorem charge_cal (c units : Nat) (d : Dev) : (charge c units d).cal = d.cal := by
  obtain ⟨_, h⟩ := charge_changes c units d
  rw [h]

@[simp] theorem chargeCodings_cal (bytes n : Nat) (d : Dev) : (chargeCodings bytes n d).cal = d.cal := by
  induction n generalizing d with
  | zero => rfl
  | succ n ih => simp [chargeCodings, ih, chargeEncode]

@[simp] theorem verifyFailed_tiles (env : Env) (lane mode ptype param pixel : Nat) (d : Dev) :
    (verifyFailed env lane mode ptype param pixel d).cal.tiles = d.cal.tiles := by
  simp [verifyFailed]

@[simp] theorem retryLane_cal (lane : Nat) (d : Dev) : (retryLane lane d).2.cal = d.cal := by
  unfold retryLane
  dsimp only
  split <;> rfl

@[simp] theorem verifyLossy_tiles (env : Env) (v : Verify) (lane mode ptype param ksid hash : Nat) (d : Dev) :
    (verifyLossy env v lane mode ptype param ksid hash d).2.cal.tiles = d.cal.tiles := by
  cases v <;> simp [verifyLossy]

/-! ### Encoding (R194–R196, R201, R202) -/

/-- The pixels of a capsule's tile. -/
def postPixels (t : Task) (c : V512) (d : Dev) : List Nat :=
  let line := cap c 2 2 * bpp (cap c 1 1)
  pixelsOf (bpp (cap c 1 1)) (bitOf c 48) (cap c 2 2 * cap c 4 2)
    (readLines t d (cap c 8 8) line (if cap c 16 4 = 0 then line else cap c 16 4) (cap c 4 2))

/-- Their reconstruction. -/
def postRecon (c : V512) (v : List Nat) : List Nat := v.map (recon (cap c 1 1) (cap c 0 1) (cap c 20 4) (cap c 24 4))

/-- The first of them that fails its test. -/
def postUnmet (c : V512) (v : List Nat) : Option Nat :=
  firstUnmet (cap c 1 1) (cap c 0 1) (cap c 20 4) (cap c 24 4) v (postRecon c v)

/-- The raw data of their tile. -/
def postRaw (c : V512) (v : List Nat) : List Byte := pixelBytes (cap c 1 1) (postRecon c v)

/-- An encode post completes with a coded form: its length, RAW and whether v′ is v (R202). -/
def encodeStore (p : PostRef) (t : Task) (c : V512) (same : Bool) (f : List Byte × Bool × Dev) : Dev :=
  finishPost p 0 (BitVec.ofNat 64 (f.1.length + (if f.2.1 then 2 ^ 32 else 0) + (if same then 2 ^ 33 else 0)))
    (countTiles 1 (if f.2.1 then 1 else 0) (storeFor t (cap c 32 8) f.1 f.2.2))

/-- A second failure the lanes report, or a pixel that fails its test, is a failure of the tile. -/
theorem verdict_failed {how : Verify} {unmet : Option Nat} {a b : Nat} (h : how = .failed a b ∨ unmet.isSome = true) :
    ∃ k l, verdict how unmet = .failed k l := by
  cases unmet with
  | none => exact ⟨a, b, h.resolve_right (by simp)⟩
  | some px => exact ⟨px, px, rfl⟩

theorem encodeResult_eq (n : Nat) (raw same : Bool) :
    encodeResult n raw same = BitVec.ofNat 64 (n + (if raw then 2 ^ 32 else 0) + (if same then 2 ^ 33 else 0)) := by
  simp [encodeResult, b2n]

theorem chargeCodings_one (bytes : Nat) (d : Dev) : chargeCodings bytes 1 d = chargeEncode bytes d := rfl

section
variable {s : State} {p : PostRef} {t : Task} {x : Post} {lane : Nat} (hlane : laneOn s.dev lane = true)
include hlane

section
variable (h : postOf s.dev p 1 0 = some (t, x))
include h

/-- A lossy tile is coded once more after an attempt that failed, and completes as its verify says. -/
theorem encodeTile_lossy (hlossy : lossy (cap x.desc 0 1) = true) (how : Verify) :
    let v := postPixels t x.desc s.dev
    let seen := verdict how (postUnmet x.desc v)
    let r := verifyLossy s.env seen lane (cap x.desc 0 1) (cap x.desc 1 1) (cap x.desc 20 4) (capKsid t.capsule) (taskHash t) s.dev
    let d := chargeCodings (postRaw x.desc v).length (codings seen) r.2
    NextDev (.encodeTile p lane how) s (if !r.1 then finishPost p 0x13 0 d
      else encodeStore p t x.desc (v == postRecon x.desc v) (codedForm (cap x.desc 0 1) (postRaw x.desc v) d)) := by
  change execEncodeTile p lane how s = _
  rw [execEncodeTile, unitStep_next h]
  simp only [hlane, hlossy, encodeResult_eq, Bool.not_true, Bool.false_eq_true, Bool.false_and, ↓reduceIte]
  rfl

/-- A lossless tile is coded once, whatever its verify finds. -/
theorem encodeTile_lossless (hlossy : lossy (cap x.desc 0 1) = false) (how : Verify) :
    let v := postPixels t x.desc s.dev
    let raw := postRaw x.desc v
    NextDev (.encodeTile p lane how) s (encodeStore p t x.desc (v == postRecon x.desc v)
      (if fallsBack s.dev how then
        (raw, true, chargeEncode raw.length (losslessFallback s.env lane (cap x.desc 0 1) (cap x.desc 1 1) s.dev))
      else codedForm (cap x.desc 0 1) raw (chargeEncode raw.length s.dev))) := by
  change execEncodeTile p lane how s = _
  rw [execEncodeTile, unitStep_next h]
  cases fallsBack s.dev how
  all_goals
    simp only [hlane, hlossy, encodeResult_eq, chargeCodings_one, Bool.not_true, Bool.not_false, Bool.false_eq_true,
      Bool.true_and, ↓reduceIte]
    rfl

/-- A tile the lanes report no failure of stores its coded form. -/
theorem encodeTile_passes (hunmet : lossy (cap x.desc 0 1) = true → postUnmet x.desc (postPixels t x.desc s.dev) = none) :
    let v := postPixels t x.desc s.dev
    let raw := postRaw x.desc v
    NextDev (.encodeTile p lane .pass) s (encodeStore p t x.desc (v == postRecon x.desc v)
      (codedForm (cap x.desc 0 1) raw (chargeEncode raw.length s.dev))) := by
  cases hlossy : lossy (cap x.desc 0 1) with
  | true =>
    have hnext := encodeTile_lossy hlane h hlossy .pass
    simp only [hunmet hlossy] at hnext
    exact hnext
  | false =>
    refine nextDev_of_eq (encodeTile_lossless hlane h hlossy .pass) (congrArg _ (if_neg ?_))
    simp [fallsBack]

/-- A lossy tile whose second verify fails, or whose v′ fails its test, completes with 0x13 and is not counted as coded. -/
theorem encodeTile_fails (hlossy : lossy (cap x.desc 0 1) = true) {how : Verify} {a b : Nat}
    (hfail : how = .failed a b ∨ (postUnmet x.desc (postPixels t x.desc s.dev)).isSome = true) :
    ∃ d, NextDev (.encodeTile p lane how) s (finishPost p 0x13 0 d) ∧ d.mea = s.dev.mea ∧ d.cal.tiles = s.dev.cal.tiles := by
  obtain ⟨k, l, hseen⟩ := verdict_failed hfail
  have hnext := encodeTile_lossy hlane h hlossy how
  simp only [hseen] at hnext
  exact ⟨_, hnext, mea_of_besideCal (by simp), by simp⟩

/-- A lossless tile that fails its verify under VERIFY_LOSSLESS is held uncoded, and the failure reported. -/
theorem encodeTile_fallsBack (hlossy : lossy (cap x.desc 0 1) = false) (hctrl : bitOf s.dev.cal.ctrl 0 = true) (px : Nat) :
    let v := postPixels t x.desc s.dev
    let raw := postRaw x.desc v
    NextDev (.encodeTile p lane (.retried px)) s (encodeStore p t x.desc (v == postRecon x.desc v)
      (raw, true, chargeEncode raw.length (losslessFallback s.env lane (cap x.desc 0 1) (cap x.desc 1 1) s.dev))) := by
  have hback : fallsBack s.dev (.retried px) = true := by simp [fallsBack, verifyLossless, hctrl]
  exact nextDev_of_eq (encodeTile_lossless hlane h hlossy (.retried px)) (congrArg _ (if_pos hback))

end

/-- ENCODE_BYTES stores the coded form of its piece, which is exact. -/
theorem encodeBytes_next (h : postOf s.dev p 1 2 = some (t, x)) :
    let piece := readFor t s.dev (cap x.desc 8 8) (cap x.desc 16 4)
    NextDev (.encodeBytes p lane) s (encodeStore p t x.desc true (codedForm 1 piece (chargeEncode piece.length s.dev))) := by
  change execEncodeBytes p lane s = _
  rw [execEncodeBytes, unitStep_next h]
  simp only [hlane, encodeResult_eq, Bool.not_true, Bool.false_eq_true, ↓reduceIte]
  rfl

/-! ### Decoding (R201, R202) -/

theorem decodeTile_next (h : postOf s.dev p 1 1 = some (t, x)) (good : Bool) :
    let line := cap x.desc 2 2 * bpp (cap x.desc 1 1)
    let n := cap x.desc 2 2 * cap x.desc 4 2 * bpp (cap x.desc 1 1)
    let dec := decodedForm n (readFor t s.dev (cap x.desc 8 8) (cap x.desc 16 4)) s.dev
    NextDev (.decodeTile p lane good) s (if good then
        finishPost p 0 (BitVec.ofNat 64 n) (chargeDecode n (writeLines t (cap x.desc 32 8) line
          (if cap x.desc 40 4 = 0 then line else cap x.desc 40 4) (cap x.desc 4 2) dec.1 dec.2))
      else unitDecodeError s.env p t lane s.dev) := by
  change execDecodeTile p lane good s = _
  rw [execDecodeTile, unitStep_next h]
  cases good <;> simp only [hlane, Bool.not_true, Bool.not_false, Bool.false_eq_true, ↓reduceIte]

theorem decodeBytes_next (h : postOf s.dev p 1 3 = some (t, x)) (good : Bool) :
    let out := decodedPiece (cap x.desc 28 4) (readFor t s.dev (cap x.desc 8 8) (cap x.desc 16 4)) s.dev
    NextDev (.decodeBytes p lane good) s (if good then
        finishPost p 0 (BitVec.ofNat 64 out.1.length) (chargeDecode out.1.length (storeFor t (cap x.desc 32 8) out.1 out.2))
      else unitDecodeError s.env p t lane s.dev) := by
  change execDecodeBytes p lane good s = _
  rw [execDecodeBytes, unitStep_next h]
  cases good <;> simp only [hlane, Bool.not_true, Bool.not_false, Bool.false_eq_true, ↓reduceIte]

end

/-! ### The staging pool (R203) -/

section
variable {s : State} {w : StageReq}

/-- The first calender request that waits is granted where it fits. -/
theorem stagingGrant_calender (hfirst : stageFirst s.dev false = some w) (hfits : stageFits s.dev false w.bytes = true) :
    NextDev .stagingGrant s (stageMark w s.dev) := by
  change execStagingGrant s = _
  simp only [execStagingGrant, onDev_next, hfirst, hfits, ↓reduceIte]

/-- Without one, the first ROI request is. -/
theorem stagingGrant_roi (hnone : stageFirst s.dev false = none) (hfirst : stageFirst s.dev true = some w)
    (hfits : stageFits s.dev true w.bytes = true) : NextDev .stagingGrant s (stageMark w s.dev) := by
  change execStagingGrant s = _
  simp only [execStagingGrant, onDev_next, hnone, hfirst, hfits, ↓reduceIte]

end

/-! ### The statement -/

/-- Settles O22, kind by kind: a lossy tile goes by its verify, a lossless one by VERIFY_LOSSLESS. -/
theorem calenderAndStaging : Obligations.CalenderAndStaging := by
  refine ⟨?posts, fun s w => ⟨stagingGrant_calender, stagingGrant_roi⟩⟩
  intro s p t x lane px1 px2 hlane
  refine ⟨fun h => ⟨?passes, ?length, ?raw, ?fails, ?falls⟩, fun h => ?bytes, fun h => ?tile, fun h => ?piece⟩
  case passes => exact encodeTile_passes hlane h
  case length => exact codedForm_length_le ..
  case raw => exact codedForm_raw _ _ _
  case fails =>
    intro hlossy how hfail
    obtain ⟨d, hnext, hmea, htiles⟩ := encodeTile_fails hlane h hlossy hfail
    exact ⟨_, hnext, d, rfl, hmea, htiles⟩
  case falls => exact fun hlossy hctrl => encodeTile_fallsBack hlane h hlossy hctrl px1
  case bytes => exact ⟨encodeBytes_next hlane h, codedForm_length_le ..⟩
  case tile => exact ⟨decodeTile_next hlane h true, decodeTile_next hlane h false⟩
  case piece => exact ⟨decodeBytes_next hlane h true, decodeBytes_next hlane h false⟩

end Sys2Proof.Proofs
end

section
/-! Relocation (07, R237–R240): who owns a ream, what each step of a relocation waits for, and what a REMAP renames. -/

namespace Sys2Proof.Proofs

open Sys2Proof.Machine Sys2Proof.Claims Sys2Proof.Laws

/-- A ream with an owner is not taken by another (R240). -/
theorem startMove_owned {d : Dev} {r : Nat} (h : owned d r = true) (env : Env) (o : ReamOwner) (cls : Nat)
    (dst : Option Nat) : startMove env r o cls dst d = d := if_pos h

/-! ### What a REMAP renames (R238) -/

/-- A lookup in a table whose entries are changed each by itself. -/
theorem tblGet_map {α β : Type} (f : α → β) (t : Tbl α) (k : Nat) :
    tblGet (t.map (fun e => (e.1, f e.2))) k = (tblGet t k).map f := by
  induction t with
  | nil => rfl
  | cons e t ih =>
    simp only [List.map_cons, tblGet, ih]
    split <;> rfl

/-- Where data lies, after its sheet `p` has become `q`. -/
def locRenamed (p q : Nat) (l : Loc) : Loc := if l = .psa p then .psa q else l

/-- The maps of an object after that. -/
def objRenamed (p q : Nat) (o : Obj) : Obj :=
  { o with map := o.map.map (fun e => (e.1, locRenamed p q e.2)),
           coded := o.coded.map (fun c => { c with loc := locRenamed p q c.loc }) }

/-- A RECORD after that. -/
def recordRenamed (p q : Nat) (r : Word) : Word :=
  if !bitOf r 63 && r != 0 && r.toNat % 2 ^ 40 == p then setFld r 0 40 q else r

/-- A slot after that. -/
def slotRenamed (p q : Nat) (y : Slot) : Slot :=
  { y with obj := y.obj.map (objRenamed p q), record := recordRenamed p q y.record }

/-- An object whose maps do not name the sheet stays. -/
theorem objRenamed_of_not_named {p : Nat} {o : Obj} (hmap : ∀ e ∈ o.map, e.2 ≠ .psa p)
    (hcoded : ∀ c ∈ o.coded, c.loc ≠ .psa p) (q : Nat) : objRenamed p q o = o := by
  have hm : o.map.map (fun e => (e.1, locRenamed p q e.2)) = o.map :=
    (List.map_congr_left fun e he => by rw [locRenamed, if_neg (hmap e he)]; rfl).trans (List.map_id _)
  have hc : o.coded.map (fun c => { c with loc := locRenamed p q c.loc }) = o.coded :=
    (List.map_congr_left fun c hc => by rw [locRenamed, if_neg (hcoded c hc)]; rfl).trans (List.map_id _)
  rw [objRenamed, hm, hc]

/-- A RECORD that does not name the sheet stays. -/
theorem recordRenamed_of_not_named {p : Nat} {y : Slot} (h : recordPsa y ≠ some p) (q : Nat) :
    recordRenamed p q y.record = y.record := by
  rw [recordPsa] at h
  refine if_neg ?_
  by_cases h0 : y.record = 0 <;> by_cases h63 : bitOf y.record 63 <;> simp_all

/-- A REMAP changes of a slot its maps and its RECORD. -/
theorem slotAt_renamePsa (p q n : Nat) (d : Dev) :
    slotAt (renamePsa p q d) n = (slotAt d n).map (slotRenamed p q) :=
  tblGet_map (slotRenamed p q) d.kdr.slots n

/-- A slot whose maps and RECORD do not name the sheet stays. -/
theorem slotAt_renamePsa_of_not_named {p n : Nat} {y : Slot} {d : Dev} (hslot : slotAt d n = some y)
    (hrecord : recordPsa y ≠ some p)
    (hobj : ∀ b, y.obj = some b → (∀ e ∈ b.map, e.2 ≠ .psa p) ∧ ∀ e ∈ b.coded, e.loc ≠ .psa p) (q : Nat) :
    slotAt (renamePsa p q d) n = some y := by
  have ho : y.obj.map (objRenamed p q) = y.obj := by
    cases hb : y.obj with
    | none => rfl
    | some b =>
      obtain ⟨hmap, hcoded⟩ := hobj b hb
      exact congrArg some (objRenamed_of_not_named hmap hcoded q)
  rw [slotAt_renamePsa, hslot, Option.map_some, slotRenamed, ho, recordRenamed_of_not_named hrecord]

/-! ### The ream table stays until a ream is erased (R237) -/

@[simp] theorem addJournal_reams (y : JType) (a b c : Nat) (d : Dev) :
    (addJournal y a b c d).trl.reams = d.trl.reams := rfl
@[simp] theorem renamePsa_reams (p q : Nat) (d : Dev) : (renamePsa p q d).trl.reams = d.trl.reams := rfl
@[simp] theorem updMove_reams (r : Nat) (f : Move → Move) (d : Dev) : (updMove r f d).trl.reams = d.trl.reams := rfl

@[simp] theorem dirtyPages_trl (ps : List Nat) (seq : Nat) (d : Dev) : (dirtyPages ps seq d).trl = d.trl := by
  unfold dirtyPages; dsimp only; split <;> rfl

@[simp] theorem remap_reams (ps : List (Nat × Nat)) (d : Dev) : (remap ps d).trl.reams = d.trl.reams := by
  simp only [remap, dirtyPages_trl]
  refine foldl_keeps (·.trl.reams) _ ps ?_ d
  exact fun _ _ _ => rfl

/-- ERASE_PENDING is journaled for each block of a ream, in order. -/
def journalErasePending (ps : List Nat) (d : Dev) : Dev := ps.foldl (fun d p => addJournal .erasePending p 0 0 d) d

@[simp] theorem journalErasePending_reams (ps : List Nat) (d : Dev) :
    (journalErasePending ps d).trl.reams = d.trl.reams := by
  refine foldl_keeps (·.trl.reams) _ ps ?_ d
  exact fun _ _ _ => rfl

/-! ### The steps of a relocation (R237) -/

section
variable {env : Env} {d : Dev} {m : Move} {t : Task} {x : Ream} (ht : moveTask d m = some t)
  (hx : tblGet d.trl.reams m.ream = some x)
include ht hx

/-- What is copied is on media before its REMAP records are made. -/
theorem advanceMove_copying (hst : m.st = .copying) :
    advanceMove env m d = if m.moves.all (fun e => psaOnMedia d e.2) then
      updMove m.ream (fun y => { y with st := .remapping, seq := (remap m.moves d).trl.jNext - 1 }) (remap m.moves d)
    else d := by
  simp only [advanceMove, ht, hx, hst]

/-- The REMAP records are durable before the ream's holds are waited for. -/
theorem advanceMove_remapping (hst : m.st = .remapping) :
    advanceMove env m d = if m.moves.isEmpty || m.seq ≤ d.trl.jDurable then
      updMove m.ream (fun y => { y with st := .holding }) d else d := by
  simp only [advanceMove, ht, hx, hst]

/-- No PSA of the ream is held by a read when ERASE_PENDING is journaled. -/
theorem advanceMove_holding (hst : m.st = .holding) :
    advanceMove env m d = if (heldPsas d).any (inReam d m.ream) then d else
      updMove m.ream (fun y => { y with
        st := .erasing, seq := (journalErasePending (blocksOf d m.ream x) d).trl.jNext - 1 })
        (journalErasePending (blocksOf d m.ream x) d) := by
  simp only [advanceMove, ht, hx, hst, journalErasePending]

/-- ERASE_PENDING is durable before the ream is erased and free. -/
theorem advanceMove_erasing (hst : m.st = .erasing) (hwait : d.trl.jDurable < m.seq) : advanceMove env m d = d := by
  simp only [advanceMove, ht, hx, hst, Nat.not_le.mpr hwait, if_false]

/-- Before the ream is erased it stays in the table. -/
theorem advanceMove_reams (hst : m.st = .copying ∨ m.st = .remapping ∨ m.st = .holding) :
    (advanceMove env m d).trl.reams = d.trl.reams := by
  rcases hst with hst | hst | hst
  · rw [advanceMove_copying ht hx hst]; split <;> simp
  · rw [advanceMove_remapping ht hx hst]; split <;> simp
  · rw [advanceMove_holding ht hx hst]; split <;> simp

end

/-- Settles O26: each step of a relocation by what it waits for, a REMAP by what it renames. -/
theorem relocationOrder : Obligations.RelocationOrder := by
  intro env d m t x r cls p q n o dst y
  refine ⟨fun h => startMove_owned h env o cls dst, fun ht hx => ?steps, fun hslot hrecord hobj =>
    slotAt_renamePsa_of_not_named hslot hrecord hobj q⟩
  case steps =>
    refine ⟨fun hst ⟨e, he, hoff⟩ => ?waitsMedia, fun hst hon => ?remaps, fun hst hne hdur => ?waitsRemap,
      fun hst ⟨a, ha, hin⟩ => ?waitsReads, advanceMove_erasing ht hx, advanceMove_reams ht hx⟩
    case waitsMedia =>
      refine (advanceMove_copying ht hx hst).trans (if_neg fun hall => ?_)
      rw [List.all_eq_true.mp hall e he] at hoff
      exact Bool.noConfusion hoff
    case remaps => rw [advanceMove_copying ht hx hst, if_pos (List.all_eq_true.mpr hon)]; rfl
    case waitsRemap =>
      refine (advanceMove_remapping ht hx hst).trans (if_neg ?_)
      simp [hne, hdur]
    case waitsReads => exact (advanceMove_holding ht hx hst).trans (if_pos (List.any_eq_true.mpr ⟨a, ha, hin⟩))

end Sys2Proof.Proofs
end

section
/-! The posts to the key directory (07, R221, R224–R226, R234), kind by kind. -/

namespace Sys2Proof.Proofs

open Sys2Proof.Machine Sys2Proof.Claims Sys2Proof.Laws

section
variable {s : State} {p : PostRef} {t : Task} {x : Post}

/-! ### LOOKUP (R221, R226) -/

section
variable (h : postOf s.dev p 4 0 = some (t, x))
include h

theorem lookup_live {n : Nat} {y : Slot}
    (hfind : findSlot s.dev (dirKsid x.desc) (dirHash s.dev t x.desc) (dirKey s.dev t x.desc) = some (n, y))
    (hlive : y.live = true) :
    NextDev (.lookup p) s (endPost p t (postCost s.dev) 0 (BitVec.ofNat 64 y.version.toNat)
      (copyOut t x.desc (slotBytes y)
        (countProbe (dirKsid x.desc) (dirHash s.dev t x.desc) (dirKey s.dev t x.desc) s.dev))) := by
  change execLookup p s = _
  rw [execLookup, unitStep_next h]
  simp only [hfind, hlive, if_true]

theorem lookup_absent
    (hnone : findSlot s.dev (dirKsid x.desc) (dirHash s.dev t x.desc) (dirKey s.dev t x.desc) = none) :
    NextDev (.lookup p) s (endPost p t (postCost s.dev) 3 0
      (countProbe (dirKsid x.desc) (dirHash s.dev t x.desc) (dirKey s.dev t x.desc) s.dev)) := by
  change execLookup p s = _
  rw [execLookup, unitStep_next h]
  simp only [hnone]

end

/-! ### LOCK (R224, R226) -/

/-- The drive with the lookup of a LOCK noted. -/
def lockProbed (t : Task) (c : V512) (d : Dev) : Dev := countProbe (dirKsid c) (dirHash d t c) (dirKey d t c) d

/-- The slot a LOCK finds or inserts. -/
def lockFound (t : Task) (c : V512) (d : Dev) : Option (Nat × Dev) :=
  findOrInsert (dirKsid c) (dirHash d t c) (dirKey d t c) (lockProbed t c d)

/-- The request a LOCK leaves at a slot. -/
def lockRequest (env : Env) (p : PostRef) (t : Task) (c : V512) : LockReq :=
  ⟨t.owner, some p.tag, if cap c 4 4 = 0 then none else some (env.tick + cap c 4 4), false⟩

/-- A lock taken is a LOCK completed with the slot as it then stands. -/
theorem lockGranted_takeLock {d : Dev} {n : Nat} {y : Slot} (hslot : slotAt d n = some y) (p : PostRef) (t : Task)
    (c : V512) : lockGranted p t c n (takeLock n t.owner d) =
      endPost p t (postCost (takeLock n t.owner d)) 0 (BitVec.ofNat 64 n)
        (copyOut t c (slotBytes { y with lock := some t.owner }) (takeLock n t.owner d)) := by
  have htaken : slotAt (takeLock n t.owner d) n =
      some { y with lock := some t.owner, waiters := y.waiters.filter (fun w => w.owner != t.owner) } :=
    slotAt_updSlot_same hslot _
  rw [lockGranted, htaken]
  rfl

section
variable (h : postOf s.dev p 4 1 = some (t, x))
include h

theorem lock_full (hnone : lockFound t x.desc s.dev = none) :
    NextDev (.lock p) s (endPost p t (postCost s.dev) 5 0
      (probeLimit s.env (dirKsid x.desc) (dirHash s.dev t x.desc) (lockProbed t x.desc s.dev))) := by
  rw [lockFound, lockProbed] at hnone
  change execLock p s = _
  rw [execLock, unitStep_next h]
  simp only [hnone, lockProbed]

variable {n : Nat} {y : Slot} {d : Dev} (hfind : lockFound t x.desc s.dev = some (n, d))
  (hslot : slotAt d n = some y)
include hfind hslot

/-- The slot found or inserted is locked at once, or the LOCK waits for it. -/
theorem lock_next :
    NextDev (.lock p) s (if y.waiters.isEmpty && lockFree y t.owner false && locksHeld d t.owner < 64
      then lockGranted p t x.desc n (takeLock n t.owner d)
      else workPost p (updSlot n (fun y => { y with waiters := y.waiters ++ [lockRequest s.env p t x.desc] }) d)) := by
  rw [lockFound, lockProbed] at hfind
  change execLock p s = _
  rw [execLock, unitStep_next h]
  simp only [hfind, hslot, lockRequest]

theorem lock_takes (hwaiters : y.waiters = []) (hfree : y.lock = none)
    (hkept : y.reservation = none ∨ y.reservation = some t.owner) (hfew : locksHeld d t.owner < 64) :
    NextDev (.lock p) s (endPost p t (postCost (takeLock n t.owner d)) 0 (BitVec.ofNat 64 n)
      (copyOut t x.desc (slotBytes { y with lock := some t.owner }) (takeLock n t.owner d))) := by
  have hlock : lockFree y t.owner false = true := by
    rcases hkept with hkept | hkept <;> simp [lockFree, hfree, hkept]
  refine nextDev_of_eq (lock_next h hfind hslot) ((if_pos ?_).trans (lockGranted_takeLock hslot ..))
  simp [hwaiters, hlock, hfew]

theorem lock_waits (hlocked : y.lock.isSome = true) :
    NextDev (.lock p) s
      (workPost p (updSlot n (fun y => { y with waiters := y.waiters ++ [lockRequest s.env p t x.desc] }) d)) := by
  have hlock : lockFree y t.owner false = false := by
    simp [lockFree, Option.isNone_eq_false_iff.mpr hlocked]
  exact nextDev_of_eq (lock_next h hfind hslot) (if_neg (by simp [hlock]))

end

/-! ### COMMIT (R226, R234) -/

/-- What a COMMIT installs under a version. -/
def commitPut (env : Env) (t : Task) (c : V512) (y : Slot) (v : W32 × Dev) : Dev :=
  commitRecord env t (cap c 24 8) y v.1 (BitVec.ofNat 64 (cap c 32 8)) (BitVec.ofNat 8 (cap c 44 1)) v.2

section
variable (h : postOf s.dev p 4 2 = some (t, x)) {y : Slot} (hslot : slotAt s.dev (cap x.desc 24 8) = some y)
include h hslot

/-- It is installed under the version given, or under the next of the keyspace where that is durable. -/
theorem commit_next {v : W32 × Dev} (hv : cap x.desc 40 4 ≠ 0 ∧ v = (BitVec.ofNat 32 (cap x.desc 40 4), s.dev) ∨
      cap x.desc 40 4 = 0 ∧ runAllowed s.dev y.ksid.toNat 1 = true ∧ v = takeVer s.env y.ksid.toNat s.dev) :
    NextDev (.commit p) s (endPost p t (postCost s.dev) 0 (BitVec.ofNat 64 v.1.toNat)
      (dropLock (cap x.desc 24 8) (commitPut s.env t x.desc y v))) := by
  change execCommit p s = _
  rw [execCommit, unitStep_next h]
  rcases hv with ⟨hgiven, rfl⟩ | ⟨hnext, hgo, rfl⟩
  · simp only [hslot, hgiven, decide_false, Bool.false_and, Bool.false_eq_true, if_false]
    rfl
  · simp only [hslot, hnext, hgo, Bool.not_true, Bool.and_false, Bool.false_eq_true, if_false, if_true]
    rfl

theorem commit_waits (hnext : cap x.desc 40 4 = 0) (hstop : runAllowed s.dev y.ksid.toNat 1 = false) :
    NextDev (.commit p) s (ensureMark y.ksid.toNat 1 s.dev) := by
  change execCommit p s = _
  rw [execCommit, unitStep_next h]
  simp only [hslot, hnext, hstop, decide_true, Bool.not_false, Bool.and_self, if_true]

end

/-! #### What a COMMIT leaves in its slot -/

@[simp] theorem freeFrames_kdr (d : Dev) : (freeFrames d).2.kdr = d.kdr := by
  unfold freeFrames
  exact List.foldlRecOn (motive := fun acc : List FrameRec × Dev => acc.2.kdr = d.kdr) (List.range _) _ rfl
    (fun _ h _ _ => h)

@[simp] theorem recordObj_kdr (d : Dev) (r : Word) (objId : Nat) : (recordObj d r objId).2.kdr = d.kdr := by
  unfold recordObj
  dsimp only
  split <;> split <;> simp

@[simp] theorem adoptRecord_kdr (env : Env) (n id : Nat) (r : Word) (d : Dev) :
    (adoptRecord env n id r d).kdr = d.kdr := by
  unfold adoptRecord; split <;> rfl

@[simp] theorem claimSheets_kdr (ps : List Nat) (d : Dev) : (claimSheets ps d).kdr = d.kdr := rfl

@[simp] theorem addHeld_kdr (t : Task) (n : Nat) (y : Slot) (ver : W32) (id bytes : Nat) (runs : List Run) (d : Dev) :
    (addHeld t n y ver id bytes runs d).2.kdr = d.kdr := rfl

theorem slotAt_of_kdr {d e : Dev} (h : e.kdr = d.kdr) (n : Nat) : slotAt e n = slotAt d n := by
  simp only [slotAt, h]

/-- A slot with what a COMMIT installs. -/
def committedSlot (ver : W32) (r : Word) (sflags : Byte) (id : Nat) (o : Obj) (y : Slot) : Slot :=
  { y with live := true, version := ver, record := r, sflags := sflags, objId := id, obj := some o }

/-- A COMMIT changes its slot, and nothing else of the directory. -/
theorem commitRecord_kdr (env : Env) (t : Task) (n : Nat) (y : Slot) (ver : W32) (r : Word) (sflags : Byte) (d : Dev) :
    ∃ o e, e.kdr = d.kdr ∧ (commitRecord env t n y ver r sflags d).kdr =
      (updSlot n (committedSlot ver r sflags (commitObjId t d r) o) e).kdr := by
  let ob := recordObj d r (commitObjId t d r)
  let pg := givePages ob.1 (mappedExtents ob.1) ob.2
  refine ⟨pg.1, claimSheets (ob.1.psas d ++ (if bitOf r 63 then [] else [fld r 0 40])) pg.2, ?_, ?_⟩
  · rw [claimSheets_kdr, givePages_kdr, recordObj_kdr]
  · simp only [commitRecord, updTask_kdr, adoptRecord_kdr, addHeld_kdr, addJournal_kdr]
    rfl

/-- The slot is LIVE with the record, version and flags given, and the object id of the task or else of the record. -/
theorem slotAt_commitRecord {d : Dev} {n : Nat} {y : Slot} (hslot : slotAt d n = some y) (env : Env) (t : Task)
    (ver : W32) (r : Word) (sflags : Byte) :
    ∃ o, slotAt (commitRecord env t n y ver r sflags d) n =
      some (committedSlot ver r sflags (commitObjId t d r) o y) := by
  obtain ⟨o, e, hkeep, hcommit⟩ := commitRecord_kdr env t n y ver r sflags d
  exact ⟨o, (slotAt_of_kdr hcommit n).trans (slotAt_updSlot_same ((slotAt_of_kdr hkeep n).trans hslot) _)⟩

/-! ### UNLOCK, REMOVE, SEQ and SCAN (R138, R226, R234) -/

theorem unlock_next (h : postOf s.dev p 4 3 = some (t, x)) :
    NextDev (.unlock p) s (endPost p t (postCost s.dev) 0 0 (dropLock (cap x.desc 24 8) s.dev)) := by
  change execUnlock p s = _
  rw [execUnlock, unitStep_next h]

section
variable (h : postOf s.dev p 4 4 = some (t, x)) {y : Slot} (hslot : slotAt s.dev (cap x.desc 24 8) = some y)
include h hslot

theorem remove_next (hgo : runAllowed s.dev y.ksid.toNat 1 = true) :
    let v := takeVer s.env y.ksid.toNat s.dev
    let q := uninstall t (cap x.desc 24 8) v.1 v.2
    NextDev (.remove p) s (endPost p t (postCost s.dev) 0 (BitVec.ofNat 64 v.1.toNat) (dropLock (cap x.desc 24 8)
      (updTask t.eng t.ctx (fun z => { z with job := { z.job with heldIds := z.job.heldIds ++ [q.1] } }) q.2))) := by
  change execRemove p s = _
  rw [execRemove, unitStep_next h]
  simp only [hslot, hgo, Bool.not_true, Bool.false_eq_true, if_false]

theorem remove_waits (hstop : runAllowed s.dev y.ksid.toNat 1 = false) :
    NextDev (.remove p) s (ensureMark y.ksid.toNat 1 s.dev) := by
  change execRemove p s = _
  rw [execRemove, unitStep_next h]
  simp only [hslot, hstop, Bool.not_false, if_true]

end

theorem seq_next (h : postOf s.dev p 4 5 = some (t, x)) :
    let k := cap x.desc 0 1
    let n := cap x.desc 4 4
    let r := takeRun s.env k n s.dev
    NextDev (.seq p) s (if runAllowed s.dev k n = false then ensureMark k n s.dev
      else endPost p t (postCost s.dev) 0 (BitVec.ofNat 64 r.1.toNat) r.2) := by
  change execSeq p s = _
  rw [execSeq, unitStep_next h]
  simp only [Bool.not_eq_true']

/-- RESULT of a SCAN: the hash of the first slot it has not examined, 0 where none remains. -/
def scanResult (c : V512) (hits : List Slot) : Word :=
  match hits[cap c 4 4]? with
  | some z => z.hash
  | none => 0

theorem scan_next (h : postOf s.dev p 4 6 = some (t, x)) :
    let hits := (listSlots s.dev (cap x.desc 0 1) (cap x.desc 16 8)).filter (fun z =>
      (dirKey s.dev t x.desc).isPrefixOf z.key)
    NextDev (.scan p) s (endPost p t (postCost s.dev) 0 (scanResult x.desc hits)
      (copyOut t x.desc ((hits.take (cap x.desc 4 4)).flatMap slotBytes) s.dev)) := by
  change execScan p s = _
  rw [execScan, unitStep_next h]
  rfl

end

/-- Settles O21: each kind of post by what its slot allows. -/
theorem directoryPosts : Obligations.DirectoryPosts := by
  intro s p t x n y z d2 c key ksid h d1 pc k run held hits
  refine ⟨fun hp => ⟨lookup_live hp, lookup_absent hp⟩,
    fun hp hfind hslot => ⟨lock_takes hp hfind hslot, lock_waits hp hfind hslot⟩,
    lock_full, fun hp hslot => ?commit, unlock_next, fun hp => remove_next hp, fun hp => remove_waits hp,
    fun hp hstop => nextDev_of_eq (seq_next hp) (if_pos hstop),
    fun hp hgo => nextDev_of_eq (seq_next hp) (if_neg (ne_false_of_eq_true hgo)), scan_next⟩
  case commit =>
    intro rec_ put does
    refine ⟨fun hgiven => commit_next hp hslot (.inl ⟨hgiven, rfl⟩),
      fun hnext hgo => commit_next hp hslot (.inr ⟨hnext, hgo, rfl⟩), commit_waits hp hslot, fun v hz => ?slot⟩
    case slot =>
      obtain ⟨o, hcommit⟩ := slotAt_commitRecord hslot s.env t v rec_ (BitVec.ofNat 8 (cap c 44 1))
      obtain rfl := Option.some.inj (hcommit.symm.trans hz)
      exact ⟨rfl, rfl, rfl, rfl, rfl, rfl⟩

end Sys2Proof.Proofs
end

section
/-! The posts to MEDIA (07, R214, R228, R232, R242), kind by kind. -/

namespace Sys2Proof.Proofs

open Sys2Proof.Machine Sys2Proof.Claims Sys2Proof.Laws

/-! ### READ (R214, R228) -/

/-- The sheets a MEDIA READ names. -/
def readRun (c : V512) (d : Dev) : List Nat := psaRun d (cap c 8 8) (cap c 2 2)

/-- The page reads of a MEDIA READ, charged, each with its end and level. -/
def readDone (env : Env) (t : Task) (c : V512) (ends : List ReadEnd) (d : Dev) : List (Nat × ReadEnd × Nat) × Dev :=
  readPages env (readRun c d) ends (chargeClass t (readClass t) (readUnits d (readRun c d)) d)

/-- RESULT of a MEDIA READ: the highest retry level and the method of recovery of its pages. -/
def readResult (reads : List (Nat × ReadEnd × Nat)) : Word :=
  BitVec.ofNat 64 ((reads.map (fun y => y.2.2)).foldl max 0 + 16 * (reads.map (fun y => endMethod y.2.1)).foldl max 0)

/-- The sheets read are stored, and where asked their tags. -/
def storeSheets (t : Task) (c : V512) (got : List Sheet × Dev) : Dev :=
  let stored := storeFor t (cap c 16 8) (got.1.flatMap (fun q => slice q.data 0 4096)) got.2
  if cap c 24 8 = 0 then stored else storeFor t (cap c 24 8) (got.1.flatMap (fun q => natLe 16 q.tag.toNat)) stored

section
variable {s : State} {p : PostRef} {t : Task} {x : Post}

section
variable (h : postOf s.dev p 3 0 = some (t, x)) {ends : List ReadEnd}
include h

theorem mediaRead_next :
    let read := readDone s.env t x.desc ends s.dev
    NextDev (.mediaRead p ends) s (if read.1.any (fun y => y.2.1 == .unrecoverable) then finishPost p 0x0B 0 read.2
      else finishPost p 0 (readResult read.1) (storeSheets t x.desc (sheetsAt (readRun x.desc s.dev) read.2))) := by
  change execMediaRead p ends s = _
  rw [execMediaRead, unitStep_next h]
  rfl

theorem mediaRead_stores (hgood : ∀ y ∈ (readDone s.env t x.desc ends s.dev).1, y.2.1 ≠ .unrecoverable) :
    let read := readDone s.env t x.desc ends s.dev
    NextDev (.mediaRead p ends) s
      (finishPost p 0 (readResult read.1) (storeSheets t x.desc (sheetsAt (readRun x.desc s.dev) read.2))) := by
  refine nextDev_of_eq (mediaRead_next h) (if_neg fun hany => ?_)
  obtain ⟨y, hy, hbad⟩ := List.any_eq_true.mp hany
  exact hgood y hy (eq_of_beq hbad)

theorem mediaRead_fails (hbad : ∃ y ∈ (readDone s.env t x.desc ends s.dev).1, y.2.1 = .unrecoverable) :
    NextDev (.mediaRead p ends) s (finishPost p 0x0B 0 (readDone s.env t x.desc ends s.dev).2) := by
  obtain ⟨y, hy, hbad⟩ := hbad
  refine nextDev_of_eq (mediaRead_next h) (if_pos (List.any_eq_true.mpr ⟨y, hy, ?_⟩))
  exact beq_iff_eq.mpr hbad

end

/-! ### WRITE (R228, R236) -/

/-- The sheets a MEDIA WRITE brings, with their tags. -/
def writeSheets (t : Task) (c : V512) (d : Dev) : List Sheet :=
  (List.range (cap c 2 2)).map (fun i => ⟨readFor t d (cap c 16 8 + 4096 * i) 4096,
    BitVec.ofNat 128 (leNat (readFor t d (cap c 24 8 + 16 * i) 16)), false⟩)

/-- Placed, their addresses are stored; with DURABLE the post goes on until they are on media. -/
theorem mediaWrite_next (h : postOf s.dev p 3 1 = some (t, x)) {psas : List Nat} {d : Dev}
    (hroom : 3 ≤ cap x.desc 0 1 ∨ freeUrgent s.dev ≤ freeReams s.env s.dev)
    (hplaced : placeSheets s.env (cap x.desc 0 1) (wantsSlc s.dev (cap x.desc 0 1) (bitOf x.desc 9))
      (writeSheets t x.desc s.dev) s.dev = some (psas, d)) :
    let put := storeFor t (cap x.desc 32 8) (psas.flatMap (natLe 8)) d
    NextDev (.mediaWrite p) s (if bitOf x.desc 8 then updPost p (fun y => { y with st := .working, psas := psas }) put
      else finishPost p 0 0 (chargeWrite t x (wantsSlc s.dev (cap x.desc 0 1) (bitOf x.desc 9)) put)) := by
  have hgo : (cap x.desc 0 1 < 3 && freeReams s.env s.dev < freeUrgent s.dev) = false := by
    rcases hroom with hroom | hroom <;> simp [Nat.not_lt.mpr hroom]
  rw [writeSheets] at hplaced
  change execMediaWrite p s = _
  rw [execMediaWrite, unitStep_next h]
  simp only [hgo, hplaced, Bool.false_eq_true, if_false]

/-! ### ERASE (R228, R232, R241, R246) -/

/-- The drive with an ERASE charged. -/
def eraseCharged (t : Task) (d : Dev) : Dev := chargeFor t.wclass t.group (energyFlat 200000000 1 1) d

/-- A block wears as its ream was used, one in no ream as a TLC block. -/
def blockSlc (d : Dev) (psa : Nat) : Bool := match reamOf d psa with | some (_, r) => r.slc | none => false

section
variable (h : postOf s.dev p 3 2 = some (t, x))
include h

theorem mediaErase_next (good : Bool) :
    let psa := cap x.desc 8 8
    let d := eraseCharged t s.dev
    NextDev (.mediaErase p good) s (if s.dev.trl.failedDies.contains (psaDieKey psa) then finishPost p 0x0B 0 d
      else if good then finishPost p 0 0 (addJournal .erased psa 1 0 (wearBlock psa (blockSlc s.dev psa) d))
      else finishPost p 0x0B 0 (eraseFailed s.env psa ((takeFree d).1.setWidth 32) (takeFree d).2)) := by
  change execMediaErase p good s = _
  rw [execMediaErase, unitStep_next h]
  rfl

theorem mediaErase_dead (hdead : psaDieKey (cap x.desc 8 8) ∈ s.dev.trl.failedDies) (good : Bool) :
    NextDev (.mediaErase p good) s (finishPost p 0x0B 0 (eraseCharged t s.dev)) :=
  nextDev_of_eq (mediaErase_next h good) (if_pos (List.contains_iff_mem.mpr hdead))

variable (hlive : psaDieKey (cap x.desc 8 8) ∉ s.dev.trl.failedDies)
include hlive

theorem mediaErase_good :
    let psa := cap x.desc 8 8
    NextDev (.mediaErase p true) s
      (finishPost p 0 0 (addJournal .erased psa 1 0 (wearBlock psa (blockSlc s.dev psa) (eraseCharged t s.dev)))) :=
  nextDev_of_eq (mediaErase_next h true) ((if_neg (mt List.contains_iff_mem.mp hlive)).trans (if_pos rfl))

theorem mediaErase_fails :
    let f := takeFree (eraseCharged t s.dev)
    NextDev (.mediaErase p false) s (finishPost p 0x0B 0 (eraseFailed s.env (cap x.desc 8 8) (f.1.setWidth 32) f.2)) :=
  nextDev_of_eq (mediaErase_next h false) ((if_neg (mt List.contains_iff_mem.mp hlive)).trans (if_neg Bool.false_ne_true))

end

/-! ### READ_RAW (R228, R242) -/

theorem readRaw_next (h : postOf s.dev p 3 3 = some (t, x)) :
    let run := readRun x.desc s.dev
    let f := takeFreeBytes (4096 * cap x.desc 2 2)
      (countReads run (chargeClass t (readClass t) (readUnits s.dev run) s.dev))
    NextDev (.readRaw p) s (finishPost p 0 0 (storeFor t (cap x.desc 16 8) f.1 f.2)) := by
  change execReadRaw p s = _
  rw [execReadRaw, unitStep_next h]
  rfl

end

/-- Settles O24: each kind of post by what its pages, its reams or its die come to. -/
theorem mediaPosts : Obligations.MediaPosts := by
  intro s p t x psas ends d1 c n run slc read level method got stored tagged stream wslc sheets units put paid
  refine ⟨fun h => ⟨mediaRead_stores h, mediaRead_fails h⟩, fun h hroom hplaced => ?write,
    fun h => ?erase, readRaw_next⟩
  case write =>
    have hnext := mediaWrite_next h hroom hplaced
    exact ⟨fun hdur => nextDev_of_eq hnext (if_neg (ne_true_of_eq_false hdur)),
      fun hdur => nextDev_of_eq hnext (if_pos hdur)⟩
  case erase => exact ⟨mediaErase_good h, mediaErase_fails h, mediaErase_dead h⟩

end Sys2Proof.Proofs
end

section
/-! What the dies report (07, R211–R213, R244, R246). -/

namespace Sys2Proof.Proofs

open Sys2Proof.Machine Sys2Proof.Claims Sys2Proof.Laws

section
variable {s : State}

/-! ### Programmed and closed quires (R211–R213) -/

/-- A closed quire reported programmed is on media, and what waits for that goes on. -/
theorem quireProgrammed_next {ream quire : Nat} {x : Ream} (hx : tblGet s.dev.trl.reams ream = some x)
    (hclosed : quire ∈ x.closedQ) (hnew : quire ∉ x.programmedQ) :
    NextDev (.quireProgrammed ream quire) s (onMediaNow s.env
      (updReam ream (fun x => { x with programmedQ := x.programmedQ ++ [quire] })
        { s.dev with trl := { s.dev.trl with
          mediaWritten := s.dev.trl.mediaWritten + quireBytes x,
          dieFails := s.dev.trl.dieFails.filter (fun e => !(reamDies ream x).contains e.1) } })) := by
  change execQuireProgrammed ream quire s = _
  rw [execQuireProgrammed]
  exact onDev_eq (by simp [hx, hclosed, hnew])

/-- Part sheets that are due are placed, then every open quire that is due closes with pad sheets. -/
theorem quireClose_next (s : State) :
    let filled := if partDue s.env s.dev then placeAll s.env true s.dev else s.dev
    NextDev .quireClose s
      ((filled.trl.reams.filter (quireDue s.env filled)).foldl (fun d r => padQuire s.env r.1 d) filled) := rfl

/-! ### Failures (R244, R246) -/

theorem eraseFail_next (s : State) (psa : Nat) (st : W32) :
    NextDev (.eraseFail psa st) s (if psaOk s.dev psa then eraseFailed s.env psa st s.dev else s.dev) := rfl

theorem programFail_out_of_range {psa : Nat} (hbad : psaOk s.dev psa = false) (st : W32) :
    NextDev (.programFail psa st) s s.dev := by
  change execProgramFail psa st s = _
  exact onDev_eq (by simp [hbad])

/-- A program failure is reported, and its block is retired when its ream is freed. -/
def programMarked (env : Env) (psa : Nat) (st : W32) (d : Dev) : Dev :=
  updBlock (psaBlockKey psa) (fun b => { b with retireQ := some (b.retireQ.getD 2) })
    (event env 0x0B05 3 clsMedia (psaChannel psa) (psa % 2 ^ 32) (psa / 2 ^ 32) st.toNat (setCause env 11 2 d))

/-- The ream closes and is queued for refresh, and the quire that failed is not programmed. -/
def quireQuit (env : Env) (ream q : Nat) (d : Dev) : Dev :=
  updReam ream (fun x => { x with refreshQ := some (x.refreshQ.getD 2), closedQ := x.closedQ.filter (· != q) })
    (closeReam ream (padQuire env ream d))

section
variable {psa : Nat} (hok : psaOk s.dev psa = true) {st : W32}
include hok

theorem programFail_no_ream (hnone : reamOf (programMarked s.env psa st s.dev) psa = none) :
    NextDev (.programFail psa st) s (dieFailure s.env psa (programMarked s.env psa st s.dev)) := by
  rw [programMarked] at hnone ⊢
  change execProgramFail psa st s = _
  refine onDev_eq ?_
  simp only [hok, hnone, Bool.not_true, Bool.false_eq_true, if_false]

/-- A quire not yet programmed has its data placed again in other quires. -/
theorem programFail_next {ream : Nat} {x : Ream}
    (hream : reamOf (programMarked s.env psa st s.dev) psa = some (ream, x)) :
    let q := psaPage psa / wlPages x.slc
    let d := programMarked s.env psa st s.dev
    NextDev (.programFail psa st) s (if x.programmedQ.contains q then dieFailure s.env psa d
      else dieFailure s.env psa (loseUnplaced s.env (replaceQuire s.env ream x q (quireQuit s.env ream q d)))) := by
  rw [programMarked] at hream ⊢
  change execProgramFail psa st s = _
  refine onDev_eq ?_
  simp only [hok, hream, Bool.not_true, Bool.false_eq_true, if_false, quireQuit]

end

theorem dieFailed_next {channel die : Nat} (hchannel : channel < 32) (hdie : die < 24) :
    NextDev (.dieFailed channel die) s (failDie s.env channel die s.dev) := by
  change execDieFailed channel die s = _
  exact onDev_eq (by simp [hchannel, hdie])

end

end Sys2Proof.Proofs
end

section
/-! What the translation layer does by itself while the drive is ACTIVE (07, R230, R231, R233, R236, R240–R243, R247,
R403). -/

namespace Sys2Proof.Proofs

open Sys2Proof.Machine Sys2Proof.Claims Sys2Proof.Laws

/-! ### Broke (R236, R246, R247, R403) -/

section
variable {s : State} (hwork : internalWork s.env s.dev = true)
include hwork

section
variable {go : Dev} (hgo : advanceMoves s.env s.dev = go)
include hgo

/-- A deleted keyspace whose last command has ended goes first. -/
theorem broke_reclaims {k : Nat} (hks : reclaimNext go = some k) :
    NextDev .broke s (reclaimKs k go) := by
  change execBroke s = _
  refine onDev_eq ?_
  simp only [hwork, hgo, hks, Bool.not_true, Bool.false_eq_true, if_false]

section
variable (hks : reclaimNext go = none)
include hks

/-- A ream of a failed die's group comes next. -/
theorem broke_rebuilds {r : Nat} {x : Ream} (hream : rebuildNext go = some (r, x)) :
    NextDev .broke s (startMove s.env r .retirement 6 none go) := by
  change execBroke s = _
  refine onDev_eq ?_
  simp only [hwork, hgo, hks, hream, Bool.not_true, Bool.false_eq_true, if_false]

variable (hnone : rebuildNext go = none)
include hnone

theorem broke_rests (hfree : freeLow go ≤ freeReams s.env go) :
    NextDev .broke s go := by
  change execBroke s = _
  refine onDev_eq ?_
  simp only [hwork, hgo, hks, hnone, hfree, Bool.not_true, Bool.false_eq_true, if_false, if_true]

variable (hlow : freeReams s.env go < freeLow go) {worn : Dev}
  (hworn : (if spaceWorn s.env go then enterWorn s.env 2 0 go else go) = worn)
include hlow hworn

/-- Below FREE_LOW the ream with the fewest valid sheets is taken, in WORN too. -/
theorem broke_takes {r : Nat} {x : Ream} (hidle : worn.trl.moves.any (fun m => m.owner == .broke) = false)
    (hvictim : brokeVictim worn = some (r, x)) : NextDev .broke s (startMove s.env r .broke 6 none worn) := by
  change execBroke s = _
  refine onDev_eq ?_
  simp only [hwork, hgo, hks, hnone, Nat.not_le.mpr hlow, hworn, hidle, hvictim, Bool.not_true,
    Bool.false_eq_true, if_false]

/-- One at a time, and none where no ream may be taken. -/
theorem broke_waits (h : worn.trl.moves.any (fun m => m.owner == .broke) = true ∨ brokeVictim worn = none) :
    NextDev .broke s worn := by
  change execBroke s = _
  refine onDev_eq ?_
  simp only [hwork, hgo, hks, hnone, Nat.not_le.mpr hlow, hworn, Bool.not_true, Bool.false_eq_true, if_false]
  rcases h with hbusy | hnone
  · rw [if_pos hbusy]
  · simp only [hnone, ite_self]

end

/-! ### Fold and refresh (R230, R242) -/

omit hwork hgo in
/-- An open ream is closed before it is claimed. -/
theorem claim_eq (env : Env) (r : Nat) (x : Ream) (o : ReamOwner) (cls : Nat) (d : Dev) :
    claim env (r, x) o cls d =
      startMove env r o cls none (if x.st = .open then closeReam r (padQuire env r d) else d) := by
  simp only [claim, beq_iff_eq]

/-- A closed ream of an idle burst region is folded. -/
theorem fold_idle {r : Nat} {x : Ream} (hheld : burstHeld go ≠ 0)
    (hidle : go.trl.lastHostWrite + 2500000 ≤ s.env.tick)
    (hfirst : (go.trl.reams.filter (fun q =>
      q.2.slc && q.2.stream < 3 && !owned go q.1 && q.2.refreshQ.isNone)).find?
        (fun q => q.2.st == .closed) = some (r, x)) :
    NextDev .fold s (claim s.env (r, x) .fold 6 go) := by
  change execFold s = _
  refine onDev_eq ?_
  simp only [hwork, hgo, hheld, hidle, hfirst, decide_true, decide_false, Bool.true_or, Bool.not_true, Bool.or_self,
    Bool.false_eq_true, if_false]

/-- The first ream queued for refresh that has no owner is moved. -/
theorem refresh_next {r : Nat} {x : Ream}
    (hfirst : go.trl.reams.find? (fun q =>
      q.2.refreshQ.isSome && !owned go q.1) = some (r, x)) :
    NextDev .refresh s (claim s.env (r, x) .refresh 7 go) := by
  change execRefresh s = _
  refine onDev_eq ?_
  simp only [hwork, hgo, hfirst, Bool.not_true, Bool.false_eq_true, if_false]

/-! ### Wear levelling (R231, R241) -/

omit hwork hgo in
/-- The first number of a range that passes a test and gives something. -/
theorem findSome?_filter_range {α : Type} {f : Nat → Option α} {p : Nat → Bool} {n g : Nat} {b : α} (hg : g < n)
    (hp : p g = true) (hb : f g = some b) (hfirst : ∀ k, k < g → f k = none) :
    ((List.range n).filter p).findSome? f = some b := by
  obtain ⟨m, rfl⟩ := Nat.exists_eq_add_of_lt hg
  refine List.findSome?_eq_some_iff.mpr ⟨(List.range g).filter p, g,
    (List.map (g + ·) (List.map Nat.succ (List.range m))).filter p, ?_, hb,
    fun k hk => hfirst k (List.mem_range.mp (List.mem_filter.mp hk).1)⟩
  simp [Nat.add_assoc, List.range_add, List.range_succ_eq_map, hp]

/-- In the first group whose wear differs by more than WL_DELTA the least-worn closed ream moves to the
most-worn free one. -/
theorem wearLevel_next {g r dst : Nat} {x : Ream} (hg : g < 48) (hlive : g ∉ go.trl.retiredGroups)
    (hfree : freeReams s.env go ≠ 0)
    (hfirst : ∀ k, k < g → wearSpread go k = false)
    (hspread : wearSpread go g = true)
    (hleast : leastWorn go g = some (r, x))
    (hmost : mostWornFree go g = some dst)
    (hless : reamWear go r x.all <
      reamWear go dst (livePos go g)) :
    NextDev .wearLevel s
      (startMove s.env r .wear 8 (some dst) (startReam s.env dst 3 false go)) := by
  change execWearLevel s = _
  refine onDev_eq ?_
  simp only [hwork, hgo, Bool.not_true, Bool.false_eq_true, if_false]
  rw [findSome?_filter_range (b := ((r, x), dst)) hg (by simpa using hlive)
    (by simp [hspread, hfree, hleast, hmost, hless]) (fun k hk => by simp [hfirst k hk])]

end

/-! ### Patrol (R242, R243) -/

omit hwork in
@[simp] theorem patrolPass_internalWork (env : Env) (d : Dev) :
    internalWork env (patrolPass env d) = internalWork env d := by
  unfold patrolPass; split <;> rfl

/-- A programmed page not yet read in the pass is read, and its corrected bits are compared with PATROL_BITS. -/
theorem patrol_next {psa r : Nat} {x : Ream} {e : ReadEnd} {pass seen : Dev} (hpass : patrolPass s.env s.dev = pass)
    (hseen : pageRead s.env psa e (charge 7 (energyFlat (if x.slc then 1300000 else 2400000) 4 1)
      { pass with trl := { pass.trl with patrolled := psa / 4 :: pass.trl.patrolled } }) = seen)
    (hream : reamOf pass psa = some (r, x)) (hok : psaOk pass psa = true)
    (hdone : psaPage psa / wlPages x.slc ∈ x.programmedQ) (hnew : psa / 4 ∉ pass.trl.patrolled) (bits : Nat) :
    NextDev (.patrol psa ⟨bits, e⟩) s
      (if fld pass.trl.patrolReg 8 10 < bits then queueRefresh psa 3 seen else seen) := by
  have hgo : internalWork s.env pass = true := by rw [← hpass, patrolPass_internalWork, hwork]
  change execPatrol psa ⟨bits, e⟩ s = _
  refine onDev_eq ?_
  simp only [hpass, hream, hgo, hok, List.contains_iff_mem.mpr hdone, Bool.not_true, Bool.false_or,
    if_neg (mt List.contains_iff_mem.mp hnew), hseen]

/-! ### Checkpoint rounds (R233) -/

/-- Segments of the round due at a tick. -/
def segmentsDue (env : Env) (d : Dev) : Nat :=
  min segmentCount (segmentCount * (env.tick - d.trl.roundFrom) / (roundS d * Config.second))

theorem checkpointRound_next :
    NextDev .checkpointRound s
      (finishRound s.env (writeSegments s.env (segmentsDue s.env s.dev - s.dev.trl.segs.length) s.dev)) := by
  change execCheckpointRound s = _
  exact onDev_eq (if_pos hwork)

/-- At its size the journal has what the round lacks written at once. -/
theorem journalMax_next (hfull : journalMax s.dev ≤ journalBytes s.dev) :
    NextDev .journalMax s
      (finishRound s.env (writeSegments s.env (segmentCount - s.dev.trl.segs.length) s.dev)) := by
  change execJournalMax s = _
  exact onDev_eq (if_pos (by simp [hwork, hfull]))

end

/-- Settles O25: each report of the dies and each piece of the translation layer's own work by its command. -/
theorem mediaUpkeep : Obligations.MediaUpkeep := by
  refine ⟨?dies, ?work⟩
  case dies =>
    intro s ream quire psa channel die st x dies done marked filled q quit
    refine ⟨quireProgrammed_next, quireClose_next s, fun hok => nextDev_of_eq (eraseFail_next s psa st) (if_pos hok),
      fun hok hnone => programFail_no_ream hok hnone, fun hok hream => ?fails,
      fun hbad => ⟨programFail_out_of_range hbad st, ?outside⟩, dieFailed_next⟩
    case fails =>
      have hnext := programFail_next hok hream
      exact ⟨fun hdone => nextDev_of_eq hnext (if_pos (List.contains_iff_mem.mpr hdone)),
        fun hnew => nextDev_of_eq hnext (if_neg (mt List.contains_iff_mem.mp hnew))⟩
    case outside => exact nextDev_of_eq (eraseFail_next s psa st) (if_neg (ne_true_of_eq_false hbad))
  case work =>
    intro s r psa bits dst g k x e hwork go claimed pass seen since due worn
    have hgo : advanceMoves s.env s.dev = go := rfl
    have hworn : (if spaceWorn s.env go then enterWorn s.env 2 0 go else go) = worn := rfl
    refine ⟨broke_reclaims hwork hgo, fun hks hream => broke_rebuilds hwork hgo hks hream, broke_rests hwork hgo,
      fun hks hnone hlow => ⟨fun hidle => ?takes, fun h => ?waits⟩,
      fun hheld hidle hfirst => nextDev_of_eq (fold_idle hwork hgo hheld hidle hfirst) (claim_eq ..),
      fun hfirst => nextDev_of_eq (refresh_next hwork hgo hfirst) (claim_eq ..),
      fun hream hok hdone hnew => ?patrol, wearLevel_next hwork hgo,
      checkpointRound_next hwork, journalMax_next hwork⟩
    case patrol => exact patrol_next hwork (pass := pass) (seen := seen) rfl rfl hream hok hdone hnew bits
    case takes =>
      refine broke_takes hwork hgo hks hnone hlow hworn (List.any_eq_false.mpr fun m hm => ?_)
      exact fun hbroke => hidle m hm (eq_of_beq hbroke)
    case waits =>
      refine broke_waits hwork hgo hks hnone hlow hworn (h.imp_left fun ⟨m, hm, hbroke⟩ =>
        List.any_eq_true.mpr ⟨m, hm, ?_⟩)
      exact beq_iff_eq.mpr hbroke

end Sys2Proof.Proofs
end

section
/-! Recovery commits the writes of the drain image again, and they wait in protected felt for media as before (07, R235;
16, R461). -/

namespace Sys2Proof.Proofs

open Sys2Proof.Machine Sys2Proof.Claims Sys2Proof.Laws

/-- The acknowledged PUT of an object of one sheet, that sheet not yet on media when power was lost. -/
def heldPut : Held :=
  { id := 0, opid := 0, hash := 0, version := 1, ksid := 0, opc := 0x01, objId := 7, bytes := 4096, acked := some 0,
    runs := [{ no := 0, bytes := List.replicate 4096 1, amount := 4096 }], slot := 9 }

/-- The key's slot as that write left it. -/
def unwrittenSlot : Slot :=
  { live := true, ksid := 0, key := [], hash := 0, version := 1, objId := 7, obj := some feltSheet }

/-- Bring-up at recovery, after a drain that ended with that write in its image. -/
def recoveringState : State :=
  { env := { pw := { bringStep := 4 } },
    dev := { flt := { held := [heldPut], nextHeld := 1 }, kdr := { slots := [(9, unwrittenSlot)] } } }

/-- Recovery finds the drain image whole and the journal good. -/
def drainEnded : RecoveryFacts :=
  { missing := [], sealOk := true, journalBad := none, replayed := 0, ms := 0, eraseFails := [] }

/-- Ids of the writes protected felt holds after a command. -/
def heldAfter (i : Instr) (s : State) : Option (List Nat) :=
  match exec i s with
  | .next q => some (q.dev.flt.held.map (·.id))
  | _ => none

/-- Recovery leaves the write held: it is committed again, and its sheet waits for its quire to be programmed. -/
theorem recoveryDone_holds : heldAfter (.recoveryDone drainEnded) recoveringState = some [0] := by decide +kernel

/-- Refutes O42: recovery does not end with nothing held. R235 commits each write of the drain image again, and a write
stays in protected felt until it is on media with its journal record. -/
theorem not_firmwareUpdate : ¬ Obligations.FirmwareUpdate := by
  intro h
  let t : Task := { eng := 3, ctx := 1, kind := .host, capsule := 0 }
  obtain ⟨-, -, -, -, hrecovery⟩ :=
    h recoveringState ⟨3, 1⟩ t 0x45 0 0 0 (.ok []) [] true true (0, 0) {} none drainEnded 0 0
  obtain ⟨q, hnext, -, hnone, -⟩ := hrecovery rfl (by decide) rfl
  have hheld : heldAfter (.recoveryDone drainEnded) recoveringState = some [] := by
    simp only [heldAfter, hnext, hnone, List.map_nil]
  exact absurd (recoveryDone_holds.symm.trans hheld) (by decide)

end Sys2Proof.Proofs
end

section
/-! Frames at the chain ports (08): FRAME_RECEIVE by the rows of R264, forwarding and egress (R265–R267), and the flow control
of a port with its pause watchdog (R275–R278). -/

namespace Sys2Proof.Proofs

open Sys2Proof.Machine Sys2Proof.Claims Sys2Proof.Laws

/-! ### The ports -/

theorem portOf_updPort_ne {p q : Nat} (h : q ≠ p) (f : Port → Port) (d : Dev) : portOf (updPort p f d) q = portOf d q := by
  simp only [portOf, updPort_cpt, vget, vupd]
  split
  · rw [Vector.getElem?_setIfInBounds_ne h.symm]
  · rfl

/-- What a change of ports leaves of each port, it leaves of the port read. -/
theorem portOf_updPort_keeps {α : Type} (view : Port → α) {f : Port → Port} (hf : ∀ x, view (f x) = view x) (p q : Nat)
    (d : Dev) : view (portOf (updPort p f d) q) = view (portOf d q) := by
  rcases eq_or_ne q p with rfl | hne
  · by_cases hq : q < 2
    · rw [portOf_updPort_same q hq, hf]
    · simp [portOf, vget, vupd, hq]
  · rw [portOf_updPort_ne hne]

/-- A count of R283 is the only thing that moves with it. -/
theorem portOf_portCount_keeps {α : Type} (view : Port → α) (hf : ∀ x c, view { x with counts := c } = view x) (p i q : Nat)
    (d : Dev) : view (portOf (portCount p i d) q) = view (portOf d q) :=
  portOf_updPort_keeps view (fun x => hf x _) p q d

theorem rxPrio_portCount (p i : Nat) (h : FrameHead) (d : Dev) :
    rxPrio (portOf (portCount p i d) p) h = rxPrio (portOf d p) h :=
  portOf_portCount_keeps (rxPrio · h) (fun _ _ => rfl) p i p d

theorem forwards_portCount (p i : Nat) (d : Dev) : forwards (portCount p i d) = forwards d := by
  have hlink (q : Nat) := portOf_portCount_keeps Port.link (fun _ _ => rfl) p i q d
  have hresetting (q : Nat) := portOf_portCount_keeps Port.resetting (fun _ _ => rfl) p i q d
  simp only [forwards, hlink, hresetting]
  rfl

/-! ### Flow control sent (R276) -/

/-- Flow control touches the ports alone. -/
theorem pfcCheck_changes (env : Env) (p n : Nat) (d : Dev) :
    ∃ ps, pfcCheck env p n d = { d with cpt := { d.cpt with ports := ps } } := by
  unfold pfcCheck
  dsimp only
  split
  · split <;> exact ⟨_, rfl⟩
  · split
    · exact ⟨_, rfl⟩
    · split <;> exact ⟨_, rfl⟩

theorem egress_sendPfc (env : Env) (p n quanta q : Nat) (d : Dev) :
    (portOf (sendPfc env p n quanta d) q).egress = (portOf d q).egress :=
  (portOf_portCount_keeps Port.egress (fun _ _ => rfl) p 20 q _).trans
    (portOf_updPort_keeps Port.egress (fun _ => by rfl) p q d)

/-- PFC frames pass the buffers by. -/
theorem egress_pfcCheck (env : Env) (p n q : Nat) (d : Dev) :
    (portOf (pfcCheck env p n d) q).egress = (portOf d q).egress := by
  have hmark (x : Option Nat) : (portOf (updPort p (fun y => { y with xoff := vset y.xoff n x }) d) q).egress =
      (portOf d q).egress := portOf_updPort_keeps Port.egress (fun _ => by rfl) p q d
  unfold pfcCheck
  dsimp only
  split
  · split
    · exact (egress_sendPfc ..).trans (hmark _)
    · rfl
  · split
    · exact hmark _
    · split
      · exact (egress_sendPfc ..).trans (hmark _)
      · rfl

/-! ### A frame received (R264–R266) -/

theorem frameReceive_next {s : State} {p : Nat} {f : FrameIn} {d : Dev} (h : frameIn p f s.env s.dev = (s.env, d)) :
    NextDev (.frameReceive p f) s d := by
  change execFrameReceive p f s = _
  rw [execFrameReceive, onEnv_next, h]

/-- A port that is down, or a drive that is not inserted, receives nothing. -/
theorem frameIn_deaf {p : Nat} {d : Dev} (h : (portOf d p).link = false ∨ d.cpt.bypass ≠ 1) (f : FrameIn) (env : Env) :
    frameIn p f env d = (env, d) :=
  if_pos (by rcases h with h | h <;> simp [h])

section
variable {p : Nat} {f : FrameIn} {env : Env} {d : Dev} (hp : p < 2) (hlink : (portOf d p).link = true)
  (hins : d.cpt.bypass = 1) (hframe : f.respond = false)
include hp hlink hins hframe

theorem frameIn_good (hgood : badFrame env p f (portCount p 0 d) = none) :
    frameIn p f env d = goodFrame p f env (portCount p 0 d) := by
  have hup : ¬ (2 ≤ p || !(portOf d p).link || decide (d.cpt.bypass ≠ 1)) = true := by simp [hlink, hins, hp]
  simp only [frameIn, if_neg hup, hframe, Bool.false_eq_true, if_false, hgood]

/-- A bad frame none of which has left the drive is counted and reported, and goes no further. -/
theorem frameIn_bad {cause : Nat} {e : Dev} (hbad : badFrame env p f (portCount p 0 d) = some (cause, e))
    (hunsent : startedOn env p (rxPrio (portOf e p) (frameHead f.bytes)) f e = false) : frameIn p f env d = (env, e) := by
  have hup : ¬ (2 ≤ p || !(portOf d p).link || decide (d.cpt.bypass ≠ 1)) = true := by simp [hlink, hins, hp]
  simp only [frameIn, if_neg hup, hframe, Bool.false_eq_true, if_false, hbad, hunsent, Bool.and_false]

end

/-! ### A good frame, by its row (R264) -/

section
variable {p : Nat} {f : FrameIn} {d : Dev} (env : Env)

theorem goodFrame_forward (hrow : frameRow d f.bytes (frameHead f.bytes) = .forward) : goodFrame p f env d =
    (env, forwardFrame env p (rxPrio (portOf d p) (frameHead f.bytes)) f.bytes d) := by
  simp only [goodFrame, hrow]

theorem goodFrame_pause (hrow : frameRow d f.bytes (frameHead f.bytes) = .pause) : goodFrame p f env d =
    (env, pauseIn env p f.bytes (frameHead f.bytes).body d) := by
  simp only [goodFrame, hrow]

theorem goodFrame_macctl (hrow : frameRow d f.bytes (frameHead f.bytes) = .macctl) : goodFrame p f env d =
    (env, event env 0x020C 2 clsProtocol p (beAt f.bytes (frameHead f.bytes).body 2) 0 0 (partnerErr env p 12 d)) := by
  simp only [goodFrame, hrow]

theorem goodFrame_linkLocal (hrow : frameRow d f.bytes (frameHead f.bytes) = .linkLocal) : goodFrame p f env d =
    (env, partnerErr env p 11 d) := by
  simp only [goodFrame, hrow]

theorem goodFrame_delivered (hrow : frameRow d f.bytes (frameHead f.bytes) = .station)
    (hact : actFrame d (portOf d p) (frameHead f.bytes) = true) (hawake : env.pw.st ≠ .dormant) : goodFrame p f env d =
    (env, deliverXpt env p (frameHead f.bytes).src false (f.bytes.drop (frameHead f.bytes).body) d) := by
  simp only [goodFrame, hrow, hact, if_true, deliverLocal, beq_eq_false_iff_ne.mpr hawake, Bool.false_eq_true, if_false]

theorem goodFrame_rejected (hrow : frameRow d f.bytes (frameHead f.bytes) = .station)
    (hact : actFrame d (portOf d p) (frameHead f.bytes) = false) : goodFrame p f env d =
    (env, rejectLocal env p (frameHead f.bytes) d) := by
  simp only [goodFrame, hrow, hact, Bool.false_eq_true, if_false]

end

/-! ### Forwarding (R265, R276) -/

/-- A frame the drive forwards, with room for it, joins the other port's egress buffer. -/
theorem forwardFrame_joins {p n : Nat} {bs : List Byte} {d : Dev} (hforwards : forwards d = true)
    (hcalm : vget (portOf d (1 - p)).storm n none = none) (hroom : egressRoom d p n (bs.length + 4) = true) (env : Env) :
    forwardFrame env p n bs d = pfcCheck env p n (updPort (1 - p) (fun x => { x with
      egress := x.egress ++ [{ bytes := bs, from? := some p, prio := n, tick := env.tick }] }) d) := by
  have hring : d.cpt.ringOpen = false := by
    simp only [forwards, Bool.and_eq_true, Bool.not_eq_true'] at hforwards
    tauto
  simp [forwardFrame, hring, hforwards, hcalm, EFrame.len, hroom]

/-- The frame waits unchanged behind those of its egress buffer; nothing joins the other one or XPT. -/
theorem forwardFrame_buffers {p n : Nat} {bs : List Byte} {d : Dev} (hp : p < 2) (hforwards : forwards d = true)
    (hcalm : vget (portOf d (1 - p)).storm n none = none) (hroom : egressRoom d p n (bs.length + 4) = true) (env : Env) :
    let e := forwardFrame env p n bs d
    (portOf e (1 - p)).egress = (portOf d (1 - p)).egress ++ [⟨bs, some p, n, env.tick, false⟩] ∧
      (portOf e p).egress = (portOf d p).egress ∧ e.xpt.rx = d.xpt.rx := by
  intro e
  have he : e = _ := forwardFrame_joins hforwards hcalm hroom env
  rw [he]
  refine ⟨?_, ?_, ?_⟩
  · rw [egress_pfcCheck, portOf_updPort_same _ (by omega)]
  · rw [egress_pfcCheck, portOf_updPort_ne (by omega)]
  · obtain ⟨ps, hps⟩ := pfcCheck_changes env p n (updPort (1 - p) (fun x => { x with
      egress := x.egress ++ [{ bytes := bs, from? := some p, prio := n, tick := env.tick }] }) d)
    rw [hps]
    rfl

/-! ### A frame that fails its check (R266) -/

theorem badFrame_fcs {p : Nat} {f : FrameIn} (hmerged : f.mergeErr = none) (hwhole : f.linkFails = false)
    (hlow : 60 ≤ f.bytes.length) (hhigh : f.bytes.length ≤ 9212) (hfcs : f.fcsOk = false) (hstomped : f.stomped = false)
    (env : Env) (d : Dev) : badFrame env p f d =
      some (1, event env 0x0201 2 clsProtocol p (f.bytes.length + 4) 0 0 (partnerErr env p 2 d)) := by
  simp [badFrame, hmerged, hwhole, hfcs, hstomped, show ¬ 9216 < f.bytes.length + 4 by omega,
    show ¬ f.bytes.length + 4 < 64 by omega]

/-- Whether a frame has started looks at the ports alone. -/
theorem startedOn_of_cpt {d e : Dev} (h : e.cpt = d.cpt) (env : Env) (p n : Nat) (f : FrameIn) :
    startedOn env p n f e = startedOn env p n f d := by
  simp only [startedOn, forwards, portOf, h]

theorem startedOn_portCount {p : Nat} (hp : p < 2) (env : Env) (n i : Nat) (f : FrameIn) (d : Dev) :
    startedOn env p n f (portCount p i d) = startedOn env p n f d := by
  have hother : portOf (portCount p i d) (1 - p) = portOf d (1 - p) := portOf_updPort_ne (by omega) _ d
  simp only [startedOn, forwards_portCount, hother]

/-! ### Egress and pauses (R267, R275, R276) -/

/-- The drive once frame `g` has left port `p`'s buffer. -/
def frameOut (p : Nat) (g : EFrame) (d : Dev) : Dev :=
  portCount p 1 (updPort p (fun y => { y with
    egress := y.egress.erase g, sent := y.sent ++ [g], ownLast := vset y.ownLast g.prio g.from?.isNone }) d)

/-- A frame of another station that has left is charged, and the flow control of the port it came from follows (R362). -/
def forwardCharged (env : Env) (g : EFrame) (d : Dev) : Dev :=
  match g.from? with
  | none => d
  | some k => pfcCheck env k g.prio (charge 0 (energyV2 d 1000 g.len 1024) d)

theorem forwardCharged_own {g : EFrame} (h : g.from? = none) (env : Env) (d : Dev) : forwardCharged env g d = d := by
  simp only [forwardCharged, h]

theorem forwardCharged_forwarded {g : EFrame} {k : Nat} (h : g.from? = some k) (env : Env) (d : Dev) :
    forwardCharged env g d = pfcCheck env k g.prio (charge 0 (energyV2 d 1000 (g.bytes.length + 4) 1024) d) := by
  simp only [forwardCharged, h, EFrame.len]

theorem egressFrameStart_next {s : State} {p : Nat} {g : EFrame} (hp : p < 2) (hlink : (portOf s.dev p).link = true)
    (hstays : s.dev.cpt.op ≠ .removing) (hturn : nextFrame s.env (forwardHeld s.dev) (portOf s.dev p) = some g) :
    NextDev (.egressFrameStart p) s (forwardCharged s.env g (frameOut p g s.dev)) := by
  have hmay : ¬ (2 ≤ p || !(portOf s.dev p).link || s.dev.cpt.op == .removing) = true := by simp [hlink, hp, hstays]
  change execEgressFrameStart p s = _
  simp only [execEgressFrameStart, onDev_next, if_neg hmay, hturn]
  rfl

theorem pauseExpiry_next {s : State} {p n u : Nat} (h : vget (portOf s.dev p).pausedUntil n none = some u) :
    NextDev (.pauseExpiry p n) s (if u ≤ s.env.tick then updPort p (fun y => { y with
      pausedUntil := vset y.pausedUntil n none, pausedSince := vset y.pausedSince n none }) s.dev else s.dev) := by
  change execPauseExpiry p n s = _
  simp only [execPauseExpiry, onDev_next, h]

theorem pfcXoffRefresh_next {s : State} {p n t : Nat} (hxoff : vget (portOf s.dev p).xoff n none = some t)
    (hdue : t + 500 ≤ s.env.tick) (hheld : xonBytes (portOf s.dev p) < heldFrom s.dev p n)
    (hlink : (portOf s.dev p).link = true) :
    NextDev (.pfcXoffRefresh p n) s (sendPfc s.env p n 65535
      (updPort p (fun y => { y with xoff := vset y.xoff n (some s.env.tick) }) s.dev)) := by
  change execPfcXoffRefresh p n s = _
  exact onDev_eq (by simp [hxoff, hdue, hheld, hlink])

/-! ### The pause watchdog (R277, R278) -/

/-- The watchdog of a priority is due at a step of the wheel once the pause has stood for PAUSE_MS over a frame that waits. -/
theorem stormDue_of {env : Env} {x : Port} {n t : Nat} (hsince : vget x.pausedSince n none = some t)
    (hpaused : pausedNow env x n = true) (hwaits : x.egress.filter (fun y => y.prio == n) ≠ [])
    (hdue : t + stormTicks x ≤ 250 * (env.tick / 250)) (hcalm : vget x.storm n none = none) : stormDue env x n = true := by
  have hany : x.egress.any (fun y => y.prio == n) = true := by
    obtain ⟨y, hy⟩ := List.exists_mem_of_ne_nil _ hwaits
    exact List.any_eq_true.mpr ⟨y, List.mem_filter.mp hy⟩
  simp [stormDue, hsince, hpaused, hany, wheelDue, wheelStep, hdue, hcalm]

theorem pfcStorm_next {s : State} {p n : Nat} (h : stormDue s.env (portOf s.dev p) n = true) :
    NextDev (.pfcStorm p n) s (event s.env 0x0204 4 clsProtocol p n 0 0 (setCause s.env 2 0x90
      (pfcCheck s.env (1 - p) n (updPort p (fun y => { y with
        storm := vset y.storm n (some s.env.tick), pausedUntil := vset y.pausedUntil n none,
        pausedSince := vset y.pausedSince n none, egress := y.egress.filter (fun z => z.prio != n),
        counts := vupd y.counts 16 (· + ((portOf s.dev p).egress.filter (fun z => z.prio == n)).length) }) s.dev)))) := by
  change execPfcStorm p n s = _
  exact onDev_eq (if_neg (by simp [h]))

theorem pfcStormEnd_next {s : State} {p n t : Nat} (hstorm : vget (portOf s.dev p).storm n none = some t)
    (hquiet : vget (portOf s.dev p).lastPause n 0 + recoverTicks (portOf s.dev p) ≤ s.env.tick) :
    NextDev (.pfcStormEnd p n) s (event s.env 0x0205 1 clsProtocol p n ((s.env.tick - t) / 25000) 0
      (updPort p (fun y => { y with storm := vset y.storm n none }) s.dev)) := by
  change execPfcStormEnd p n s = _
  exact onDev_eq (by simp [hstorm, hquiet])

/-! ### The statement -/

/-- Settles O43: a frame by its row or its fault, the egress buffers, and flow control. -/
theorem framesAreForwarded : Obligations.FramesAreForwarded := by
  intro s p n t0 f g hp x h prio d1 row i waiting
  have hprio : rxPrio (portOf d1 p) h = prio := rxPrio_portCount p 0 h s.dev
  refine ⟨fun hlink hins hframe hgood => ?good, fun hlink hins hframe hmerged hwhole hlow hhigh hfcs hstomped hunsent => ?bad,
    fun hdeaf => frameReceive_next (frameIn_deaf hdeaf f s.env), ?sent,
    fun hpaused => ⟨fun hover => nextDev_of_eq (pauseExpiry_next hpaused) (if_pos hover),
      fun hruns => nextDev_of_eq (pauseExpiry_next hpaused) (if_neg (Nat.not_le.mpr hruns))⟩,
    pfcXoffRefresh_next, fun hsince hpaused hwaits hdue hcalm => pfcStorm_next (stormDue_of hsince hpaused hwaits hdue hcalm),
    pfcStormEnd_next⟩
  case good =>
    have hin := frameIn_good hp hlink hins hframe hgood
    have hforward (hrow : row = .forward) : NextDev i s (forwardFrame s.env p prio f.bytes d1) :=
      frameReceive_next (hin.trans (hprio ▸ goodFrame_forward s.env hrow))
    refine ⟨hforward, fun hrow hforwards hcalm hroom => ⟨_, hforward hrow, rfl, ?joins⟩,
      fun hrow => frameReceive_next (hin.trans (goodFrame_pause s.env hrow)),
      fun hrow => frameReceive_next (hin.trans (goodFrame_macctl s.env hrow)),
      fun hrow => frameReceive_next (hin.trans (goodFrame_linkLocal s.env hrow)),
      fun hrow hact hawake => frameReceive_next (hin.trans (goodFrame_delivered s.env hrow hact hawake)),
      fun hrow hact => frameReceive_next (hin.trans (goodFrame_rejected s.env hrow hact))⟩
    have hother : portOf d1 (1 - p) = portOf s.dev (1 - p) := portOf_updPort_ne (by omega) _ s.dev
    have hown : (portOf d1 p).egress = x.egress := portOf_portCount_keeps Port.egress (fun _ _ => rfl) p 0 p s.dev
    rw [← hother, ← hown]
    exact forwardFrame_buffers hp ((forwards_portCount p 0 s.dev).trans hforwards) (hother ▸ hcalm) hroom s.env
  case bad =>
    refine frameReceive_next (frameIn_bad hp hlink hins hframe
      (badFrame_fcs hmerged hwhole hlow hhigh hfcs hstomped s.env d1) ?_)
    have hcpt : (event s.env 0x0201 2 clsProtocol p (f.bytes.length + 4) 0 0 (partnerErr s.env p 2 d1)).cpt =
        (portCount p 2 d1).cpt := by simp [partnerErr]
    have hsame : rxPrio (portOf (portCount p 2 d1) p) h = prio := (rxPrio_portCount p 2 h d1).trans hprio
    rw [startedOn_of_cpt hcpt, startedOn_portCount hp, startedOn_portCount hp]
    simpa only [portOf, hcpt] using hsame.symm ▸ hunsent
  case sent =>
    intro hlink hstays hturn out
    have hnext := egressFrameStart_next hp hlink hstays hturn
    exact ⟨fun hown => nextDev_of_eq hnext (forwardCharged_own hown s.env out),
      fun k hfrom => nextDev_of_eq hnext (forwardCharged_forwarded hfrom s.env out)⟩

end Sys2Proof.Proofs
end

section
/-! The links, the ring and the bypass switch (08, R252–R263, R269, R270, R273, R280, R365), and CHAIN_CONTROL (13, R409). -/

namespace Sys2Proof.Proofs

open Sys2Proof.Machine Sys2Proof.Claims Sys2Proof.Laws

/-! ### Links and verification (R263, R273) -/

theorem linkDown_next {s : State} {p k : Nat} (hp : p < 2) (hlow : 1 ≤ k) (hhigh : k ≤ 3) :
    NextDev (.linkDown p k) s (portDown s.env p k s.dev) := by
  change execLinkDown p k s = _
  exact onDev_eq (if_neg (by simp; omega))

/-- A link that comes up where no command waits for a port. -/
theorem linkUp_next {s : State} {p : Nat} (hp : p < 2) (hdown : (portOf s.dev p).link = false) (hins : s.dev.cpt.bypass = 1)
    (hstays : s.dev.cpt.op ≠ .removing) (hnone : s.dev.cpt.cmds = []) (ms : Nat) :
    NextDev (.linkUp p ms) s (event s.env 0x020E 0 clsHardware p ms 0 0 (setCause s.env 2 1 (pfcCheckAll s.env p
      (updPort p (fun y => { y with link := true, fecLock := true, preempt := false, verify := b2n (bitOf y.pctrl 24),
                                    verifyAt := s.env.tick, resetting := false }) s.dev)))) := by
  have hmay : ¬ (2 ≤ p || (portOf s.dev p).link || decide (s.dev.cpt.bypass ≠ 1) || s.dev.cpt.op == .removing) = true := by
    simp [hp, hdown, hins, hstays]
  change execLinkUp p ms s = _
  exact onDev_eq (by simp only [if_neg hmay, hnone])

theorem preemptVerifyFailed_next {s : State} {p : Nat} (hasks : (portOf s.dev p).verify = 1)
    (hdue : (portOf s.dev p).verifyAt + 750000 ≤ s.env.tick) :
    NextDev (.preemptVerifyFailed p) s (event s.env 0x0207 3 clsProtocol p 0 0 0 (setCause s.env 2 0x20
      (portCount p 21 (updPort p (fun y => { y with verify := 3, preempt := false }) s.dev)))) := by
  change execPreemptVerifyFailed p s = _
  exact onDev_eq (if_neg (by simp [hasks, Config.ms, hdue]))

/-! ### The ring (R269, R270) -/

theorem ringProbe_next {s : State} (hprobes : s.dev.cpt.probeMs ≠ 0)
    (hdue : s.dev.cpt.lastProbe + probeTicks s.dev ≤ s.env.tick) :
    NextDev .ringProbe s
      (sendProbe s.env 1 (sendProbe s.env 0 { s.dev with cpt := { s.dev.cpt with lastProbe := s.env.tick } })) := by
  change execRingProbe s = _
  exact onDev_eq (if_neg (by simpa [hdue] using hprobes))

theorem ringOpened_next {s : State} (hclosed : s.dev.cpt.ringOpen = false) (hseen : ringSeen s.env s.dev = true)
    (hlowest : recent s.env s.dev s.dev.cpt.lowerProbe = false) :
    NextDev .ringOpened s (event s.env 0x0212 3 clsProtocol ringSrc 0 0 0 (setCause s.env 2 0x40
      { s.dev with cpt := { s.dev.cpt with ringOpen := true } })) := by
  change execRingOpened s = _
  exact onDev_eq (if_neg (by simp [hclosed, hseen, hlowest]))

/-- A ring whose probe no longer comes back closes with cause 1. -/
theorem ringClosed_next {s : State} (hopen : s.dev.cpt.ringOpen = true) (hlost : ringSeen s.env s.dev = false) :
    NextDev .ringClosed s (event s.env 0x0213 1 clsProtocol ringSrc 1 0 0 (setCause s.env 2 0x40
      { s.dev with cpt := { s.dev.cpt with ringOpen := false } })) := by
  change execRingClosed s = _
  exact onDev_eq (by simp [hopen, hlost, updCpt])

/-! ### Insertion and the switch (R253–R259) -/

section
variable {s : State}

theorem insertSelftestDone_passes (hop : s.dev.cpt.op = .selftest) (lanes : W32) :
    NextDev (.insertSelftestDone true lanes) s { s.dev with cpt := { s.dev.cpt with
      selftestOk := true, hold := true, bypass := 2, op := .inserting, opTick := s.env.tick,
      lastCause := s.dev.cpt.opCause } } := by
  change execInsertSelftestDone true lanes s = _
  exact onDev_eq (by simp [hop, updCpt])

theorem insertSelftestDone_fails (hop : s.dev.cpt.op = .selftest) (lanes : W32) :
    NextDev (.insertSelftestDone false lanes) s (chainDone s.env 0 scChainDown (insertFailed s.env 1 lanes.toNat
      { s.dev with cpt := { s.dev.cpt with selftestOk := false, op := .none, optics := false } })) := by
  change execInsertSelftestDone false lanes s = _
  exact onDev_eq (by simp [hop, updCpt])

theorem bypassChanged_inserted (hop : s.dev.cpt.op = .inserting) :
    NextDev .bypassChanged s (event s.env 0x020F 1 clsHardware 0xFF 1 s.dev.cpt.lastCause 0
      (setCause s.env 2 2 { s.dev with cpt := { s.dev.cpt with bypass := 1, sensed := true, op := .locking s.env.tick } })) := by
  change execBypassChanged s = _
  exact onDev_eq (by simp only [hop, updCpt])

theorem bypassChanged_removed (hop : s.dev.cpt.op = .removing) : NextDev .bypassChanged s (bypassed s.env s.dev) := by
  change execBypassChanged s = _
  exact onDev_eq (by simp only [hop])

/-- A port still down when the insertion succeeds is reported down, with one of the three causes (R258, R263). -/
def reportIfDown (env : Env) (p : Nat) (d : Dev) : Dev :=
  if (portOf d p).link then d else reportDown env p (1 + (takeFree d).1.toNat % 3) (takeFree d).2

theorem portOf_reportIfDown (env : Env) (p q : Nat) (d : Dev) : portOf (reportIfDown env p d) q = portOf d q := by
  unfold reportIfDown
  split
  · rfl
  · simp only [portOf, reportDown, event_cpt, setCause_cpt, takeFree]

/-- With one port up the other alone can be reported. -/
theorem reportIfDown_other {p : Nat} {d : Dev} (hp : p < 2) (hup : (portOf d p).link = true) (env : Env) :
    reportIfDown env 1 (reportIfDown env 0 d) = reportIfDown env (1 - p) d := by
  obtain rfl | rfl : p = 0 ∨ p = 1 := by omega
  · exact congrArg (reportIfDown env 1) (if_pos hup)
  · exact if_pos ((portOf_reportIfDown env 0 1 d).symm ▸ hup)

/-- 200 ms after INSERTED one port up is enough (R258). -/
theorem insertDecision_succeeds {t p : Nat} (hop : s.dev.cpt.op = .locking t) (hdue : t + 5000000 ≤ s.env.tick) (hp : p < 2)
    (hup : (portOf s.dev p).link = true) : NextDev .insertDecision s (chainDone s.env 0 scOk
      (reportIfDown s.env (1 - p) (updCpt (fun c => { c with op := .none }) s.dev))) := by
  have hone : ((portOf s.dev 0).link || (portOf s.dev 1).link) = true := by
    obtain rfl | rfl : p = 0 ∨ p = 1 := by omega
    · simp [hup]
    · simp [hup]
  have hwaited : ¬ s.env.tick < t + 200 * Config.ms := Nat.not_lt.mpr hdue
  have hended : (portOf (updCpt (fun c => { c with op := .none }) s.dev) p).link = true := hup
  rw [← reportIfDown_other hp hended]
  change execInsertDecision s = _
  refine onDev_eq ?_
  simp only [hop, if_neg hwaited, hone, if_true]
  rfl

/-- A switch that has not come to rest where it was sent: in FAULT, both links down and the optics off, reported (R255). -/
def bypassFaulted (env : Env) (d : Dev) : Dev :=
  event env 0x0210 6 clsHardware 0xFF (b2n d.cpt.hold) (b2n d.cpt.sensed) 0 (setCause env 2 4
    (updCpt (fun c => { c with hold := false, bypass := 3, op := .none, optics := false, lastCause := 4, opTick := env.tick })
      (portDown env 0 1 (portDown env 1 1 d))))

theorem bypassFault_inserting (hop : s.dev.cpt.op = .inserting) (hdue : s.dev.cpt.opTick + 750000 ≤ s.env.tick)
    (hstuck : s.dev.cpt.sensed ≠ s.dev.cpt.hold) : NextDev .bypassFault s (chainNext s.env (chainDone s.env 0 scChainDown
      (insertFailed s.env 3 0 (bypassFaulted s.env s.dev)))) := by
  change execBypassFault s = _
  refine onDev_eq ((if_neg ?_).trans ?_)
  · simp [hop, motionTicks, Config.ms, hdue, hstuck]
  · simp only [hop, beq_self_eq_true, if_true]
    rfl

theorem bypassFaulted_cpt (env : Env) (d : Dev) :
    (bypassFaulted env d).cpt.bypass = 3 ∧ (bypassFaulted env d).cpt.op = .none ∧ (bypassFaulted env d).cpt.optics = false := by
  simp [bypassFaulted]

theorem aux12vLoss_next (haux : s.env.pw.aux12 = true) (hmain : s.env.pw.main = true) :
    let env' : Env := { s.env with pw := { s.env.pw with aux12 := false } }
    exec .aux12vLoss s = .next { s with env := env', dev := removeNow env' 3 (supplyLost env' s.dev) } := by
  intro env'
  change execAux12vLoss s = _
  simp [execAux12vLoss, onEnv_next, haux, hmain, env']

end

/-! ### CHAIN_CONTROL (R409) -/

@[simp] theorem schedule_cpt (env : Env) (e : Nat) (d : Dev) : (schedule env e d).cpt = d.cpt := by
  unfold schedule
  split
  · rfl
  · split <;> simp

/-- A task that waits leaves the chain as it is. -/
@[simp] theorem park_cpt (env : Env) (t : Task) (d : Dev) : (park env t d).cpt = d.cpt := by
  unfold park
  split
  · obtain ⟨b, gs, hcharge⟩ := chargeFor_changes t.wclass t.group (energyV2 d 200 t.instrs 1) d
    simp [leaveRunning, chargeInstrs, hcharge]
  · rfl

/-- A command from no chain flow takes its place in the queue, and its task waits. -/
theorem chainControl_queues {t : Task} {d : Dev} {action : Nat} (haction : cap t.capsule 6 1 = action)
    (hfirst : (d.mea.tasks.takeWhile (fun y => y.ref != t.ref)).any (fun y => capOpc y.capsule == 0x54 &&
      !y.completed && y.job.phase == .start && y.kind != .hook) = false)
    (hstart : t.job.phase = .start) (hhost : t.kind ≠ .act) (env : Env) :
    let t1 : Task := { t with job := { t.job with phase := .waitDrive } }
    let parked := park env t1 (putTask t1 d)
    chainControl action env t d = chainNext env { parked with cpt := { parked.cpt with
      cmds := d.cpt.cmds ++
        [{ task := some t.ref, action := cap t.capsule 6 1, port := cap t.capsule 7 1, since := env.tick }] } } := by
  intro t1 parked
  have hcmds : parked.cpt.cmds = d.cpt.cmds := by simp [parked]
  have hmay : ¬ (decide (cap t.capsule 6 1 ≠ action) || t.job.phase != .start ||
      (d.mea.tasks.takeWhile (fun y => y.ref != t.ref)).any (fun y => capOpc y.capsule == 0x54 &&
        !y.completed && y.job.phase == .start && y.kind != .hook)) = true := by
    rw [hfirst]
    simp [haction, hstart]
  have hkind : ¬ (t.kind == .act && decide (action ≠ 0)) = true := by simp [hhost]
  unfold chainControl
  dsimp only
  rw [if_neg hmay, if_neg hkind, ← hcmds, haction]
  rfl

/-- A port reset whose link has not come within 200 ms ends the command. -/
theorem portResetTimeout_next {s : State} {c : ChainCmd} {rest : List ChainCmd} (hcmds : s.dev.cpt.cmds = c :: rest)
    (hstarted : c.started = true) (hreset : c.action = 2) (hdue : c.since + 5000000 ≤ s.env.tick)
    (hdown : (portOf s.dev c.port).link = false) : NextDev .portResetTimeout s (chainDone s.env 2 scChainDown s.dev) := by
  change execPortResetTimeout s = _
  exact onDev_eq (by simp [hcmds, hstarted, hreset, Config.ms, hdue, hdown])

/-! ### The statement -/

/-- Settles O44: each event of the links, the ring, the switch and CHAIN_CONTROL where its condition holds. -/
theorem linksRingAndSwitch : Obligations.LinksRingAndSwitch := by
  intro s p ms k t0 lanes a b r t c rest hp x up old ready mine t1 alone
  refine ⟨linkDown_next hp, fun hdown hins hstays hnone => linkUp_next hp hdown hins hstays hnone ms, preemptVerifyFailed_next,
    rfl, ringProbe_next, ringOpened_next, ringClosed_next,
    fun hop => ⟨insertSelftestDone_passes hop lanes, insertSelftestDone_fails hop lanes⟩, bypassChanged_inserted,
    bypassChanged_removed, ?decision,
    fun hop hdue hstuck => ⟨_, bypassFault_inserting hop hdue hstuck, _, rfl, bypassFaulted_cpt s.env s.dev⟩,
    aux12vLoss_next, rfl, rfl, ?control, portResetTimeout_next, rfl⟩
  case decision =>
    intro hop hdue hup ended f
    have hnext := insertDecision_succeeds hop hdue hp hup
    exact ⟨fun hother => nextDev_of_eq hnext (congrArg (chainDone s.env 0 scOk) (if_pos hother)),
      fun hother => nextDev_of_eq hnext (congrArg (chainDone s.env 0 scOk) (if_neg (ne_true_of_eq_false hother)))⟩
  case control =>
    intro hserving hfirst hstart hhost queued
    have hqueues {action : Nat} (haction : cap t.capsule 6 1 = action) : chainControl action s.env t s.dev = queued :=
      chainControl_queues haction hfirst hstart hhost s.env
    exact ⟨fun h => serve_next hserving (hqueues h), fun h => serve_next hserving (hqueues h),
      fun h => serve_next hserving (hqueues h)⟩

end Sys2Proof.Proofs
end

section
/-! What sending on a flow leaves alone, and how a delivered message reaches its flow (09, R285–R288, R294, R295). -/

namespace Sys2Proof.Proofs

open Sys2Proof.Machine Sys2Proof.Claims Sys2Proof.Laws

/-! ### What sending leaves of the tasks and arrivals -/

@[simp] theorem updFlow_mea (id : Nat) (f : Flow → Flow) (d : Dev) : (updFlow id f d).mea = d.mea := by
  unfold updFlow; split <;> rfl

@[simp] theorem queueFrame_mea (env : Env) (port : Nat) (f : EFrame) (d : Dev) : (queueFrame env port f d).mea = d.mea := by
  unfold queueFrame partnerErr
  dsimp only
  split
  · exact setCause_mea ..
  · split
    · exact setCause_mea ..
    · rfl

@[simp] theorem sendOnFlow_mea (env : Env) (id : Nat) (fl : Flow) (kind seq cid doff : Nat) (last nak : Bool)
    (payload : List Byte) (d : Dev) : (sendOnFlow env id fl kind seq cid doff last nak payload d).mea = d.mea := by
  have hfield : (seqField kind seq d).2.mea = d.mea := by unfold seqField; split <;> rfl
  exact (queueFrame_mea ..).trans hfield

@[simp] theorem bareAck_mea (env : Env) (id : Nat) (nak : Bool) (d : Dev) : (bareAck env id nak d).mea = d.mea := by
  unfold bareAck
  split
  · rfl
  · exact (updFlow_mea ..).trans (sendOnFlow_mea ..)

@[simp] theorem acceptSeq_mea (env : Env) (id : Nat) (d : Dev) : (acceptSeq env id d).mea = d.mea := by
  unfold acceptSeq
  dsimp only
  split
  · split
    · exact (bareAck_mea ..).trans (updFlow_mea ..)
    · exact updFlow_mea ..
  · exact updFlow_mea ..

/-! ### What a frame sent leaves of the flows: a report on the way may owe them an ATTN (R303) -/

/-- A flow but for the ATTN it is owed. -/
def besideAttn (f : Flow) : Flow := { f with attnDue := false }

/-- A flow as it stands under its id, but for the ATTN it is owed. -/
def flowAt (d : Dev) (id : Nat) : Option Flow := (flowOf d id).map besideAttn

theorem sendMsi_xpt (v : Nat) (d : Dev) : (sendMsi v d).xpt = d.xpt := by
  unfold sendMsi
  dsimp only
  split
  · split
    · rfl
    · split <;> rfl
  · rfl

theorem attnRaise_xpt (env : Env) (d : Dev) : (attnRaise env d).xpt = d.xpt := by
  unfold attnRaise
  split
  · rfl
  · split
    · split
      · rfl
      · exact sendMsi_xpt ..
    · exact sendMsi_xpt ..

theorem flowAt_markFlows (d : Dev) (id : Nat) : flowAt (markFlows d) id = flowAt d id := by
  let mark (f : Flow) : Flow := if f.subscribe then { f with attnDue := true } else f
  have hmark : (markFlows d).xpt.flows = d.xpt.flows.map (fun e => (e.1, mark e.2)) := by
    refine List.map_congr_left fun e _ => ?_
    simp only [mark]
    split <;> rfl
  have hbeside (f : Flow) : besideAttn (mark f) = besideAttn f := by
    simp only [mark]
    split <;> rfl
  simp only [flowAt, flowOf, hmark, tblGet_map, Option.map_map]
  exact congrArg (Option.map · _) (funext hbeside)

theorem flowAt_setCause (env : Env) (n : Nat) (bits : W32) (d : Dev) (id : Nat) :
    flowAt (setCause env n bits d) id = flowAt d id := by
  have hraise (e : Dev) : flowAt (attnRaise env e) id = flowAt e id := by simp only [flowAt, flowOf, attnRaise_xpt]
  unfold setCause attnEdit
  dsimp only
  split <;> split
  · rfl
  · exact hraise _
  · exact flowAt_markFlows ..
  · exact (hraise _).trans (flowAt_markFlows ..)

theorem flowAt_queueFrame (env : Env) (port : Nat) (f : EFrame) (d : Dev) (id : Nat) :
    flowAt (queueFrame env port f d) id = flowAt d id := by
  unfold queueFrame partnerErr
  dsimp only
  split
  · exact flowAt_setCause ..
  · split
    · exact flowAt_setCause ..
    · rfl

/-! ### The oldest message delivered (R286) -/

/-- The oldest message delivered is from the client of the open flow it names. -/
structure FromClient (s : State) (m : ActMsg) (rest : List ActMsg) (id : Nat) (fl : Flow) : Prop where
  rx : s.dev.xpt.rx = m :: rest
  flow : flowOf s.dev (hdrOf m.bytes).dflow = some fl
  dflow : (hdrOf m.bytes).dflow = id
  client : fl.client = m.src
  sflow : fl.sflow.toNat = (hdrOf m.bytes).sflow

/-- The message is the one its flow expects, within its window, and acknowledges nothing. -/
structure NextInSequence (m : ActMsg) (fl : Flow) : Prop where
  plain : (hdrOf m.bytes).ackValid = false
  expected : (hdrOf m.bytes).seq = fl.rxNext
  window : seqBefore (hdrOf m.bytes).seq fl.rxWin = true

/-- The drive with its oldest message taken. -/
def restDev (s : State) (rest : List ActMsg) : Dev := { s.dev with xpt := { s.dev.xpt with rx := rest } }

/-- That drive, a flow's client just heard from. -/
def heardDev (s : State) (rest : List ActMsg) (id : Nat) : Dev :=
  updFlow id (fun f => { f with lastRx := s.env.tick }) (restDev s rest)

/-- And the flow bound to the port of the message (R288). -/
def boundDev (s : State) (m : ActMsg) (rest : List ActMsg) (id : Nat) : Dev :=
  updFlow id (fun f => { f with port := m.port }) (heardDev s rest id)

/-- A kind whose messages are sequenced when a client sends them (R287). -/
abbrev SequencedKind (kind : Nat) : Prop := kind = kClose ∨ kind = kCmd ∨ kind = kData

/-- Its flow's own message: what it acknowledges is looked at, then the rest. -/
theorem onFlow_eq {s : State} {m : ActMsg} {rest : List ActMsg} {id : Nat} {fl : Flow}
    (hfrom : FromClient s m rest id fl) (k : Nat → Flow → Dev → Dev) :
    onFlow s.env m (hdrOf m.bytes) k (restDev s rest) =
      if !(hdrOf m.bytes).ackValid then k id fl (bindPort m (hdrOf m.bytes) (heardDev s rest id))
      else if seqBefore (firstUnsent fl) (hdrOf m.bytes).ack then
        xptFault s.env 7 0x0307 2 m.port id (hdrOf m.bytes).ack.toNat 0 (heardDev s rest id)
      else
        let acked := takeAck s.env id fl (hdrOf m.bytes) (bindPort m (hdrOf m.bytes) (heardDev s rest id))
        match flowOf acked id with
        | some fl2 => k id fl2 acked
        | none => acked := by
  obtain ⟨hrx, hflow, hdflow, hclient, hsflow⟩ := hfrom
  have hopen : flowOf (restDev s rest) id = some fl := hdflow ▸ hflow
  have hmine : ¬ (decide (fl.client ≠ m.src) || decide (fl.sflow.toNat ≠ (hdrOf m.bytes).sflow)) = true := by
    simp [hclient, hsflow]
  simp only [onFlow, hdflow, hopen, if_neg hmine]
  rfl

section
variable {s : State} {m : ActMsg} {rest : List ActMsg} {kind : Nat} (hkind : (hdrOf m.bytes).kind = kind)
include hkind

theorem onMsg_next {f : Env → ActMsg → Hdr → Dev → Dev} {d : Dev} (hrx : s.dev.xpt.rx = m :: rest)
    (hd : f s.env m (hdrOf m.bytes) (restDev s rest) = d) :
    onMsg kind f s = .next { s with dev := d } := by
  rw [onMsg]
  refine onDev_eq ?_
  simp only [hrx, if_pos hkind]
  exact hd

theorem bindPort_sequenced (hseq : SequencedKind kind) (d : Dev) :
    bindPort m (hdrOf m.bytes) d = updFlow (hdrOf m.bytes).dflow (fun f => { f with port := m.port }) d :=
  if_pos (hkind ▸ hseq)

theorem bindPort_other (hother : ¬ SequencedKind kind) (d : Dev) : bindPort m (hdrOf m.bytes) d = d :=
  if_neg (hkind ▸ hother)

variable {id : Nat} {fl : Flow} (hfrom : FromClient s m rest id fl)
include hfrom

/-- A message of a kind that is not sequenced, acknowledging nothing. -/
theorem unsequenced_next (hother : ¬ SequencedKind kind) (hplain : (hdrOf m.bytes).ackValid = false)
    (k : Env → Nat → Flow → Dev → Dev) : onMsg kind (fun env m h d => onFlow env m h (k env) d) s =
      .next { s with dev := k s.env id fl (heardDev s rest id) } := by
  refine onMsg_next hkind hfrom.rx ?_
  rw [onFlow_eq hfrom, hplain, bindPort_other hkind hother]
  rfl

/-- A message next in sequence is taken, on the flow bound to its port. -/
theorem sequenced_next (hseq : SequencedKind kind) (hnext : NextInSequence m fl)
    (k : Env → ActMsg → Hdr → Nat → Flow → Dev → Dev) :
    onMsg kind (fun env m h d => onFlow env m h (fun id fl => inSequence env m h id fl (k env m h id fl)) d) s =
      .next { s with dev := k s.env m (hdrOf m.bytes) id fl (boundDev s m rest id) } := by
  obtain ⟨hplain, hexpected, hwindow⟩ := hnext
  refine onMsg_next hkind hfrom.rx ?_
  rw [onFlow_eq hfrom, hplain, bindPort_sequenced hkind hseq, hfrom.dflow]
  simp only [inSequence, hwindow, Bool.not_true, Bool.not_false, Bool.false_eq_true, if_false, if_true, if_pos hexpected]
  rfl

end

end Sys2Proof.Proofs
end

section
/-! Messages of flows (09, R289–R300, R307): OPEN, CLOSE, commands and their data, acknowledgements and resets. -/

namespace Sys2Proof.Proofs

open Sys2Proof.Machine Sys2Proof.Claims Sys2Proof.Laws

/-! ### OPEN (R289, R292) -/

/-- An OPEN of a flow that does not exist yet is judged by its status. -/
theorem actOpen_next {s : State} {m : ActMsg} {rest : List ActMsg} (hrx : s.dev.xpt.rx = m :: rest)
    (hkind : (hdrOf m.bytes).kind = kOpen)
    (hnew : s.dev.xpt.flows.find? (fun y => y.2.client == m.src && y.2.sflow.toNat == (hdrOf m.bytes).sflow) = none) :
    let st := openStatus (restDev s rest) m.src (hdrOf m.bytes)
    NextDev .actOpen s (if st.1 = scOk then openFlow s.env m (hdrOf m.bytes) (restDev s rest)
      else refuseOpen s.env m (hdrOf m.bytes) st.1 st.2 (restDev s rest)) := by
  intro st
  change execActOpen s = _
  refine onMsg_next hkind hrx ?_
  have hfind : (restDev s rest).xpt.flows.find? (fun y => y.2.client == m.src && y.2.sflow.toNat == (hdrOf m.bytes).sflow) =
      none := hnew
  simp only [hfind]
  rfl

/-- A good OPEN finds a free flow id. -/
theorem freeFlowId_of_openStatus {d : Dev} {src : BitVec 48} {h : Hdr} (hok : (openStatus d src h).1 = scOk) :
    ∃ id, freeFlowId d = some id := by
  rcases hfree : freeFlowId d with _ | id
  · have hnone : (freeFlowId d).isNone = true := by rw [hfree]; rfl
    unfold openStatus at hok
    dsimp only at hok
    split at hok
    · simp at hok
    · split at hok
      · simp at hok
      · split at hok
        · simp at hok
        · simp [hnone] at hok
  · exact ⟨id, rfl⟩

theorem flowAt_ackFlow (env : Env) (id : Nat) (d : Dev) (k : Nat) : flowAt (ackFlow env id d) k = flowAt d k := by
  unfold ackFlow
  split
  · rfl
  · exact flowAt_queueFrame ..

/-- The flow opened is the client's, and expects the message after the OPEN. -/
theorem openFlow_opens {d : Dev} {id : Nat} (hid : freeFlowId d = some id) (env : Env) (m : ActMsg) (h : Hdr) :
    ∃ f, flowOf (openFlow env m h d) id = some f ∧ f.client = m.src ∧ f.rxNext = h.seq := by
  have hopen : ∃ fl, flowAt (openFlow env m h d) id = some (besideAttn fl) ∧ fl.client = m.src ∧ fl.rxNext = h.seq := by
    unfold openFlow
    simp only [hid]
    exact ⟨_, (flowAt_ackFlow ..).trans (congrArg (Option.map besideAttn) (tblGet_tblSet_same ..)), rfl, rfl⟩
  obtain ⟨fl, hat, hclient, hseq⟩ := hopen
  obtain ⟨f, hf, heq⟩ := Option.map_eq_some_iff.mp hat
  have hclients : (besideAttn f).client = (besideAttn fl).client := congrArg Flow.client heq
  have hseqs : (besideAttn f).rxNext = (besideAttn fl).rxNext := congrArg Flow.rxNext heq
  exact ⟨f, hf, hclients.trans hclient, hseqs.trans hseq⟩

/-! ### Commands (R299) -/

/-- The capsule of a CMD. -/
def cmdCapsule (h : Hdr) : V512 := bytesV512 (slice h.payload 0 64)

/-- What a command of a flow becomes as an arrival, before it has its number. -/
def cmdArrival (env : Env) (h : Hdr) (id : Nat) (fl : Flow) (key : List Byte) (hostGen : Nat) : Arrival :=
  { no := 0, kind := .act, capsule := cmdCapsule h, source := BitVec.ofNat 16 id, group := BitVec.ofNat 16 fl.group,
    prio := capPrio (cmdCapsule h), tick := env.tick, key := key, hostGen := hostGen, ordered := capOrdered (cmdCapsule h),
    opSrc := BitVec.ofNat 16 id, opFlow := true }

/-- A new arrival stands last, under the next number. -/
theorem joinArrival_last (a : Arrival) (d : Dev) : (joinArrival a d).mea.arrivals.length = d.mea.arrivals.length + 1 ∧
    ∃ held, (joinArrival a d).mea.arrivals.getLast? = some { a with no := d.mea.nextArrival, epochHeld := held } := by
  have hadd : (addArrival a d).mea.arrivals = d.mea.arrivals ++ [{ a with no := d.mea.nextArrival }] := rfl
  unfold joinArrival noteEpoch
  split
  · refine ⟨?_, true, ?_⟩
    · simp [updArrival, hadd]
    · simp [updArrival, hadd]
  · exact ⟨by simp [hadd], a.epochHeld, by simp [hadd]⟩

section
variable {h : Hdr} {fl : Flow} (hstream : fl.stream = none) (hlen : h.payload.length = 64) (hoff : h.doff = 0)
include hstream hlen hoff

/-- A command without a stream that a check of R173 rejects is answered at once. -/
theorem takeCmd_rejected {env : Env} {id : Nat} {d : Dev} {v : Verdict}
    (hneed : streamKey (cmdCapsule h) + streamData (cmdCapsule h) = 0)
    (hcheck : checkEntry (acceptSeq env id d) { kind := .act, id := id } (cmdCapsule h) = some v) (m : ActMsg) :
    let taken := acceptSeq env id d
    takeCmd env m h id fl d = sendResp env id none h.cid v.1 v.2 false (consumeOne id fl.group
      (if v.1 = scInvalidOpcode ∨ v.1 = scInvalidField ∨ v.1 = scTooLarge then setCause env 3 2 taken else taken)) := by
  intro taken
  have hbody : (h.payload.drop 64).length = 0 := by simp [hlen]
  refine (if_neg ?good).trans ?_
  case good => simp [hstream, hlen, hoff]
  unfold cmdCapsule at hcheck hneed
  simp only [hcheck, hneed, hbody, if_true]
  simp [taken]

/-- One that passes joins the arrivals. -/
theorem takeCmd_accepted {env : Env} {id : Nat} {d : Dev}
    (hcheck : checkEntry (acceptSeq env id d) { kind := .act, id := id } (cmdCapsule h) = none) (m : ActMsg) :
    ∃ key hostGen, (takeCmd env m h id fl d).mea =
      (joinArrival (cmdArrival env h id fl key hostGen) (acceptSeq env id d)).mea := by
  have htaken : takeCmd env m h id fl d = _ := if_neg (by simp [hstream, hlen, hoff])
  unfold cmdCapsule at hcheck
  simp only [hcheck] at htaken
  rw [htaken, updFlow_mea]
  exact ⟨_, _, rfl⟩

end

/-! ### Data (R299) -/

/-- What DATA in sequence does: it extends the stream of its flow, or it violates R299. -/
def judgeData (env : Env) (m : ActMsg) (h : Hdr) (id : Nat) (fl : Flow) (d : Dev) : Dev :=
  match fl.stream with
  | none => streamError env m h id d
  | some st =>
    if st.cid.toNat ≠ h.cid || st.have_ ≠ h.doff || st.need < st.have_ + h.payload.length then streamError env m h id d
    else takeData env h id fl st d

/-- Bytes of the stream that runs, from where it stands and within what it still needs, are taken. -/
theorem judgeData_fits {h : Hdr} {fl : Flow} {st : Stream} (hstream : fl.stream = some st) (hcid : st.cid.toNat = h.cid)
    (hoff : st.have_ = h.doff) (hfits : st.have_ + h.payload.length ≤ st.need) (env : Env) (m : ActMsg) (id : Nat) (d : Dev) :
    judgeData env m h id fl d = takeData env h id fl st d := by
  have hgood : ¬ (decide (st.cid.toNat ≠ h.cid) || decide (st.have_ ≠ h.doff) ||
      decide (st.need < st.have_ + h.payload.length)) = true := by
    simpa [hcid, hoff] using hoff ▸ hfits
  simp only [judgeData, hstream, if_neg hgood]

theorem judgeData_no_stream {fl : Flow} (hnone : fl.stream = none) (env : Env) (m : ActMsg) (h : Hdr) (id : Nat) (d : Dev) :
    judgeData env m h id fl d = streamError env m h id d := by
  simp only [judgeData, hnone]

/-! ### The rows -/

section
variable {s : State} {m : ActMsg} {rest : List ActMsg} {id : Nat} {fl : Flow} (hfrom : FromClient s m rest id fl)
include hfrom

theorem actClose_next (hnext : NextInSequence m fl) (hkind : (hdrOf m.bytes).kind = kClose) :
    NextDev .actClose s (consumeOne id fl.group (updFlow id (fun f => { f with closing := true })
      (acceptSeq s.env id (boundDev s m rest id)))) :=
  sequenced_next hkind hfrom (.inl rfl) hnext fun env _ _ id fl d =>
    consumeOne id fl.group (updFlow id (fun f => { f with closing := true }) (acceptSeq env id d))

/-- A CMD on a flow that is not closing is taken. -/
theorem actCmd_next (hnext : NextInSequence m fl) (hkind : (hdrOf m.bytes).kind = kCmd) (hopen : fl.closing = false) :
    NextDev .actCmd s (takeCmd s.env m (hdrOf m.bytes) id fl (boundDev s m rest id)) := by
  have htaken : NextDev .actCmd s _ := sequenced_next hkind hfrom (.inr (.inl rfl)) hnext fun env m h id fl d =>
    if fl.closing then xptFault env 7 0x0308 3 m.port id h.cid (h.doff % 2 ^ 32) d else takeCmd env m h id fl d
  exact nextDev_of_eq htaken (if_neg (ne_true_of_eq_false hopen))

/-- DATA in sequence is judged by the stream of its flow. -/
theorem actData_judged (hnext : NextInSequence m fl) (hkind : (hdrOf m.bytes).kind = kData) :
    NextDev .actData s (judgeData s.env m (hdrOf m.bytes) id fl (boundDev s m rest id)) :=
  sequenced_next hkind hfrom (.inr (.inr rfl)) hnext judgeData

/-- An ACK without an acknowledgement is a sign of life alone. -/
theorem actAck_plain (hplain : (hdrOf m.bytes).ackValid = false) (hkind : (hdrOf m.bytes).kind = kAck) :
    NextDev .actAck s (heardDev s rest id) :=
  unsequenced_next hkind hfrom (by decide) hplain fun _ _ _ d => d

/-- An ACK frees what it covers; one of a message not yet sent is discarded. -/
theorem actAck_next (hack : (hdrOf m.bytes).ackValid = true) (hkind : (hdrOf m.bytes).kind = kAck) :
    NextDev .actAck s (if seqBefore (firstUnsent fl) (hdrOf m.bytes).ack then
        xptFault s.env 7 0x0307 2 m.port id (hdrOf m.bytes).ack.toNat 0 (heardDev s rest id)
      else takeAck s.env id fl (hdrOf m.bytes) (heardDev s rest id)) := by
  change execActAck s = _
  refine onMsg_next hkind hfrom.rx ?_
  rw [onFlow_eq hfrom, hack, bindPort_other hkind (by decide)]
  simp only [Bool.not_true, Bool.false_eq_true, if_false]
  split
  · rfl
  · split <;> rfl

/-- A RESET from the client ends the flow. -/
theorem actReset_next (hplain : (hdrOf m.bytes).ackValid = false) (hkind : (hdrOf m.bytes).kind = kReset) :
    NextDev .actReset s (chainAcked s.env (freeFlow id (heardDev s rest id))) :=
  unsequenced_next hkind hfrom (by decide) hplain fun env id _ d => chainAcked env (freeFlow id d)

end

end Sys2Proof.Proofs
end

section
/-! The timers of flows (09, R293, R297, R298, R300, R303), and the statement on messages and timers. -/

namespace Sys2Proof.Proofs

open Sys2Proof.Machine Sys2Proof.Claims Sys2Proof.Laws

section
variable {s : State} {id : Nat} {fl : Flow} (hflow : flowOf s.dev id = some fl)
include hflow

theorem closeAck_next (hclosing : fl.closing = true) (hacked : fl.unacked = []) (hsent : fl.queue = [])
    (hserved : fl.inbound = []) (hstream : fl.stream = none) : NextDev (.closeAck id) s (chainAcked s.env
      (freeFlow id (sendOnFlow s.env id fl kCloseAck 0 0 0 false false [] s.dev))) := by
  have hdone : ¬ (!fl.closing || !fl.unacked.isEmpty || !fl.queue.isEmpty || !fl.inbound.isEmpty || fl.streamOpen) = true := by
    simp [hclosing, hacked, hsent, hserved, Flow.streamOpen, hstream]
  change execCloseAck id s = _
  exact onDev_eq (by simp only [hflow, if_neg hdone])

theorem ackDelay_next {t : Nat} (hsince : fl.ackSince = some t) (hdue : t + 500 ≤ s.env.tick) :
    NextDev (.ackDelay id) s (bareAck s.env id false s.dev) := by
  change execAckDelay id s = _
  exact onDev_eq (by simp only [hflow, hsince, if_pos hdue])

/-- The flow's timer has run out and the wheel serves its slot: the oldest message goes again, or the flow is reset. -/
theorem retransmitTimeout_next {t : Nat} {u : Unacked} {us : List Unacked} (hdue : fl.rtoDue = some t)
    (hold : fl.unacked = u :: us) (hwheel : t ≤ 250 * (s.env.tick / 250))
    (hcalm : (List.range 8).any (stormDue s.env (portOf s.dev fl.port)) = false)
    (hslot : slotServed s.env (portOf s.dev fl.port) fl.pcp (1 + id % 7) = true) :
    let rto := min (2 * fl.rto) (64 * xptRto s.dev)
    let served := updPort fl.port (countServed s.env fl.pcp (1 + id % 7)) s.dev
    NextDev (.retransmitTimeout id) s (if xptRetryMax s.dev ≤ fl.retries + 1 then resetFlow s.env id 4 served
      else resend s.env id [u] (updFlow id (fun f => { f with
        retries := f.retries + 1, rto := rto, rtoDue := some (s.env.tick + 250 * rto), rtoFired := some s.env.tick }) served)) := by
  intro rto served
  have hgo : ¬ (!wheelDue s.env t || (List.range 8).any (stormDue s.env (portOf s.dev fl.port)) ||
      !slotServed s.env (portOf s.dev fl.port) fl.pcp (1 + id % 7)) = true := by
    rw [hcalm, hslot]
    simp [wheelDue, wheelStep, hwheel]
  change execRetransmitTimeout id s = _
  refine onDev_eq ?_
  simp only [hflow, hdue, hold, if_neg hgo]
  rfl

/-- Before the step of the wheel at which it is due, the timer has not run out. -/
theorem retransmitTimeout_early {t : Nat} (hdue : fl.rtoDue = some t) (hearly : 250 * (s.env.tick / 250) < t) :
    NextDev (.retransmitTimeout id) s s.dev := by
  have hwheel : wheelDue s.env t = false := decide_eq_false (Nat.not_le.mpr hearly)
  change execRetransmitTimeout id s = _
  refine onDev_eq ?_
  cases hold : fl.unacked with
  | nil => simp only [hflow, hdue, hold]
  | cons u us => simp only [hflow, hdue, hold, hwheel, Bool.not_false, Bool.true_or, if_true]

theorem idleTimeout_next (hidle : xptIdleS s.dev ≠ 0) (hdue : fl.lastRx + xptIdleS s.dev * 25000000 ≤ s.env.tick) :
    NextDev (.idleTimeout id) s (resetFlow s.env id 6 s.dev) := by
  have hout : (decide (xptIdleS s.dev ≠ 0) && decide (fl.lastRx + xptIdleS s.dev * Config.second ≤ s.env.tick)) = true := by
    simp [hidle, Config.second, hdue]
  change execIdleTimeout id s = _
  exact onDev_eq (by simp only [hflow, if_pos hout])

/-- A stream that has its verdict and is not complete after 10 s: its command is answered, once. -/
theorem streamTimeout_next {st : Stream} (hstream : fl.stream = some st) (hdue : st.since + 250000000 ≤ s.env.tick)
    (hnone : st.arr = none) : NextDev (.streamTimeout id) s (if st.ended then s.dev
      else sendResp s.env id none st.cid.toNat scTimeout 0 false
        (updFlow id (fun f => { f with stream := some { st with ended := true } }) s.dev)) := by
  have hout : ¬ s.env.tick < st.since + 250000000 := Nat.not_lt.mpr hdue
  change execStreamTimeout id s = _
  refine onDev_eq ?_
  cases hended : st.ended <;> simp [hflow, hstream, Flow.streamOpen, hnone, hended, hout]

/-- An ATTN owed goes out where none has gone in this window of 1 ms. -/
theorem attn_next (howed : fl.attnDue = true) (hwindow : ∀ y, fl.lastAttn = some y → y / 25000 < s.env.tick / 25000) :
    NextDev (.attn id) s (sendSeq s.env id kAttn 0 0 false
      (natLe 4 (attnSummary s.dev.attn).toNat ++ natLe 4 0 ++ natLe 8 s.env.tick)
      (updFlow id (fun f => { f with attnDue := false, lastAttn := some s.env.tick }) s.dev)) := by
  change execAttn id s = _
  refine onDev_eq ?_
  cases hlast : fl.lastAttn with
  | none => simp only [hflow, howed, hlast, Bool.not_true, Bool.or_false, Bool.false_eq_true, if_false]
  | some y =>
    have hlate : ¬ s.env.tick / Config.ms ≤ y / Config.ms := Nat.not_le.mpr (hwindow y hlast)
    simp only [hflow, howed, hlast, hlate, decide_false, Bool.not_true, Bool.or_false, Bool.false_eq_true, if_false]

end

/-! ### The statement -/

/-- Settles O45: each message by its row, each timer where it is due. -/
theorem flowMessages : Obligations.FlowMessages := by
  intro s m rest id t0 fl u us st v h d c seen here taken bound good next rto
  have hbound (hb : bound) : FromClient s m rest id fl := by
    obtain ⟨hrx, hflow, hdflow, hclient, hsflow⟩ := hb
    exact ⟨hrx, hflow, hdflow, hclient, hsflow⟩
  have hnext (hn : next) : FromClient s m rest id fl ∧ NextInSequence m fl := by
    obtain ⟨⟨hb, hplain⟩, hexpected, hwindow⟩ := hn
    exact ⟨hbound hb, hplain, hexpected, hwindow⟩
  refine ⟨?opens, fun hn => actClose_next (hnext hn).1 (hnext hn).2, ?rejects, ?joins,
    fun hn hkind hstream hcid hoff hfits => nextDev_of_eq (actData_judged (hnext hn).1 (hnext hn).2 hkind)
      (judgeData_fits hstream hcid hoff hfits ..),
    fun hn hkind hnone => nextDev_of_eq (actData_judged (hnext hn).1 (hnext hn).2 hkind) (judgeData_no_stream hnone ..),
    fun hg => actAck_plain (hbound hg.1) hg.2, ?acks, fun hg => actReset_next (hbound hg.1) hg.2, fun hflow => ?timers⟩
  case opens =>
    intro hrx hkind hnew
    have hopen := actOpen_next hrx hkind hnew
    refine ⟨fun hok => ⟨nextDev_of_eq hopen (if_pos hok), ?_⟩, fun tok status hst hbad => nextDev_of_eq hopen ?_⟩
    · obtain ⟨i, hi⟩ := freeFlowId_of_openStatus hok
      rw [hi]
      exact openFlow_opens hi s.env m h
    · have hstatus : openStatus (restDev s rest) m.src (hdrOf m.bytes) = (status, tok) := hst
      rw [hstatus]
      exact if_neg hbad
  case rejects =>
    intro hn hkind hopen hstream hlen hoff hneed hcheck
    exact nextDev_of_eq (actCmd_next (hnext hn).1 (hnext hn).2 hkind hopen)
      (takeCmd_rejected hstream hlen hoff hneed hcheck m)
  case joins =>
    intro hn hkind hopen hstream hlen hoff _ hcheck
    refine ⟨_, actCmd_next (hnext hn).1 (hnext hn).2 hkind hopen, rfl, ?_⟩
    have htaken : taken.mea = s.dev.mea := by simp [taken, here, seen, d]
    obtain ⟨key, hostGen, hmea⟩ := takeCmd_accepted hstream hlen hoff hcheck m
    obtain ⟨hlength, held, hlast⟩ := joinArrival_last (cmdArrival s.env h id fl key hostGen) taken
    rw [htaken] at hlength hlast
    exact ⟨(congrArg (·.arrivals.length) hmea).trans hlength, _, (congrArg (·.arrivals.getLast?) hmea).trans hlast,
      rfl, rfl, rfl, rfl⟩
  case acks =>
    intro hb hkind hack
    have hacked := actAck_next (hbound hb) hack hkind
    exact ⟨fun hcovers => nextDev_of_eq hacked (if_neg (ne_true_of_eq_false hcovers)),
      fun hahead => nextDev_of_eq hacked (if_pos hahead)⟩
  case timers =>
    refine ⟨closeAck_next hflow, ackDelay_next hflow, ?again,
      retransmitTimeout_early hflow, idleTimeout_next hflow, fun hstream hdue hnone => ?stream, attn_next hflow⟩
    case again =>
      intro hdue hold hwheel hcalm hslot served
      have htimed := retransmitTimeout_next hflow hdue hold hwheel hcalm hslot
      exact ⟨fun hmore => nextDev_of_eq htimed (if_neg (Nat.not_le.mpr hmore)),
        fun hspent => nextDev_of_eq htimed (if_pos hspent)⟩
    case stream =>
      have htimed := streamTimeout_next hflow hstream hdue hnone
      exact ⟨fun hruns => nextDev_of_eq htimed (if_neg (ne_true_of_eq_false hruns)),
        fun hended => nextDev_of_eq htimed (if_pos hended)⟩

end Sys2Proof.Proofs
end

section
/-! A report never clears a cause: what one report has set, the reports after it leave set (R428, R440–R442). -/

namespace Sys2Proof.Proofs

open Sys2Proof.Machine Sys2Proof.Claims Sys2Proof.Laws

/-! ### Elements of a vector -/

@[simp] theorem vget_vupd_same {α : Type} {n i : Nat} (v : Vector α n) (hi : i < n) (f : α → α) (x : α) :
    vget (vupd v i f) i x = f (vget v i x) := by
  simp [vget, vupd, hi]

theorem vget_vupd_ne {α : Type} {n i j : Nat} (v : Vector α n) (hij : i ≠ j) (f : α → α) (x : α) :
    vget (vupd v i f) j x = vget v j x := by
  unfold vget vupd
  split
  · simp [hij]
  · rfl

/-- Bits set in an element leave the bits that are 1, of this element and of every other. -/
theorem bitOf_vupd_or {m : Nat} {v : Vector W32 m} {j b : Nat} (h : bitOf (vget v j 0) b = true) (i : Nat) (bits : W32) :
    bitOf (vget (vupd v i (· ||| bits)) j 0) b = true := by
  by_cases hij : i = j
  · subst hij
    by_cases hi : i < m
    · rw [vget_vupd_same v hi]
      simp only [bitOf, BitVec.getLsbD_or, Bool.or_eq_true] at h ⊢
      exact .inl h
    · simp [vget, hi, bitOf] at h
  · rwa [vget_vupd_ne v hij]

/-! ### The causes and conditions of the attention tree -/

/-- The causes, and the conditions of DEV_FATAL_CAUSE that hold. -/
def causes (d : Dev) : Vector W32 19 × W32 := (d.attn.cause, d.attn.holding)

@[simp] theorem sendMsi_causes (v : Nat) (d : Dev) : causes (sendMsi v d) = causes d := by
  unfold sendMsi
  dsimp only
  split
  · split
    · rfl
    · split <;> rfl
  · rfl

@[simp] theorem attnRaise_causes (env : Env) (d : Dev) : causes (attnRaise env d) = causes d := by
  unfold attnRaise
  split
  · rfl
  · split
    · split
      · rfl
      · exact sendMsi_causes ..
    · exact sendMsi_causes ..

/-- An edit of the attention tree is its edit of the causes; what it signals moves neither causes nor conditions. -/
@[simp] theorem attnEdit_causes (env : Env) (f : Attn → Attn) (d : Dev) :
    causes (attnEdit env f d) = ((f d.attn).cause, (f d.attn).holding) := by
  unfold attnEdit
  dsimp only
  split <;> split
  · rfl
  · exact attnRaise_causes ..
  · rfl
  · exact attnRaise_causes ..

@[simp] theorem setCause_causes (env : Env) (n : Nat) (bits : W32) (d : Dev) :
    causes (setCause env n bits d) = (vupd d.attn.cause n (· ||| bits), d.attn.holding) := attnEdit_causes ..

/-- The bits set read 1 in the cause register they are set in. -/
theorem setCause_sets {n b : Nat} {bits : W32} (hn : n < 19) (hb : bitOf bits b = true) (env : Env) (d : Dev) :
    bitOf (vget (setCause env n bits d).attn.cause n 0) b = true := by
  have hcause : (setCause env n bits d).attn.cause = _ := congrArg Prod.fst (setCause_causes env n bits d)
  rw [hcause, vget_vupd_same _ hn]
  simp only [bitOf, BitVec.getLsbD_or, Bool.or_eq_true] at hb ⊢
  exact .inr hb

/-! ### Reports keep what is set -/

/-- Between `d` and `d'` causes have only been set, and the conditions that hold have stayed. -/
structure OnlySets (d d' : Dev) : Prop where
  cause : ∀ n b, bitOf (vget d.attn.cause n 0) b = true → bitOf (vget d'.attn.cause n 0) b = true
  holding : d'.attn.holding = d.attn.holding

theorem OnlySets.refl (d : Dev) : OnlySets d d := ⟨fun _ _ h => h, rfl⟩

theorem OnlySets.trans {a b c : Dev} (h : OnlySets a b) (k : OnlySets b c) : OnlySets a c :=
  ⟨fun n i hi => k.cause n i (h.cause n i hi), k.holding.trans h.holding⟩

/-- The recorder's own state is no cause. -/
theorem onlySets_evr (d : Dev) (e : Evr) : OnlySets d { d with evr := e } := ⟨fun _ _ h => h, rfl⟩

theorem setCause_onlySets (env : Env) (n : Nat) (bits : W32) (d : Dev) : OnlySets d (setCause env n bits d) := by
  obtain ⟨hcause, hholding⟩ := Prod.mk.inj (setCause_causes env n bits d)
  exact ⟨fun j b hb => by rw [hcause]; exact bitOf_vupd_or hb n bits, hholding⟩

theorem highSev_onlySets (env : Env) (sev : Nat) (d : Dev) : OnlySets d (highSev env sev d) := by
  unfold highSev
  split
  · exact setCause_onlySets ..
  · exact OnlySets.refl d

theorem enterOnce_onlySets (env : Env) (toBoot : Bool) (r : Rec) (d : Dev) : OnlySets d (enterOnce env toBoot r d).1 := by
  unfold enterOnce
  dsimp only
  split
  · exact (onlySets_evr ..).trans (setCause_onlySets ..)
  · exact (onlySets_evr ..).trans (highSev_onlySets ..)

theorem enterRec_onlySets (env : Env) (toBoot : Bool) (r : Rec) (d : Dev) : OnlySets d (enterRec env toBoot r d).1 := by
  have hentered := enterOnce_onlySets env toBoot r d
  unfold enterRec
  dsimp only
  split
  · split
    · exact hentered.trans (onlySets_evr ..)
    · exact hentered.trans ((onlySets_evr ..).trans ((setCause_onlySets ..).trans (enterOnce_onlySets ..)))
  · exact hentered

theorem closeWindow_onlySets (env : Env) (code : BitVec 16) (w : RateWin) (d : Dev) :
    OnlySets d (closeWindow env code w d) := by
  unfold closeWindow
  dsimp only
  split
  · exact onlySets_evr ..
  · exact (onlySets_evr ..).trans (enterRec_onlySets ..)

theorem rateGate_onlySets (env : Env) (r : Rec) (d : Dev) : OnlySets d (rateGate env r d).1 := by
  unfold rateGate
  split
  · exact onlySets_evr ..
  · split
    · exact (closeWindow_onlySets ..).trans (onlySets_evr ..)
    · split <;> exact onlySets_evr ..

theorem repeatOrEnter_onlySets (env : Env) (r : Rec) (d : Dev) : OnlySets d (repeatOrEnter env r d).1 := by
  unfold repeatOrEnter
  split
  · split
    · exact onlySets_evr ..
    · exact enterRec_onlySets ..
  · exact enterRec_onlySets ..

theorem event_onlySets (env : Env) (code : BitVec 16) (sev cls src p0 p1 p2 : Nat) (d : Dev) :
    OnlySets d (event env code sev cls src p0 p1 p2 d) := by
  unfold event request
  dsimp only
  split
  · split
    · exact (rateGate_onlySets ..).trans (repeatOrEnter_onlySets ..)
    · exact rateGate_onlySets ..
  · exact repeatOrEnter_onlySets ..

theorem noteUrgent_onlySets (env : Env) (before : Nat) (d : Dev) : OnlySets d (noteUrgent env before d) := by
  unfold noteUrgent
  dsimp only
  split
  · exact (setCause_onlySets ..).trans (event_onlySets ..)
  · exact OnlySets.refl d

/-! ### DEV_FATAL_CAUSE (R441) -/

theorem bitOf_two_pow {b : Nat} (hb : b < 32) : bitOf (w32 (2 ^ b)) b = true := by
  simp only [bitOf, w32, BitVec.getLsbD_ofNat, hb, decide_true, Bool.true_and, Nat.testBit_two_pow_self]

/-- A DEV_FATAL_CAUSE bit that is set is a condition that holds and a cause, and then perhaps a report. -/
theorem setFatal_of_set (env : Env) (bit code : Nat) (d : Dev) :
    OnlySets (setCause env 0 (w32 (2 ^ bit)) { d with attn := { d.attn with holding := d.attn.holding ||| w32 (2 ^ bit) } })
      (setFatal env bit code d) := by
  unfold setFatal
  dsimp only
  split
  · exact OnlySets.refl _
  · exact event_onlySets ..

/-- A bit of DEV_FATAL_CAUSE that is set reads 1, and its condition holds. -/
theorem setFatal_sets {bit : Nat} (hbit : bit < 32) (env : Env) (code : Nat) (d : Dev) :
    bitOf (vget (setFatal env bit code d).attn.cause 0 0) bit = true ∧
    bitOf (setFatal env bit code d).attn.holding bit = true := by
  have hpow := bitOf_two_pow hbit
  obtain ⟨hcause, hholding⟩ := setFatal_of_set env bit code d
  refine ⟨hcause 0 bit (setCause_sets (by decide) hpow ..), ?_⟩
  rw [hholding, (setCause_onlySets ..).holding]
  simp only [bitOf, BitVec.getLsbD_or, Bool.or_eq_true] at hpow ⊢
  exact .inr hpow

/-- Setting a bit of DEV_FATAL_CAUSE clears no cause. -/
theorem setFatal_keeps_cause (env : Env) (bit code : Nat) {d : Dev} {n b : Nat} (h : bitOf (vget d.attn.cause n 0) b = true) :
    bitOf (vget (setFatal env bit code d).attn.cause n 0) b = true :=
  (setFatal_of_set env bit code d).cause n b ((setCause_onlySets ..).cause n b h)

/-- A condition released holds no longer. -/
theorem releaseFatal_holding {bit : Nat} (hbit : bit < 32) (d : Dev) :
    bitOf (releaseFatal bit d).attn.holding bit = false := by
  have hpow := bitOf_two_pow hbit
  simp only [bitOf] at hpow
  simp only [releaseFatal, bitOf, BitVec.getLsbD_and, BitVec.getLsbD_not, hpow, Bool.not_true, Bool.and_false]

end Sys2Proof.Proofs
end

section
/-! The hold-up bank's measurement and its limit, the alarms of R390, and the hardware's own faults (R369, R390, R441,
R447, R457–R459, R464, R494). -/

namespace Sys2Proof.Proofs

open Sys2Proof.Machine Sys2Proof.Claims Sys2Proof.Laws

/-! ### A new limit (R458, R459) -/

theorem noteUrgent_free (env : Env) (before : Nat) (d : Dev) : (noteUrgent env before d).free = d.free := by
  simp only [noteUrgent]
  split
  · rw [event_free, setCause_free]
  · rfl

theorem releaseFatal_free (bit : Nat) (d : Dev) : (releaseFatal bit d).free = d.free := rfl

theorem releaseFatal_cause (bit : Nat) (d : Dev) : (releaseFatal bit d).attn.cause = d.attn.cause := rfl

/-- The limit as it acts: below 256 MiB it is 0. -/
def flooredLimit (limit : Nat) : Nat := if limit < 256 then 0 else limit

theorem flooredLimit_low {limit : Nat} (h : limit < 256) : flooredLimit limit = 0 := if_pos h

theorem flooredLimit_ample {limit : Nat} (h : 256 ≤ limit) : flooredLimit limit = limit := if_neg (Nat.not_lt.mpr h)

section
variable (e c limit : Nat) (env : Env) (d : Dev)

/-- The power state with a new E, C and limit. -/
def limitEnv : Env :=
  env.upd (fun p => { p with energyMj := e, capDmf := c, limitMib := flooredLimit limit, lastLimit := flooredLimit limit })

/-- The drive with a new limit reported, LIMIT_REDUCED where it is below the last. -/
def limitTold : Dev :=
  let told := event (limitEnv e c limit env) 0x1204 0 clsPower 0 e (flooredLimit limit) c d
  if flooredLimit limit < env.pw.lastLimit then
    event (limitEnv e c limit env) 0x1205 3 clsPower 0 env.pw.lastLimit (flooredLimit limit) 0
      (setCause (limitEnv e c limit env) 18 2 told)
  else told

/-- The drive with a new limit reported, and FREE_URGENT where the reserve it takes leaves too few reams. -/
def limitNoted : Dev := noteUrgent (limitEnv e c limit env) (freeReams env d) (limitTold e c limit env d)

theorem setLimit_env : (setLimit e c limit env d).1 = limitEnv e c limit env := rfl

/-- A new limit is reported, and then is the hold-up fault, or the end of its condition. -/
theorem setLimit_dev : (setLimit e c limit env d).2 =
    if flooredLimit limit = 0 then
      setFatal (limitEnv e c limit env) 3 0x1206
        (event (limitEnv e c limit env) 0x1206 7 clsPower 0 e 0 0 (limitNoted e c limit env d))
    else releaseFatal 3 (limitNoted e c limit env d) := rfl

theorem limitNoted_free : (limitNoted e c limit env d).free = d.free := by
  rw [limitNoted, noteUrgent_free]
  simp only [limitTold]
  split
  · rw [event_free, setCause_free, event_free]
  · rw [event_free]

/-- What a new limit reports takes no free value. -/
theorem setLimit_free : (setLimit e c limit env d).2.free = d.free := by
  rw [setLimit_dev]
  split
  · rw [setFatal_free, event_free, limitNoted_free]
  · rw [releaseFatal_free, limitNoted_free]

variable {limit}

/-- A limit below the last sets LIMIT_REDUCED (R459). -/
theorem limitNoted_reduced {env : Env} (h : flooredLimit limit < env.pw.lastLimit) :
    bitOf (vget (limitNoted e c limit env d).attn.cause 18 0) 1 = true := by
  rw [limitNoted]
  refine (noteUrgent_onlySets ..).cause 18 1 ?_
  simp only [limitTold, if_pos h]
  exact (event_onlySets ..).cause 18 1 (setCause_sets (by decide) (by decide) ..)

theorem setLimit_reduced {env : Env} (h : flooredLimit limit < env.pw.lastLimit) :
    bitOf (vget (setLimit e c limit env d).2.attn.cause 18 0) 1 = true := by
  have hnoted := limitNoted_reduced e c d h
  rw [setLimit_dev]
  split
  · exact setFatal_keeps_cause _ _ _ ((event_onlySets ..).cause 18 1 hnoted)
  · rwa [releaseFatal_cause]

/-- At 256 MiB and above the hold-up fault's condition does not hold. -/
theorem setLimit_ample (h : 256 ≤ limit) : bitOf (setLimit e c limit env d).2.attn.holding 3 = false := by
  rw [setLimit_dev, flooredLimit_ample h, if_neg (by omega)]
  exact releaseFatal_holding (by decide) _

/-- Below 256 MiB HOLDUP_FAIL is set, and its condition holds. -/
theorem setLimit_low (h : limit < 256) :
    bitOf (setLimit e c limit env d).2.attn.holding 3 = true ∧
    bitOf (vget (setLimit e c limit env d).2.attn.cause 0 0) 3 = true := by
  rw [setLimit_dev, if_pos (flooredLimit_low h)]
  exact (setFatal_sets (by decide) ..).symm

end

/-! ### The measurement (R457) -/

section
variable {s : State}

theorem holdupMeasureStart_due (h : measDue s.env = true) : exec .holdupMeasureStart s =
    .next { s with env := { s.env with pw := { s.env.pw with measuring := some s.env.tick } } } := by
  change execHoldupMeasureStart s = _
  simp [execHoldupMeasureStart, onEnv_next, h, Env.upd]

theorem holdupMeasureStart_not_due (h : measDue s.env = false) : NextDev .holdupMeasureStart s s.dev := by
  change execHoldupMeasureStart s = _
  simp [execHoldupMeasureStart, onEnv_next, h]

theorem holdupMeasured_none (h : s.env.pw.measuring = none) (v0 v1 : Nat) : NextDev (.holdupMeasured v0 v1) s s.dev := by
  change execHoldupMeasured v0 v1 s = _
  simp [execHoldupMeasured, onEnv_next, h]

/-- The measurement is over. -/
def measuredEnv (env : Env) : Env :=
  env.upd (fun p => { p with measuring := none, measStart := false, lastMeas := opsecNow env, measured := true })

variable {t0 : Nat} (hstart : s.env.pw.measuring = some t0) (hdue : t0 + 525000 ≤ s.env.tick)
include hstart hdue

theorem holdupMeasured_next (v0 v1 : Nat) :
    let bank := holdupOf v0 v1 s.dev
    let limit := if v1 < v0 then limitOf (v0 * v0 - 144000000) (50 * (v0 - v1)) else limitOf bank.1 1
    let x := setLimit bank.1 bank.2.1 limit (measuredEnv s.env) bank.2.2
    exec (.holdupMeasured v0 v1) s = .next { s with env := x.1, dev := x.2 } := by
  change execHoldupMeasured v0 v1 s = _
  simp only [execHoldupMeasured, onEnv_next, hstart, if_neg (Nat.not_lt.mpr hdue)]
  rfl

/-- A bank that has discharged gives E, C and the limit of R457 and R458. -/
theorem holdupMeasured_discharged {v0 v1 : Nat} (h : v1 < v0) :
    let x := setLimit ((v0 * v0 - 144000000) / (50 * (v0 - v1))) (400000 / (v0 - v1))
      (limitOf (v0 * v0 - 144000000) (50 * (v0 - v1))) (measuredEnv s.env) s.dev
    exec (.holdupMeasured v0 v1) s = .next { s with env := x.1, dev := x.2 } := by
  have hnext := holdupMeasured_next hstart hdue v0 v1
  simpa only [holdupOf, if_pos h] using hnext

end

/-- The limit of R458 with the 50 of R457's time taken in. -/
theorem limitOf_discharge (n dv : Nat) :
    limitOf n (50 * dv) = min 8192 (64 * ((n - 190000 * dv) * 100 / (1100800 * dv))) := by
  simp only [limitOf, ← Nat.mul_assoc]

/-- What a measurement leaves in the power state: it is over, and its E, C and limit act. -/
theorem measured_env (e c limit : Nat) (env : Env) (d : Dev) :
    let pw := (setLimit e c limit (measuredEnv env) d).1.pw
    pw.energyMj = e ∧ pw.capDmf = c ∧ pw.limitMib = flooredLimit limit ∧ pw.measured = true ∧ pw.measuring = none :=
  ⟨rfl, rfl, rfl, rfl, rfl⟩

/-! ### Alarms (R390) -/

theorem freeSealed_sealed (ss : List Nat) (d : Dev) :
    (freeSealed ss d).ccl.sealed = d.ccl.sealed.filter (fun x => !ss.contains x.1) := rfl

/-- Tier 2 zeroes every key slot and sealed slot and every root of a keyspace, locks those encrypted, and is remembered. -/
theorem tier2_zeroes (env : Env) (cause : Nat) (d : Dev) :
    (tier2 env cause d).ccl.keys = [] ∧ (tier2 env cause d).ccl.sealed = [] ∧ (tier2 env cause d).sec.tamperSeen = true ∧
    ∀ k x, (k, x) ∈ (tier2 env cause d).kdr.ks → x.ksr = [] ∧ (x.encrypted = true → x.locked = true) := by
  simp only [tier2, event_ccl, event_sec, event_kdr, setCause_ccl, setCause_sec, setCause_kdr, updSec_ccl, updSec_sec, updSec_kdr]
  refine ⟨trivial, ?sealed, trivial, ?keyspaces⟩
  case sealed =>
    rw [freeSealed_sealed]
    refine List.filter_eq_nil_iff.mpr fun x hx => ?_
    have howned : ∃ y, (x.1, y) ∈ d.ccl.sealed := ⟨x.2, hx⟩
    simpa using howned
  case keyspaces =>
    intro k x hx
    obtain ⟨⟨k1, y⟩, hy, heq⟩ := List.mem_map.mp hx
    have hlocked : (k1, y) ∈ d.kdr.ks.map (fun x => (x.1, { x.2 with locked := x.2.encrypted })) := hy
    obtain ⟨⟨k2, z⟩, -, hz⟩ := List.mem_map.mp hlocked
    cases hz
    cases heq
    exact ⟨rfl, id⟩

section
variable {s : State}

/-- The tamper loop is open; the opening acts at once where RDM runs. -/
def loopOpened (env : Env) : Env := { env with pw := { env.pw with loopOpen := true, loopActed := rdmOn env } }

/-- The loop opens while RDM does not run: it is found at the next power-on (R492). -/
theorem tamperOpen_unseen (h : rdmOn s.env = false) : exec .tamperOpen s = .next { s with env := loopOpened s.env } := by
  change execTamperOpen s = _
  simp [execTamperOpen, onEnv_next, h, Env.upd, loopOpened]

/-- The loop opens while RDM runs: the alarm acts. -/
theorem tamperOpen_alarm (h : rdmOn s.env = true) : exec .tamperOpen s =
    .next { s with env := (alarm 2 (loopOpened s.env) s.dev).1, dev := (alarm 2 (loopOpened s.env) s.dev).2 } := by
  change execTamperOpen s = _
  simp [execTamperOpen, onEnv_next, h, Env.upd, loopOpened]

theorem alarm_unarmed {d : Dev} (h : d.sec.eraseArm = false) (cause : Nat) (env : Env) :
    alarm cause env d = (env, tier2 env cause d) := if_neg (ne_true_of_eq_false h)

theorem alarm_armed {d : Dev} (h : d.sec.eraseArm = true) (cause : Nat) (env : Env) :
    alarm cause env d = tier3 env cause d := if_pos h

/-- The glitches of the last second, the one at hand first. -/
def glitchTrips (env : Env) (d : Dev) : List Nat := env.tick :: d.sec.glitches.filter (fun t => env.tick < t + Config.second)

/-- The drive with a tier 1 trip reported; the fourth begins the count again. -/
def glitchTripped (n : Nat) (env : Env) (d : Dev) : Dev :=
  event env 0x0E10 3 clsSecurity 0 n 0 0 (setCause env 14 1
    (updSec (fun q => { q with glitches := if 4 ≤ (glitchTrips env d).length then [] else glitchTrips env d }) d))

theorem glitchTripped_eraseArm (n : Nat) (env : Env) (d : Dev) : (glitchTripped n env d).sec.eraseArm = d.sec.eraseArm := by
  rw [glitchTripped, event_sec, setCause_sec, updSec_sec]

/-- A trip is reported, and the fourth within a second acts as an alarm. -/
theorem glitchTrip_next (hgov : governs s.env = true) (n : Nat) : exec (.glitchTrip n) s =
    let tripped := glitchTripped n s.env s.dev
    let x := if 4 ≤ (glitchTrips s.env s.dev).length then alarm 1 s.env tripped else (s.env, tripped)
    .next { s with env := x.1, dev := x.2 } := by
  change execGlitchTrip n s = _
  simp only [execGlitchTrip, onEnv_next, hgov]
  rfl

theorem glitchTrip_few (hgov : governs s.env = true) (h : (glitchTrips s.env s.dev).length < 4) (n : Nat) :
    NextDev (.glitchTrip n) s (glitchTripped n s.env s.dev) := by
  rw [NextDev, glitchTrip_next hgov]
  simp only [if_neg (Nat.not_le.mpr h)]

theorem glitchTrip_fourth (hgov : governs s.env = true) (h : 4 ≤ (glitchTrips s.env s.dev).length) (n : Nat) :
    let x := alarm 1 s.env (glitchTripped n s.env s.dev)
    exec (.glitchTrip n) s = .next { s with env := x.1, dev := x.2 } := by
  rw [glitchTrip_next hgov]
  simp only [if_pos h]

/-! ### The hardware's own faults -/

/-- The error's condition ends at once (log 49). -/
theorem internalEcc_next (hgov : governs s.env = true) :
    NextDev .internalEcc s (releaseFatal 2 (setFatal s.env 2 (Config.unstated 0).toNat s.dev)) := by
  change execInternalEcc s = _
  simp only [execInternalEcc, onDev_next, hgov, if_true]

theorem xtalFault_next (ppm : Nat) :
    NextDev (.xtalFault ppm) s (event s.env 0x1103 6 clsHardware 0 ppm 0 0 (setCause s.env 17 4 s.dev)) := by
  change execXtalFault ppm s = _
  exact onDev_next ..

theorem supplyFault_next (hmain : s.env.pw.main = true) : NextDev .supplyFault s (setCause s.env 18 8 s.dev) := by
  change execSupplyFault s = _
  simp only [execSupplyFault, onDev_next, hmain, if_true]

/-! ### A controller sensor at its limit (R369, R447) -/

theorem hostReset_enable (kind : Nat) (env : Env) (d : Dev) : (hostReset kind env d).hqe.enable = false := by
  unfold hostReset
  dsimp only
  rw [event_hqe_enable]
  split <;> rfl

/-- An entry to RETENTION disables the controller and stops fetching and credit. -/
theorem startRetention_stops (thermal : Bool) (env : Env) (d : Dev) :
    (startRetention thermal env d).2.hqe.enable = false ∧ (startRetention thermal env d).2.hqe.fetchStopped = true ∧
    (startRetention thermal env d).2.xpt.creditHeld = true := by
  have henable := hostReset_enable 5 env d
  simp only [startRetention, henable, and_self]

/-- The drive with the event, DEVICE_FATAL and its group at HARD. -/
def overheated (env : Env) (n : Nat) (temp : Int) (d : Dev) : Dev :=
  setBudget (reachHard env 0 n temp (setFatal env 0 0x060B (event env 0x060B 7 clsHardware 0 n (i32 temp) 0 d)))

section
variable {n : Nat} {temp : Int} (hn : n < 16) (htemp : 1840 ≤ temp) (hgov : governs s.env = true)
include hn htemp hgov

theorem thermalCritical_next : exec (.thermalCritical n temp) s =
    let hot := overheated s.env n temp s.dev
    let x := if s.env.pw.st == .drain || enteringRetention s.env.pw then (s.env, hot) else startRetention true s.env hot
    .next { s with env := x.1, dev := x.2 } := by
  change execThermalCritical n temp s = _
  have hacts : ¬ (decide (16 ≤ n) || decide (temp < 1840) || !governs s.env) = true := by
    simp [hgov, Nat.not_le.mpr hn, Int.not_lt.mpr htemp]
  simp only [execThermalCritical, onEnv_next, if_neg hacts, overheated]

/-- In DRAIN the state stays. -/
theorem thermalCritical_drain (h : s.env.pw.st = .drain) :
    NextDev (.thermalCritical n temp) s (overheated s.env n temp s.dev) := by
  have hstays : (s.env.pw.st == .drain || enteringRetention s.env.pw) = true := by simp [h]
  rw [NextDev, thermalCritical_next hn htemp hgov]
  simp only [if_pos hstays]

/-- Elsewhere a thermal entry to RETENTION begins. -/
theorem thermalCritical_enters (h : s.env.pw.st ≠ .drain) (hentering : enteringRetention s.env.pw = false) :
    let x := startRetention true s.env (overheated s.env n temp s.dev)
    exec (.thermalCritical n temp) s = .next { s with env := x.1, dev := x.2 } := by
  have henters : ¬ (s.env.pw.st == .drain || enteringRetention s.env.pw) = true := by simp [h, hentering]
  rw [thermalCritical_next hn htemp hgov]
  simp only [if_neg henters]

end

end

/-! ### The statement -/

/-- Settles O48: the measurement by what it leaves, each alarm by its tier, each fault by its own rule. -/
theorem holdupAndAlarms : Obligations.HoldupAndAlarms := by
  intro s v0 v1 t0 n ppm temp pw e l trips tripped opened hot
  have hl : limitOf (v0 * v0 - 144000000) (50 * (v0 - v1)) = l := limitOf_discharge ..
  refine ⟨holdupMeasureStart_due, holdupMeasureStart_not_due, ?discharged, ?held, fun h => holdupMeasured_none h v0 v1,
    ⟨tamperOpen_unseen, ?unarmed, ?armed⟩,
    fun hgov => ⟨fun h => glitchTrip_few hgov h n, ?fourth, ?fourthArmed, internalEcc_next hgov⟩,
    xtalFault_next ppm, supplyFault_next,
    fun hn htemp hgov => ⟨thermalCritical_drain hn htemp hgov, fun hst hentering =>
      ⟨_, thermalCritical_enters hn htemp hgov hst hentering, rfl, rfl, startRetention_stops true ..⟩⟩⟩
  case discharged =>
    intro hstart hdue hlt
    have hnext := holdupMeasured_discharged hstart hdue hlt
    rw [hl] at hnext
    obtain ⟨he, hc, hlimit, hmeasured, hmeasuring⟩ := measured_env e (400000 / (v0 - v1)) l s.env s.dev
    refine ⟨_, hnext, he, hc, hmeasured, hmeasuring, fun h => setLimit_reduced _ _ _ h,
      fun h => ⟨?_, setLimit_ample _ _ _ _ h⟩, fun h => ⟨?_, setLimit_low _ _ _ _ h⟩⟩
    · exact hlimit.trans (flooredLimit_ample h)
    · exact hlimit.trans (flooredLimit_low h)
  case held =>
    intro hstart hdue hle
    have hfree : (holdupOf v0 v1 s.dev).2.2 = (takeFree s.dev).2 := by simp only [holdupOf, if_neg (Nat.not_lt.mpr hle)]
    refine ⟨_, holdupMeasured_next hstart hdue v0 v1, rfl, rfl, ?_⟩
    dsimp only
    rw [setLimit_free, hfree]
    rfl
  case unarmed =>
    intro hrdm harm
    have hnext := tamperOpen_alarm hrdm
    rw [alarm_unarmed harm] at hnext
    exact ⟨_, hnext, rfl, rfl, tier2_zeroes ..⟩
  case armed =>
    intro hrdm harm
    have hnext := tamperOpen_alarm hrdm
    rwa [alarm_armed harm] at hnext
  case fourth =>
    intro h harm
    have hnext := glitchTrip_fourth hgov h n
    dsimp only at hnext
    rwa [alarm_unarmed ((glitchTripped_eraseArm ..).trans harm)] at hnext
  case fourthArmed =>
    intro h harm
    have hnext := glitchTrip_fourth hgov h n
    dsimp only at hnext
    rwa [alarm_armed ((glitchTripped_eraseArm ..).trans harm)] at hnext

end Sys2Proof.Proofs
end

section
/-! What moves the time base: a restart of RDM, and nothing else a command does (R347, R349, R450, R454). -/

namespace Sys2Proof.Proofs

open Sys2Proof.Machine Sys2Proof.Claims Sys2Proof.Laws

/-! ### What the shared operations leave of the time base -/

/-- Of two courses that leave the time base, the one taken leaves it. -/
theorem ite_tick {c : Prop} [Decidable c] {x y : Env × Dev} {n : Nat} (hx : x.1.tick = n) (hy : y.1.tick = n) :
    (if c then x else y).1.tick = n := by
  split
  · exact hx
  · exact hy

@[simp] theorem upd_tick (f : Power → Power) (env : Env) : (env.upd f).tick = env.tick := rfl

@[simp] theorem loseSlot33_tick (rail : Nat) (env : Env) : (loseSlot33 rail env).tick = env.tick := by
  unfold loseSlot33
  split <;> rfl

@[simp] theorem stopClock_tick (env : Env) : (stopClock env).tick = env.tick := rfl

@[simp] theorem toState_tick (st : PState) (cause : Nat) (x : Env × Dev) : (toState st cause x).1.tick = x.1.tick := rfl

@[simp] theorem wakeDormant_tick (cause : Nat) (env : Env) (d : Dev) : (wakeDormant cause env d).1.tick = env.tick :=
  ite_tick rfl (ite_tick rfl rfl)

@[simp] theorem sqTail_tick (q v : Nat) (env : Env) (d : Dev) : (sqTail q v env d).1.tick = env.tick := by
  refine ite_tick rfl ?_
  split
  · rfl
  · exact ite_tick rfl (ite_tick rfl (wakeDormant_tick ..))

@[simp] theorem requestDeviceReset_tick (env : Env) (d : Dev) : (requestDeviceReset env d).1.tick = env.tick :=
  ite_tick rfl rfl

@[simp] theorem startRetention_tick (thermal : Bool) (env : Env) (d : Dev) :
    (startRetention thermal env d).1.tick = env.tick := rfl

@[simp] theorem retentionCause_tick (cause : Nat) (env : Env) (d : Dev) : (retentionCause cause env d).1.tick = env.tick :=
  ite_tick rfl (ite_tick (ite_tick rfl rfl) rfl)

@[simp] theorem perstRise_tick (env : Env) (d : Dev) : (perstRise env d).1.tick = env.tick := retentionCause_tick ..

@[simp] theorem alarm_tick (cause : Nat) (env : Env) (d : Dev) : (alarm cause env d).1.tick = env.tick :=
  ite_tick (requestDeviceReset_tick ..) rfl

/-! ### Frames -/

@[simp] theorem deliverLocal_tick (env : Env) (p n : Nat) (group : Bool) (h : FrameHead) (bs : List Byte) (d : Dev) :
    (deliverLocal env p n group h bs d).1.tick = env.tick := by
  refine ite_tick ?_ rfl
  dsimp only
  split
  · exact wakeDormant_tick ..
  · rfl

@[simp] theorem goodFrame_tick (p : Nat) (f : FrameIn) (env : Env) (d : Dev) : (goodFrame p f env d).1.tick = env.tick := by
  unfold goodFrame
  dsimp only
  split
  case h_3 => exact ite_tick rfl rfl
  case h_5 | h_6 => exact ite_tick (deliverLocal_tick ..) rfl
  all_goals rfl

@[simp] theorem frameIn_tick (p : Nat) (f : FrameIn) (env : Env) (d : Dev) : (frameIn p f env d).1.tick = env.tick := by
  refine ite_tick rfl (ite_tick rfl ?_)
  dsimp only
  split
  · exact goodFrame_tick ..
  · exact ite_tick rfl rfl

/-! ### Registers -/

@[simp] theorem ctrlWrite_tick (v : W32) (env : Env) (d : Dev) : (ctrlWrite v env d).1.tick = env.tick :=
  ite_tick (ite_tick (requestDeviceReset_tick ..) (ite_tick rfl (ite_tick rfl rfl))) rfl

@[simp] theorem writeDevice_tick (off : Nat) (v : W32) (env : Env) (d : Dev) : (writeDevice off v env d).1.tick = env.tick := by
  unfold writeDevice
  split
  case h_1 => exact ctrlWrite_tick ..
  case h_9 => exact ite_tick (ite_tick rfl (ite_tick rfl rfl)) rfl
  all_goals rfl

@[simp] theorem reqActive_tick (env : Env) (d : Dev) : (reqActive env d).1.tick = env.tick :=
  ite_tick (wakeDormant_tick ..) rfl

@[simp] theorem reqDormant_tick (env : Env) (d : Dev) : (reqDormant env d).1.tick = env.tick := ite_tick rfl rfl

@[simp] theorem reqRetention_tick (env : Env) (d : Dev) : (reqRetention env d).1.tick = env.tick := ite_tick rfl rfl

@[simp] theorem powerRequest_tick (req : Nat) (env : Env) (d : Dev) : (powerRequest req env d).1.tick = env.tick := by
  unfold powerRequest
  split
  · exact reqActive_tick ..
  · exact reqDormant_tick ..
  · exact reqRetention_tick ..
  · rfl

@[simp] theorem regWrite_tick (off : Nat) (v : W32) (env : Env) (d : Dev) : (regWrite off v env d).1.tick = env.tick := by
  unfold regWrite
  dsimp only
  split
  case h_1 | h_2 => exact writeDevice_tick ..
  case h_16 =>
    unfold writePwr
    split
    · exact powerRequest_tick ..
    all_goals rfl
  all_goals rfl

@[simp] theorem barWrite_tick (off : Nat) (v : W32) (env : Env) (d : Dev) : (barWrite off v env d).1.tick = env.tick :=
  ite_tick (ite_tick (sqTail_tick ..) rfl) (ite_tick rfl (regWrite_tick ..))

/-! ### Power -/

@[simp] theorem resetAdvance_tick (n t : Nat) (env : Env) (d : Dev) : (resetAdvance n t env d).1.tick = env.tick :=
  ite_tick (ite_tick rfl (ite_tick rfl rfl))
    (ite_tick (ite_tick rfl (ite_tick rfl rfl)) (ite_tick rfl (ite_tick (ite_tick rfl rfl) rfl)))

@[simp] theorem bringup_tick (b : BringFacts) (env : Env) (d : Dev) : (bringup b env d).1.tick = env.tick := by
  unfold bringup
  dsimp only
  split
  case h_2 =>
    refine ite_tick rfl ?_
    dsimp only
    split <;> rfl
  case h_3 | h_5 | h_6 => exact ite_tick rfl rfl
  all_goals rfl

@[simp] theorem reportUnsafe_tick (x : Env × Dev) : (reportUnsafe x).1.tick = x.1.tick := ite_tick rfl rfl

@[simp] theorem reportRestart_tick (x : Env × Dev) : (reportRestart x).1.tick = x.1.tick := ite_tick rfl rfl

@[simp] theorem checkLoop_tick (env : Env) (d : Dev) : (checkLoop env d).1.tick = env.tick :=
  ite_tick rfl (ite_tick (alarm_tick ..) (ite_tick (alarm_tick ..) rfl))

/-- A power-on sets the time base only where it starts RDM. -/
theorem powerOn_tick {env : Env} (h : rdmOn env = true) (d : Dev) : (powerOn env d).1.tick = env.tick := by
  unfold powerOn
  simp [h]

@[simp] theorem swapIn_tick (env : Env) (who : Option TaskRef) (slot secs : Nat) (d : Dev) :
    (swapIn env who slot secs d).1.tick = env.tick := ite_tick rfl rfl

/-! ### Commands -/

/-- The outcome is a next state, which has the queue as it was, and the time base too where `Kept` holds. -/
def Answers (Kept : Prop) (s : State) (o : Host.Outcome State Fault Refusal) : Prop :=
  ∃ t, o = .next t ∧ t.pending = s.pending ∧ (Kept → t.env.tick = s.env.tick)

section
variable {Kept : Prop} {s : State}

theorem answers_onDev {f : Env → Dev → Dev} : Answers Kept s (onDev s f) := ⟨_, rfl, rfl, fun _ => rfl⟩

theorem answers_serve {r : TaskRef} {opc : Nat} {f : Env → Task → Dev → Dev} : Answers Kept s (serve r opc f s) :=
  answers_onDev

theorem answers_unitStep {p : PostRef} {unit : BitVec 4} {pf : BitVec 6} {f : Env → Task → Post → Dev → Dev} :
    Answers Kept s (unitStep p unit pf f s) := answers_onDev

theorem answers_onMsg {kind : Nat} {f : Env → ActMsg → Hdr → Dev → Dev} : Answers Kept s (onMsg kind f s) := answers_onDev

theorem answers_onEnv {f : Env → Dev → Env × Dev} (ht : Kept → (f s.env s.dev).1.tick = s.env.tick) :
    Answers Kept s (onEnv s f) := ⟨_, rfl, rfl, ht⟩

/-- A transaction of the management bus moves the time base only where what it asks for does. -/
theorem answers_transact {port : Nat} {pec : Bool} {f : Env → Dev → Env × Dev} (ht : (f s.env s.dev).1.tick = s.env.tick) :
    Answers Kept s (transact port pec f s) :=
  answers_onEnv fun _ => ite_tick rfl (ite_tick rfl ht)

/-- A write of BAR0 of either size leaves the time base. -/
theorem answers_registerWrite (off : Nat) (eight : Bool) (v : Word) :
    Answers Kept s (execRegisterWrite off eight v s) :=
  answers_onEnv fun _ => ite_tick rfl (ite_tick rfl (ite_tick (barWrite_tick ..)
    (ite_tick rfl ((barWrite_tick ..).trans (barWrite_tick ..)))))

/-- A swap of firmware leaves the time base, whether the drive boots behind it or not. -/
theorem answers_activationSwap (slotOk : Bool) : Answers Kept s (execActivationSwap slotOk s) :=
  answers_onEnv fun _ => by
    dsimp only
    split
    · rfl
    · refine ite_tick rfl (ite_tick rfl ?_)
      split
      · rfl
      · exact ite_tick (swapIn_tick ..) rfl

/-- Main power at a drive whose RDM runs leaves the time base. -/
theorem answers_mainPowerGood (hk : Kept → rdmOn s.env = true) : Answers Kept s (execMainPowerGood s) :=
  answers_onEnv fun h => by
    refine ite_tick rfl ?_
    split
    · exact powerOn_tick (hk h) _
    all_goals rfl

/-- A loss of main power leaves the time base. -/
theorem answers_mainPowerLost (rail : Nat) : Answers Kept s (execMainPowerLost rail s) :=
  answers_onEnv fun _ => by
    have hslot := loseSlot33_tick rail s.env
    refine ite_tick hslot (ite_tick hslot ?_)
    dsimp only
    split
    · exact ite_tick hslot hslot
    · exact hslot
    · exact hslot

/-- A drain that ends at a drive whose RDM runs leaves the time base, main power being back or not. -/
theorem answers_drainDone (hk : Kept → rdmOn s.env = true) (ms mj : Nat) (complete : Bool) :
    Answers Kept s (execDrainDone ms mj complete s) :=
  answers_onEnv fun h => ite_tick rfl (ite_tick (powerOn_tick (by exact hk h) _) rfl)

/-- The end of an entry to RETENTION leaves the time base, a wake cause kept meanwhile included. -/
theorem answers_retentionEntered : Answers Kept s (execRetentionEntered s) :=
  answers_onEnv fun _ => by
    dsimp only
    split
    · refine ite_tick rfl (ite_tick rfl (ite_tick rfl ?_))
      split
      · exact ite_tick rfl (retentionCause_tick ..)
      · rfl
    · rfl

/-- A start of RDM sets the time base, at a drive where none of its inputs was there. -/
theorem answers_timebaseRestart (hk : Kept → rdmOn s.env = true) (m2 m3 aux33 auxAlt : Bool) :
    Answers Kept s (execTimebaseRestart m2 m3 aux33 auxAlt s) :=
  answers_onEnv fun h => by simp [hk h]

/-- A step of a device reset leaves the time base. -/
theorem answers_deviceResetStep : Answers Kept s (execDeviceResetStep s) :=
  answers_onEnv fun _ => by
    split
    · exact resetAdvance_tick ..
    · rfl

/-- The end of the hold after a thermal entry leaves the time base. -/
theorem answers_thermalWakeHoldEnd : Answers Kept s (execThermalWakeHoldEnd s) :=
  answers_onEnv fun _ => by
    split
    · exact ite_tick rfl rfl
    · rfl

/-- A measurement of the hold-up bank leaves the time base. -/
theorem answers_holdupMeasured (v0 v1 : Nat) : Answers Kept s (execHoldupMeasured v0 v1 s) :=
  answers_onEnv fun _ => by
    dsimp only
    split
    · rfl
    · exact ite_tick rfl rfl

end

/-- Settles O54: most commands change the drive alone, and of those that change more only a start of RDM sets the time base. -/
theorem commandsKeepQueueAndClock : Obligations.CommandsKeepQueueAndClock := by
  intro c s
  change Answers _ s (exec c s)
  unfold exec
  cases c with
  | sqTailDoorbell q v => exact answers_onEnv fun _ => sqTail_tick ..
  | enable v => exact answers_onEnv fun _ => ite_tick (ctrlWrite_tick ..) rfl
  | controllerReset v => exact answers_onEnv fun _ => ite_tick (ctrlWrite_tick ..) rfl
  | shutdown v => exact answers_onEnv fun _ => ite_tick (ctrlWrite_tick ..) rfl
  | devrst v => exact answers_onEnv fun _ => ite_tick (ctrlWrite_tick ..) rfl
  | deviceResetStep => exact answers_deviceResetStep
  | perst asserted => exact answers_onEnv fun _ => ite_tick rfl (ite_tick (perstRise_tick ..) rfl)
  | registerWrite off eight v => exact answers_registerWrite ..
  | activationSwap slotOk => exact answers_activationSwap ..
  | recoveryDone r => exact answers_onEnv fun _ => ite_tick rfl rfl
  | frameReceive port f => exact answers_onEnv fun _ => frameIn_tick ..
  | aux12vLoss => exact answers_onEnv fun _ => ite_tick rfl rfl
  | aux12vPresent => exact answers_onEnv fun _ => rfl
  | senseChange sense0 sense1 => exact answers_onEnv fun _ => rfl
  | thermalCritical n temp => exact answers_onEnv fun _ => ite_tick rfl (ite_tick rfl (startRetention_tick ..))
  | mainPowerGood => exact answers_mainPowerGood fun h => h.resolve_right fun k => k.2.1 rfl
  | bringupStep b => exact answers_onEnv fun _ => ite_tick (bringup_tick ..) (ite_tick rfl rfl)
  | mainPowerLost rail => exact answers_mainPowerLost ..
  | drainDone ms mj complete => exact answers_drainDone (fun h => h.resolve_right fun k => k.2.2 _ _ _ rfl) ..
  | reqActive => exact answers_onEnv fun _ => reqActive_tick ..
  | reqDormant => exact answers_onEnv fun _ => reqDormant_tick ..
  | reqRetention => exact answers_onEnv fun _ => reqRetention_tick ..
  | dormantEntered => exact answers_onEnv fun _ => ite_tick rfl rfl
  | retentionEntered => exact answers_retentionEntered ..
  | wakePin => exact answers_onEnv fun _ => ite_tick (retentionCause_tick ..) (wakeDormant_tick ..)
  | perstRisingEdge => exact answers_onEnv fun _ => ite_tick (perstRise_tick ..) rfl
  | dormantExit => exact answers_onEnv fun _ => ite_tick rfl rfl
  | thermalWakeHoldEnd => exact answers_thermalWakeHoldEnd
  | vauxLoss => exact answers_onEnv fun _ => ite_tick rfl rfl
  | selfrefreshLost => exact answers_onEnv fun _ => ite_tick rfl rfl
  | timebaseRestart m2 m3 aux33 auxAlt =>
    exact answers_timebaseRestart (fun h => h.resolve_right fun k => k.1 _ _ _ _ rfl) ..
  | holdupMeasureStart => exact answers_onEnv fun _ => ite_tick rfl rfl
  | holdupMeasured v0 v1 => exact answers_holdupMeasured ..
  | tamperOpen => exact answers_onEnv fun _ => ite_tick (alarm_tick ..) rfl
  | glitchTrip n => exact answers_onEnv fun _ => ite_tick rfl (ite_tick (alarm_tick ..) rfl)
  | status port => exact answers_transact rfl
  | pageSet port page pec => exact answers_transact rfl
  | pageGet port => exact answers_transact rfl
  | regRead port off pec => exact answers_transact (ite_tick rfl rfl)
  | regWrite port off v pec => exact answers_transact (ite_tick rfl (ite_tick rfl (regWrite_tick ..)))
  | deviceReset port v pec => exact answers_transact (ite_tick rfl (requestDeviceReset_tick ..))
  | wake port v pec =>
    exact answers_transact (ite_tick rfl (ite_tick (retentionCause_tick ..) (wakeDormant_tick ..)))
  | smbusTimeout port => exact answers_transact rfl
  | frameParser | put | get | delete | exist | append | rangeRead | rangeWrite | punch | cas | list | flush
  | framePut | roiRead | batch | identify | logRead | featureSet | featureGet | selfTestShort | selfTestExtended
  | selfTestAbort | keyspaceCreate | keyspaceDelete | keyspaceErase | keyspaceUnlock | keyspaceLock | programLoad
  | programUnload | queueCreate | queueDelete | mapLeaseGrant | mapLeaseRevoke | mapLeaseQuery | eventClear | attest
  | chainControlInsert | chainControlBypass | portReset | fwDownload | fwCommit | fwActivateDeferred
  | fwActivateImmediate | fwConfirm =>
    exact answers_serve
  | encodeTile | decodeTile | encodeBytes | decodeBytes | copy | lookup | lock | commit | unlock | remove | seq
  | scan | mediaRead | mediaWrite | mediaErase | readRaw | fwd | inv | derive | tagCheck | free | sealFree | record
  | sync | loopbackCapsule | sendData | recvData | timerDelay | timerAbsolute =>
    exact answers_unitStep
  | actOpen | actClose | actCmd | actData | actAck | actReset => exact answers_onMsg
  | _ => exact answers_onDev

/-! ### A step -/

theorem step_cons {s : State} {c : Instr} {rest : List Instr} (h : s.pending = c :: rest) :
    step s = exec c { s with pending := rest } := by
  simp only [step, h]

theorem step_nil {s : State} (h : s.pending = []) : step s = .next (idleTick s) := by
  simp only [step, h]

/-- Settles O53: `step` by the queue's two cases. -/
theorem stepTakesFront : Obligations.StepTakesFront :=
  ⟨fun _ _ _ h => step_cons h, fun _ h => step_nil h⟩

end Sys2Proof.Proofs
end

section
/-! The management bus: what each transaction answers, and what it leaves (R348, R498–R501, R507–R509). -/

namespace Sys2Proof.Proofs

open Sys2Proof.Machine Sys2Proof.Claims Sys2Proof.Laws

section
variable {s : State} {port : Nat} (hrdm : rdmOn s.env = true) (hport : port < 2)
include hrdm hport

/-! ### Transactions -/

/-- On a port that RDM answers, a transaction with its packet error code right is what it asks for. -/
theorem transact_good {f : Env → Dev → Env × Dev} {x : Env × Dev} (hf : f s.env s.dev = x) :
    transact port true f s = .next { s with env := x.1, dev := x.2 } := by
  simp [transact, onEnv_next, hrdm, Nat.not_le.mpr hport, hf]

/-- A transaction that changes the drive alone. -/
theorem transact_dev {f : Env → Dev → Env × Dev} {d : Dev} (hf : f s.env s.dev = (s.env, d)) :
    transact port true f s = .next { s with dev := d } := transact_good hrdm hport hf

/-- A transaction with a wrong packet error code is not acknowledged, whatever it asks for (R499). -/
theorem transact_wrongPec (f : Env → Dev → Env × Dev) :
    transact port false f s = .next { s with dev := mgNack port s.dev } := by
  simp [transact, onEnv_next, hrdm, Nat.not_le.mpr hport]

/-- A wrong packet error code leaves the drive but for the response, whichever transaction carries it. -/
theorem wrongPec_discarded (page v8 : Byte) (off : BitVec 16) (v : W32) :
    NextDev (.pageSet port page false) s (mgNack port s.dev) ∧ NextDev (.regRead port off false) s (mgNack port s.dev) ∧
    NextDev (.regWrite port off v false) s (mgNack port s.dev) ∧
    NextDev (.deviceReset port v8 false) s (mgNack port s.dev) ∧ NextDev (.wake port v8 false) s (mgNack port s.dev) :=
  ⟨show execPageSet port page false s = _ from transact_wrongPec hrdm hport _,
    show execRegRead port off false s = _ from transact_wrongPec hrdm hport _,
    show execRegWrite port off v false s = _ from transact_wrongPec hrdm hport _,
    show execDeviceReset port v8 false s = _ from transact_wrongPec hrdm hport _,
    show execWake port v8 false s = _ from transact_wrongPec hrdm hport _⟩

/-! ### STATUS and pages (R500) -/

theorem status_answers : NextDev (.status port) s (mgAck port (statusBytes s.env s.dev) s.dev) := by
  change execStatus port s = _
  exact transact_dev hrdm hport rfl

theorem pageSet_answers (page : Byte) : NextDev (.pageSet port page true) s
    (mgAck port [] { s.dev with mg := vupd s.dev.mg port (fun m => { m with page := page }) }) := by
  change execPageSet port page true s = _
  exact transact_dev hrdm hport rfl

theorem pageGet_answers : NextDev (.pageGet port) s (mgAck port [(mgPort s.dev port).page] s.dev) := by
  change execPageGet port s = _
  exact transact_dev hrdm hport rfl

/-- The page and the latch of a port outlast its timeout (log 25). -/
theorem smbusTimeout_drops : NextDev (.smbusTimeout port) s (mgAck port [] s.dev) := by
  change execSmbusTimeout port s = _
  exact transact_dev hrdm hport rfl

/-! ### Registers (R501, R507–R509) -/

/-- REG_READ of a register that is served answers RSTAT 0 and its value. -/
theorem regRead_served {off : BitVec 16} {a : Nat} (ha : mgOffset s.dev port off.toNat = a)
    (h : rstat s.env s.dev (mgPort s.dev port).page.toNat a (readAlways a) = 0) :
    NextDev (.regRead port off true) s
      (mgAck port (natLe 1 0 ++ natLe 4 (mgRead s.env port a s.dev).1) (mgRead s.env port a s.dev).2) := by
  subst ha
  change execRegRead port off true s = _
  exact transact_dev hrdm hport (if_neg (not_not.mpr h))

/-- REG_READ of a register that is not served answers RSTAT and a value of 0. -/
theorem regRead_refused {off : BitVec 16} {a : Nat} (ha : mgOffset s.dev port off.toNat = a)
    (h : rstat s.env s.dev (mgPort s.dev port).page.toNat a (readAlways a) ≠ 0) :
    NextDev (.regRead port off true) s
      (mgAck port (natLe 1 (rstat s.env s.dev (mgPort s.dev port).page.toNat a (readAlways a)) ++ natLe 4 0) s.dev) := by
  subst ha
  change execRegRead port off true s = _
  exact transact_dev hrdm hport (if_pos h)

/-- REG_WRITE of a register that is not served answers RSTAT. -/
theorem regWrite_refused {off : BitVec 16} {a : Nat} (ha : mgOffset s.dev port off.toNat = a) (v : W32)
    (h : rstat s.env s.dev (mgPort s.dev port).page.toNat a (a == 0x1210) ≠ 0) :
    NextDev (.regWrite port off v true) s
      (mgAck port (natLe 1 (rstat s.env s.dev (mgPort s.dev port).page.toNat a (a == 0x1210))) s.dev) := by
  subst ha
  change execRegWrite port off v true s = _
  exact transact_dev hrdm hport (if_pos h)

/-- REG_WRITE of a register of the local host's answers RSTAT 2 (R508). -/
theorem regWrite_hostOwned {off : BitVec 16} {a : Nat} (ha : mgOffset s.dev port off.toNat = a) (v : W32)
    (h : rstat s.env s.dev (mgPort s.dev port).page.toNat a (a == 0x1210) = 0) (hhost : hostOwned a = true) :
    NextDev (.regWrite port off v true) s (mgAck port (natLe 1 2) s.dev) := by
  subst ha
  change execRegWrite port off v true s = _
  exact transact_dev hrdm hport ((if_neg (not_not.mpr h)).trans (if_pos hhost))

/-- REG_WRITE of another register writes it and answers RSTAT 0. -/
theorem regWrite_served {off : BitVec 16} {a : Nat} (ha : mgOffset s.dev port off.toNat = a) (v : W32)
    (h : rstat s.env s.dev (mgPort s.dev port).page.toNat a (a == 0x1210) = 0) (hhost : hostOwned a = false) :
    exec (.regWrite port off v true) s = .next { s with
      env := (regWrite a v s.env s.dev).1, dev := mgAck port (natLe 1 0) (regWrite a v s.env s.dev).2 } := by
  subst ha
  change execRegWrite port off v true s = _
  let written := regWrite (mgOffset s.dev port off.toNat) v s.env s.dev
  exact transact_good hrdm hport (x := (written.1, mgAck port (natLe 1 0) written.2))
    ((if_neg (not_not.mpr h)).trans (if_neg (ne_true_of_eq_false hhost)))

/-! ### Reset and wake (R500, R501) -/

/-- DEVICE_RESET acts on the value 0x5D alone. -/
theorem deviceReset_wrongValue {v : Byte} (h : v ≠ 0x5D) : NextDev (.deviceReset port v true) s (mgNack port s.dev) := by
  change execDeviceReset port v true s = _
  exact transact_dev hrdm hport (if_pos h)

theorem deviceReset_requests : exec (.deviceReset port 0x5D true) s = .next { s with
    env := (requestDeviceReset s.env (mgAck port [] s.dev)).1, dev := (requestDeviceReset s.env (mgAck port [] s.dev)).2 } := by
  change execDeviceReset port 0x5D true s = _
  exact transact_good hrdm hport (if_neg (not_not.mpr rfl))

/-- WAKE acts on the value 0x01 alone. -/
theorem wake_wrongValue {v : Byte} (h : v ≠ 0x01) : NextDev (.wake port v true) s (mgNack port s.dev) := by
  change execWake port v true s = _
  exact transact_dev hrdm hport (if_pos h)

/-- In RETENTION, or while it is entered, WAKE is a wake cause of RETENTION (R449). -/
theorem wake_retention (h : s.env.pw.st = .retention ∨ enteringRetention s.env.pw = true) :
    exec (.wake port 0x01 true) s = .next { s with
      env := (retentionCause 5 s.env (mgAck port [] s.dev)).1, dev := (retentionCause 5 s.env (mgAck port [] s.dev)).2 } := by
  change execWake port 0x01 true s = _
  exact transact_good hrdm hport ((if_neg (not_not.mpr rfl)).trans (if_pos (by simpa using h)))

/-- Elsewhere WAKE is a wake cause of DORMANT (R448). -/
theorem wake_dormant (h : s.env.pw.st ≠ .retention) (hentering : enteringRetention s.env.pw = false) :
    exec (.wake port 0x01 true) s = .next { s with
      env := (wakeDormant 5 s.env (mgAck port [] s.dev)).1, dev := (wakeDormant 5 s.env (mgAck port [] s.dev)).2 } := by
  change execWake port 0x01 true s = _
  exact transact_good hrdm hport ((if_neg (not_not.mpr rfl)).trans (if_neg (by simp [h, hentering])))

end

/-- STATUS is 16 bytes (R500). -/
theorem statusBytes_length (env : Env) (d : Dev) : (statusBytes env d).length = 16 := by
  simp [statusBytes, natLe]

/-- Settles O52: each transaction by what it asks for, and with a wrong packet error code none. -/
theorem managementBus : Obligations.ManagementBus := by
  intro s port page v8 off v hrdm hport a st r wrong noted to_
  exact ⟨status_answers hrdm hport, statusBytes_length .., pageSet_answers hrdm hport page, pageGet_answers hrdm hport,
    smbusTimeout_drops hrdm hport, regRead_served hrdm hport rfl, regRead_refused hrdm hport rfl,
    fun h => ⟨regWrite_hostOwned hrdm hport rfl v h, regWrite_served hrdm hport rfl v h⟩,
    regWrite_refused hrdm hport rfl v, deviceReset_requests hrdm hport, deviceReset_wrongValue hrdm hport,
    wake_retention hrdm hport, wake_dormant hrdm hport, wake_wrongValue hrdm hport,
    wrongPec_discarded hrdm hport page v8 off v⟩

end Sys2Proof.Proofs
end

section
/-! The posts to CIPHER (12, R380–R383, R392), kind by kind. -/

namespace Sys2Proof.Proofs

open Sys2Proof.Machine Sys2Proof.Claims Sys2Proof.Laws

/-- A unit's meaning, evaluated on the post it finds, is the drive it answers. -/
theorem unitStep_eq {s : State} {p : PostRef} {unit : BitVec 4} {pf : BitVec 6} {t : Task} {x : Post}
    (h : postOf s.dev p unit pf = some (t, x)) {f : Env → Task → Post → Dev → Dev} {d : Dev} (hd : f s.env t x s.dev = d) :
    unitStep p unit pf f s = .next { s with dev := d } :=
  hd ▸ unitStep_next h f

/-! ### Block operations (R381, R382) -/

/-- The blocks of an unsealed post would take its key slot past the usage limit. -/
def PastLimit (d : Dev) (c : V512) : Prop :=
  bitOf c 16 = false ∧ usageLimit d < (keySlot d (cap c 0 2)).ops + cap c 4 4 / 16

/-- What a block operation makes of the input a descriptor names, combined with the second input under XOR. -/
def blocksOut (op : List Byte → List Byte → List Byte) (t : Task) (c : V512) (d : Dev) : List Byte :=
  let bs := blocks (op (keySlot d (cap c 0 2)).key) (readFor t d (cap c 8 8) (cap c 4 4))
  if bitOf c 17 then xorBytes bs (readFor t d (cap c 16 8) (cap c 4 4)) else bs

/-- The blocks of an unsealed post are counted against its key slot. -/
def blocksCounted (c : V512) (d : Dev) : Dev :=
  if bitOf c 16 then d else updKey (cap c 0 2) (fun q => { q with ops := q.ops + cap c 4 4 / 16 }) d

section
variable {d : Dev} {t : Task} {x : Post} (fwd : Bool) (op : List Byte → List Byte → List Byte) (p : PostRef) (env : Env)

/-- The model's test of the usage limit. -/
theorem pastLimit_iff (c : V512) :
    (!bitOf c 16 && decide (usageLimit d < (keySlot d (cap c 0 2)).ops + cap c 4 4 / 16)) = true ↔ PastLimit d c := by
  simp [PastLimit]

theorem cipherBlocks_alarmed (h : alarmed d t x.desc true (bitOf x.desc 16) = true) :
    cipherBlocks fwd op p env t x d = endCipher p t 0 0x07 d :=
  if_pos h

variable (hclean : ¬ alarmed d t x.desc true (bitOf x.desc 16) = true)
include hclean

/-- Past the limit nothing is written; a FWD turned away then advances KGEN (R386). -/
theorem cipherBlocks_pastLimit (hpast : PastLimit d x.desc) :
    cipherBlocks fwd op p env t x d =
      let e := endCipher p t 0 0x0A (setCause env 13 4 d)
      if fwd then advanceKgen env (keySlot d (cap x.desc 0 2)).ksid.toNat e else e :=
  (if_neg hclean).trans (if_pos ((pastLimit_iff x.desc).mpr hpast))

theorem cipherBlocks_writes (hwithin : ¬ PastLimit d x.desc) :
    cipherBlocks fwd op p env t x d =
      endCipher p t (cap x.desc 4 4) 0 (cipherOut t x.desc (blocksOut op t x.desc d) (blocksCounted x.desc d)) :=
  (if_neg hclean).trans (if_neg (mt (pastLimit_iff x.desc).mp hwithin))

end

section
variable {s : State} {p : PostRef} {t : Task} {x : Post}

theorem fwd_alarmed (h : postOf s.dev p 2 0 = some (t, x)) (ha : alarmed s.dev t x.desc true (bitOf x.desc 16) = true) :
    NextDev (.fwd p) s (endCipher p t 0 0x07 s.dev) := by
  change execFwd p s = _
  exact unitStep_eq h (cipherBlocks_alarmed true aesEnc p s.env ha)

theorem fwd_writes (h : postOf s.dev p 2 0 = some (t, x)) (ha : ¬ alarmed s.dev t x.desc true (bitOf x.desc 16) = true)
    (hwithin : ¬ PastLimit s.dev x.desc) :
    NextDev (.fwd p) s (endCipher p t (cap x.desc 4 4) 0
      (cipherOut t x.desc (blocksOut aesEnc t x.desc s.dev) (blocksCounted x.desc s.dev))) := by
  change execFwd p s = _
  exact unitStep_eq h (cipherBlocks_writes true aesEnc p s.env ha hwithin)

theorem inv_writes (h : postOf s.dev p 2 1 = some (t, x)) (ha : ¬ alarmed s.dev t x.desc true (bitOf x.desc 16) = true)
    (hwithin : ¬ PastLimit s.dev x.desc) :
    NextDev (.inv p) s (endCipher p t (cap x.desc 4 4) 0
      (cipherOut t x.desc (blocksOut aesDec t x.desc s.dev) (blocksCounted x.desc s.dev))) := by
  change execInv p s = _
  exact unitStep_eq h (cipherBlocks_writes false aesDec p s.env ha hwithin)

theorem inv_pastLimit (h : postOf s.dev p 2 1 = some (t, x)) (ha : ¬ alarmed s.dev t x.desc true (bitOf x.desc 16) = true)
    (hpast : PastLimit s.dev x.desc) : NextDev (.inv p) s (endCipher p t 0 0x0A (setCause s.env 13 4 s.dev)) := by
  change execInv p s = _
  exact unitStep_eq h (cipherBlocks_pastLimit false aesDec p s.env ha hpast)

/-! ### DERIVE (R381) -/

/-- A key slot takes a fresh key under a label, and no alarm stands against it any more. -/
def fillKey (c : V512) (root label : List Byte) (d : Dev) : Dev :=
  updKey (cap c 0 2) (fun _ => { key := deriveKey root label, ops := 0, ksid := BitVec.ofNat 8 (leAt label 1 1) })
    { d with ccl := { d.ccl with alarmKeys := d.ccl.alarmKeys.filter (· != cap c 0 2) } }

/-- The keyspace a DERIVE's label names. -/
def labelKs (t : Task) (c : V512) (d : Dev) : Keyspace := ksOf d (leAt (readFor t d (cap c 8 8) 32) 1 1)

section
variable (h : postOf s.dev p 2 2 = some (t, x))
include h

theorem derive_device (hroot : cap x.desc 32 1 = 0) :
    NextDev (.derive p) s
      (endCipher p t 0 0 (fillKey x.desc drkBytes (readFor t s.dev (cap x.desc 8 8) 32) s.dev)) := by
  change execDerive p s = _
  exact unitStep_eq h (by simp [hroot, fillKey])

theorem derive_keyspace (hroot : cap x.desc 32 1 = 1) (hopen : (labelKs t x.desc s.dev).locked = false)
    (hksr : (labelKs t x.desc s.dev).ksr ≠ []) :
    NextDev (.derive p) s (endCipher p t 0 0
      (fillKey x.desc (labelKs t x.desc s.dev).ksr (readFor t s.dev (cap x.desc 8 8) 32) s.dev)) := by
  simp only [labelKs] at hopen hksr
  change execDerive p s = _
  exact unitStep_eq h (by simp [hroot, hopen, hksr, fillKey, labelKs])

/-- A locked keyspace, and one without a root, derives no key. -/
theorem derive_locked (hroot : cap x.desc 32 1 = 1)
    (hno : (labelKs t x.desc s.dev).locked = true ∨ (labelKs t x.desc s.dev).ksr = []) :
    NextDev (.derive p) s (endCipher p t 0 0x0E s.dev) := by
  change execDerive p s = _
  exact unitStep_eq h (if_pos (by simpa [hroot, labelKs] using hno))

end

/-! ### TAG_CHECK (R383, R385, R392) -/

/-- The tag of a descriptor: its GHASH under the first counter block encrypted. -/
def cipherTag (t : Task) (c : V512) (d : Dev) : List Byte :=
  xorBytes (slice (v512Bytes c) 48 16) (aesEnc (keySlot d (cap c 0 2)).key (readFor t d (cap c 8 8) 16))

/-- A sealed slot may be read from now on. -/
def releaseSealed (n : Nat) (d : Dev) : Dev :=
  { d with ccl := { d.ccl with sealed := d.ccl.sealed.map (fun q => if q.1 == n then (q.1, { q.2 with released := true }) else q) } }

section
variable (h : postOf s.dev p 2 3 = some (t, x))
include h

theorem tagCheck_alarmed (ha : alarmed s.dev t x.desc true true = true) :
    NextDev (.tagCheck p) s (endCipher p t 0 0x07 (freeSealed [cap x.desc 24 8] s.dev)) := by
  change execTagCheck p s = _
  exact unitStep_eq h (if_pos ha)

variable (ha : ¬ alarmed s.dev t x.desc true true = true)
include ha

theorem tagCheck_matches (htag : cipherTag t x.desc s.dev = slice (v512Bytes x.desc) 32 16) :
    NextDev (.tagCheck p) s (endCipher p t 16 0 (releaseSealed (cap x.desc 24 8) s.dev)) := by
  change execTagCheck p s = _
  exact unitStep_eq h ((if_neg ha).trans (if_pos htag))

theorem tagCheck_differs (htag : cipherTag t x.desc s.dev ≠ slice (v512Bytes x.desc) 32 16) :
    NextDev (.tagCheck p) s (endCipher p t 16 0x0C
      (event s.env 0x0D02 5 clsSecurity 0 (keySlot s.dev (cap x.desc 0 2)).ksid.toNat
        ((keyHash (BitVec.ofNat 8 (capKsid t.capsule)) t.key).toNat % 2 ^ 32)
        (leAt (readFor t s.dev (cap x.desc 8 8) 16) 4 4) (setCause s.env 13 1 (freeSealed [cap x.desc 24 8] s.dev)))) := by
  change execTagCheck p s = _
  exact unitStep_eq h ((if_neg ha).trans (if_neg htag))

end

/-! ### FREE and SEAL_FREE (R381, R383) -/

theorem free_next (h : postOf s.dev p 2 4 = some (t, x)) (ha : ¬ alarmed s.dev t x.desc true false = true) :
    NextDev (.free p) s
      (endCipher p t 0 0 { s.dev with ccl := { s.dev.ccl with keys := tblErase s.dev.ccl.keys (cap x.desc 0 2) } }) := by
  change execFree p s = _
  exact unitStep_eq h (if_neg ha)

theorem sealFree_next (h : postOf s.dev p 2 5 = some (t, x)) (ha : ¬ alarmed s.dev t x.desc false true = true) :
    NextDev (.sealFree p) s (endCipher p t 0 0 (freeSealed [cap x.desc 24 8] s.dev)) := by
  change execSealFree p s = _
  exact unitStep_eq h (if_neg ha)

end

/-- Settles O20: each kind of post by what an alarm, the usage limit, the root or the tag makes of it. -/
theorem cipherPosts : Obligations.CipherPosts := by
  intro s p t x c k len slot seals hit past input out counted placed label ks filled pad
  exact ⟨fwd_alarmed, fwd_writes, inv_writes, inv_pastLimit,
    fun h => ⟨derive_device h, derive_keyspace h, derive_locked h⟩,
    tagCheck_alarmed, fun h ha => ⟨tagCheck_matches h ha, tagCheck_differs h ha⟩, free_next, sealFree_next⟩

end Sys2Proof.Proofs
end

section
/-! Reports, features, self-tests, event clearing and attestation (12, R388, R389; 13, R394–R401; 15, R435, R436). -/

namespace Sys2Proof.Proofs

open Sys2Proof.Machine Sys2Proof.Claims Sys2Proof.Laws

/-! ### Structures read (R394–R397) -/

/-- The stretches of a buffer that a structure fills: none when it is empty. -/
def bufferStretches (bs : List Byte) : List (Nat × List Byte) := if bs.isEmpty then [] else [(0, bs)]

/-- A structure goes to the command's buffer, and the command completes. -/
theorem giveBytes_ok (env : Env) (t : Task) (bs : List Byte) (result : Nat) {d : Dev} (hissues : d.hqe.issues = true) :
    giveBytes env t .ok bs result d =
      adminDone env t scOk result (deliverAll env t (bufferStretches bs) d) :=
  moveOut_completes (.inr hissues) scOk _ false

/-- A log page takes at most a free value. -/
theorem logPage_hqe (env : Env) (lid : Nat) (d : Dev) : (logPage env lid d).2.hqe = d.hqe := by
  unfold logPage
  split
  case h_3 => split <;> rfl
  all_goals rfl

/-- The stretch of a page that a LOG_READ asks for. -/
def logPart (c : V512) (page : List Byte) : List Byte :=
  (page.drop (capOff c)).take (min (capOff c + capLen c) page.length - capOff c)

theorem logPart_length (c : V512) (page : List Byte) :
    (logPart c page).length = min (capOff c + capLen c) page.length - capOff c := by
  simp only [logPart, List.length_take, List.length_drop]
  omega

/-- A CONSUME read of a host command takes its entries away at once. -/
theorem consumeAfter_host {env : Env} {t : Task} {n : Nat} {d0 : Dev} (hn : n ≠ 0) (hkind : t.kind = .host)
    (hposts : hostPosts d0 t = true) (d : Dev) : consumeAfter env t n d0 d = consumeErrors d0.hqe.defFirst n d := by
  simp [consumeAfter, hn, hkind, hposts]

section
variable {s : State} {r : TaskRef} {t : Task}

theorem identify_next (h : serving s.dev r 0x40 = some t) (hissues : s.dev.hqe.issues = true) :
    NextDev (.identify r .ok) s (adminDone s.env t scOk (min (capLen t.capsule) 4096)
      (deliverAll s.env t (bufferStretches ((identPage s.env s.dev (cap t.capsule 6 1)).take (min (capLen t.capsule) 4096)))
        s.dev)) := by
  change execIdentify r .ok s = _
  exact serve_next h (giveBytes_ok s.env t _ _ hissues)

/-- LOG_READ answers the length of what it delivers and that of the page. -/
theorem logRead_next (h : serving s.dev r 0x41 = some t) (hissues : s.dev.hqe.issues = true) :
    let page := logPage s.env (cap t.capsule 6 1) s.dev
    NextDev (.logRead r .ok) s (consumeAfter s.env t (consumed s.dev t.capsule) s.dev
      (adminDone s.env t scOk ((logPart t.capsule page.1).length + min page.1.length 0xFFFFFFFF * 2 ^ 32)
        (deliverAll s.env t (bufferStretches (logPart t.capsule page.1)) page.2))) := by
  intro page
  have hpage : page.2.hqe.issues = true := (congrArg Hqe.issues (logPage_hqe ..)).trans hissues
  change execLogRead r .ok s = _
  refine serve_next h ?_
  rw [if_pos (by simp [hostOnly, hissues]), giveBytes_ok _ _ _ _ hpage, logPart_length]
  rfl

/-- A CONSUME read of the deferred-error page. -/
theorem logRead_consumes (h : serving s.dev r 0x41 = some t) (hissues : s.dev.hqe.issues = true)
    (hpage : cap t.capsule 6 1 = 2) (hkind : t.kind = .host) (hposts : hostPosts s.dev t = true)
    (hsome : consumed s.dev t.capsule ≠ 0) :
    let bs := (logPage s.env (cap t.capsule 6 1) s.dev).1
    NextDev (.logRead r .ok) s (consumeErrors s.dev.hqe.defFirst (consumed s.dev t.capsule)
      (adminDone s.env t scOk ((logPart t.capsule bs).length + min bs.length 0xFFFFFFFF * 2 ^ 32)
        (deliverAll s.env t (bufferStretches (logPart t.capsule bs)) s.dev))) := by
  have hfixed : (logPage s.env (cap t.capsule 6 1) s.dev).2 = s.dev := by rw [hpage]; rfl
  refine nextDev_of_eq (logRead_next h hissues) ?_
  rw [consumeAfter_host hsome hkind hposts, hfixed]

/-! ### Features (R398, R399) -/

/-- FEATURE_SET with SAVE keeps the value as well. -/
def featureKept (env : Env) (c : V512) (d : Dev) : Dev :=
  let set := featureSet env (capOpts c) (capOff c) d
  if bitOf c 256 then saveFeature (capOpts c) (capOff c) set else set

section
variable (h : serving s.dev r 0x42 = some t)
include h

theorem featureSet_takes (hok : featureOk s.dev true (capOpts t.capsule) (capOff t.capsule) = true) :
    let kept := featureKept s.env t.capsule s.dev
    NextDev (.featureSet r) s
      (adminDone s.env t scOk (featureNow kept (capOpts t.capsule) (capOff t.capsule)) kept) := by
  change execFeatureSet r s = _
  exact serve_next h (if_neg (by simp [hok]))

theorem featureSet_refuses (hbad : featureOk s.dev true (capOpts t.capsule) (capOff t.capsule) = false) :
    NextDev (.featureSet r) s (adminDone s.env t scInvalidField 0 s.dev) := by
  change execFeatureSet r s = _
  exact serve_next h (if_pos (by simp [hbad]))

end

theorem featureGet_next (h : serving s.dev r 0x43 = some t) :
    NextDev (.featureGet r) s
      (adminDone s.env t scOk (featureNow s.dev (capOpts t.capsule) (capOff t.capsule)) s.dev) := by
  change execFeatureGet r s = _
  exact serve_next h rfl

/-! ### Self-tests (R400, R401) -/

/-- A self-test of a kind is under way from now on. -/
def testStarted (kind : Nat) (env : Env) (d : Dev) : Dev := { d with adm := { d.adm with test := some (kind, env.tick) } }

theorem startTest_idle {kind : Nat} {d : Dev} (hop : capOpts t.capsule = kind) (hnone : d.adm.test = none) (env : Env) :
    startTest kind env t d = adminDone env t scOk 0 (testStarted kind env d) := by
  simp [startTest, testStarted, hop, hnone]

theorem startTest_busy {kind : Nat} {d : Dev} (hop : capOpts t.capsule = kind) (hsome : d.adm.test.isSome = true) (env : Env) :
    startTest kind env t d = adminDone env t scExists 0 d := by
  simp [startTest, hop, hsome]

section
variable (h : serving s.dev r 0x44 = some t)
include h

theorem selfTestShort_next {d : Dev} (hd : startTest 1 s.env t s.dev = d) : NextDev (.selfTestShort r) s d := by
  change execSelfTestShort r s = _
  exact serve_next h hd

theorem selfTestExtended_next {d : Dev} (hd : startTest 2 s.env t s.dev = d) : NextDev (.selfTestExtended r) s d := by
  change execSelfTestExtended r s = _
  exact serve_next h hd

theorem selfTestAbort_none (hop : capOpts t.capsule = 15) (hnone : s.dev.adm.test = none) :
    NextDev (.selfTestAbort r) s (adminDone s.env t scNotFound 0 s.dev) := by
  change execSelfTestAbort r s = _
  exact serve_next h (by simp [hop, hnone])

theorem selfTestAbort_ends {kind start : Nat} (hop : capOpts t.capsule = 15) (htest : s.dev.adm.test = some (kind, start)) :
    NextDev (.selfTestAbort r) s (adminDone s.env t scOk 0 (endTest s.env kind 2 0 0 s.dev)) := by
  change execSelfTestAbort r s = _
  exact serve_next h (by simp [hop, htest])

end

section
variable {kind start seg : Nat} {code : BitVec 16} (htest : s.dev.adm.test = some (kind, start))
include htest

theorem selfTestEnd_starves (hday : start + 86400 * 25000000 ≤ s.env.tick) :
    NextDev (.selfTestEnd seg code true) s (endTest s.env kind 3 0 0 s.dev) := by
  change execSelfTestEnd seg code true s = _
  exact onDev_eq (by simp [htest, Config.second, hday])

theorem selfTestEnd_inactive (hst : s.env.pw.st ≠ .active) : NextDev (.selfTestEnd seg code false) s s.dev := by
  change execSelfTestEnd seg code false s = _
  exact onDev_eq (by simp [htest, hst])

theorem selfTestEnd_passes (hst : s.env.pw.st = .active) :
    NextDev (.selfTestEnd 0 code false) s (endTest s.env kind 0 0 0 (runSegments s.env kind 0 0 s.dev)) := by
  change execSelfTestEnd 0 code false s = _
  exact onDev_eq (by simp [htest, hst])

/-- The fifth segment is run only where nothing is bypassed. -/
theorem selfTestEnd_fails (hst : s.env.pw.st = .active) (hpos : 1 ≤ seg) (hseg : seg ≤ 4 ∨ seg = 5 ∧ s.dev.cpt.bypass = 0) :
    NextDev (.selfTestEnd seg code false) s (endTest s.env kind 1 seg code (runSegments s.env kind seg code s.dev)) := by
  have hne : seg ≠ 0 := Nat.ne_of_gt hpos
  change execSelfTestEnd seg code false s = _
  exact onDev_eq (by simp [htest, hst, hne, hseg])

end

/-- The period of main-power-on time starts a short test. -/
theorem selftestPeriod_starts (hmain : s.env.pw.main = true) (hst : s.env.pw.st = .active) (htrans : s.env.pw.trans = .none)
    (hset : s.dev.adm.selftestH ≠ 0) (hdue : s.dev.adm.lastPeriod + 3600 * s.dev.adm.selftestH ≤ opsecNow s.env)
    (hnone : s.dev.adm.test = none) :
    NextDev .selftestPeriod s { s.dev with adm := { s.dev.adm with
      test := some (1, s.env.tick), lastPeriod := opsecNow s.env } } := by
  change execSelftestPeriod s = _
  exact onDev_eq (by simp [hmain, hst, htrans, hset, hdue, hnone])

/-! ### EVENT_CLEAR (R435, R436) -/

theorem eventClear_next (h : serving s.dev r 0x4E = some t) :
    let logs := cap t.capsule 6 1
    let upto := capOff t.capsule
    NextDev (.eventClear r) s
      (adminDone s.env t scOk (cleared logs upto s.dev).length (clearLogs s.env t logs upto s.dev)) := by
  change execEventClear r s = _
  exact serve_next h rfl

end

/-! ### ATTEST (R388, R389) -/

@[simp] theorem kLanes_length (f : Nat → Nat → Word) : (kLanes f).length = 25 := by simp [kLanes]

@[simp] theorem keccakF_length {a : List Word} (h : a.length = 25) : (keccakF a).length = 25 :=
  List.foldlRecOn (motive := fun b : List Word => b.length = 25) keccakRc _ h (fun _ _ _ _ => kLanes_length _)

/-- Absorbing keeps the 25 lanes. -/
theorem keccakAbsorb_length (n : Nat) (bs : List Byte) {a : List Word} (h : a.length = 25) :
    (keccakAbsorb n bs a).length = 25 := by
  induction n generalizing bs a with
  | zero => exact h
  | succ n ih =>
    unfold keccakAbsorb
    split
    · exact h
    · exact ih _ (keccakF_length (kLanes_length _))

@[simp] theorem shake256_length (bs : List Byte) : (shake256 bs).length = 32 := by
  simp [shake256, sponge256, List.length_flatMap, keccakAbsorb_length]

@[simp] theorem userDigest_length (d : Dev) : (userDigest d).length = 32 := by
  unfold userDigest
  split <;> simp

@[simp] theorem textPad_length (n : Nat) (bs : List Byte) : (textPad n bs).length = n := by
  simp only [textPad, List.length_append, List.length_take, List.length_replicate]
  omega

/-- The report before its signature is 256 bytes. -/
theorem attestBody_length (env : Env) (d : Dev) (nonce : List Byte) (leaf : Nat) : (attestBody env d nonce leaf).length = 256 := by
  unfold attestBody
  cases d.sec.run <;> simp

/-- Taking a leaf uses up one. -/
theorem takeLeaf_leaf (env : Env) (d : Dev) : (takeLeaf env d).sec.leaf = d.sec.leaf + 1 := by
  unfold takeLeaf
  dsimp only
  split <;> simp

@[simp] theorem hostView_takeLeaf (env : Env) (d : Dev) : hostView (takeLeaf env d) = hostView d := by
  unfold takeLeaf
  dsimp only
  split
  · simp only [hostView_setCause, hostView_event]
    rfl
  · rfl

/-- The report of ATTEST: the body, signed with the leaf it uses. -/
def attestReport (env : Env) (c : V512) (d : Dev) : List Byte :=
  let body := attestBody env d ((v512Bytes c).drop 32) d.sec.leaf
  (body ++ (List.range 9893).map (Config.signature d.sec.leaf body)).take (capLen c)

theorem attestReport_length (env : Env) (c : V512) (d : Dev) : (attestReport env c d).length = min (capLen c) 10149 := by
  simp [attestReport, attestBody_length]

theorem attest_next {s : State} {r : TaskRef} {t : Task} (h : serving s.dev r 0x53 = some t) (hissues : s.dev.hqe.issues = true)
    (hleft : s.dev.sec.leaf < 2 ^ 40) :
    NextDev (.attest r .ok) s (adminDone s.env t scOk 0
      (deliverAll s.env t (bufferStretches (attestReport s.env t.capsule s.dev)) (takeLeaf s.env s.dev))) := by
  change execAttest r .ok s = _
  refine serve_next h ((if_neg (Nat.not_le.mpr hleft)).trans ?_)
  exact giveBytes_ok s.env t _ 0 ((congrArg Prod.snd (hostView_takeLeaf ..)).trans hissues)

/-! ### The statement -/

/-- Settles O40: each command by the case of its rule. -/
theorem reportsAndSettings : Obligations.ReportsAndSettings := by
  intro s r t opc k seg kind start code c fin out body page part fid set kept logs upto done
  refine ⟨fun h => ?commands, fun htest => ?testEnd, selftestPeriod_starts⟩
  case testEnd =>
    exact ⟨selfTestEnd_passes htest, selfTestEnd_fails htest, selfTestEnd_inactive htest, selfTestEnd_starves htest⟩
  refine ⟨?identify, ?logRead, ?logConsume, ?featureTakes, ?featureRefuses, ?featureGet, ?testIdle, ?testRuns, ?eventClear,
    ?attest⟩
  all_goals rintro rfl
  case identify => exact identify_next h
  case logRead => exact logRead_next h
  case logConsume =>
    rintro hissues hpage - hkind hposts rfl hsome
    exact ⟨_, logRead_consumes h hissues hpage hkind hposts hsome⟩
  case featureTakes => exact featureSet_takes h
  case featureRefuses => exact featureSet_refuses h
  case featureGet => exact featureGet_next h
  case testIdle =>
    exact fun hnone => ⟨fun hop => selfTestShort_next h (startTest_idle hop hnone _),
      fun hop => selfTestExtended_next h (startTest_idle hop hnone _), fun hop => selfTestAbort_none h hop hnone⟩
  case testRuns =>
    exact fun htest => ⟨fun hop => selfTestShort_next h (startTest_busy hop (Option.isSome_of_eq_some htest) _),
      fun hop => selfTestAbort_ends h hop htest⟩
  case eventClear => exact eventClear_next h
  case attest =>
    exact fun hissues hleft => ⟨_, attest_next h hissues hleft, takeLeaf s.env s.dev, attestReport s.env c s.dev, rfl,
      takeLeaf_leaf .., attestReport_length .., rfl⟩

end Sys2Proof.Proofs
end

section
/-! Shifts by an immediate (03, Immediate forms). -/

namespace Sys2Proof.Proofs

open Sys2Proof.Machine Sys2Proof.Claims Sys2Proof.Laws

/-- IMM15 of SHI: the kind of shift in bits 7:6, the count below. -/
def shiftImm (kind : BitVec 2) (n : BitVec 6) : BitVec 15 := (kind ++ n).setWidth 15

theorem shiftImm_toNat (kind : BitVec 2) (n : BitVec 6) : (shiftImm kind n).toNat = kind.toNat * 64 + n.toNat := by
  have hor : kind.toNat <<< 6 ||| n.toNat = kind.toNat * 64 + n.toNat := by
    rw [← Nat.shiftLeft_add_eq_or_of_lt n.isLt, Nat.shiftLeft_eq]
  rw [shiftImm, BitVec.toNat_setWidth, BitVec.toNat_append, hor]
  omega

/-- Count, kind and the bits above them, which are zero. -/
theorem shiftImm_fields (kind : BitVec 2) (n : BitVec 6) :
    fld (shiftImm kind n) 0 6 = n.toNat ∧ fld (shiftImm kind n) 6 2 = kind.toNat ∧ fld (shiftImm kind n) 8 7 = 0 := by
  have hkind := kind.isLt
  have hn := n.isLt
  simp only [fld, shiftImm_toNat]
  omega

/-- The result of SHI on x in a kind. -/
def shifted (kind : BitVec 2) (x : Word) (n : Nat) : Word :=
  match kind.toNat with
  | 0 => x <<< n
  | 1 => x >>> n
  | 2 => x.sshiftRight n
  | _ => x.rotateRight n

/-- A register-only instruction that does not fault writes its task's registers and goes on at pc + 4. -/
theorem shuan_regOnly_next {s : State} {e : Nat} {t t' : Task} (h : Runs s e t) {f : Task → Except Byte Task}
    (hf : f t = .ok t') :
    onDev s (fun env d => shuan e (regOnly f) env d) =
      .next { s with dev := putTask { t'.next with instrs := t.instrs + 1 } s.dev } := by
  obtain ⟨hrun, hbound, hpc⟩ := h
  exact onDev_eq (shuan_ok e _ _ _ _ _ _ hrun hbound hpc (regOnly_ok f _ _ _ _ hf))

/-- SHI shifts in its kind by its count. -/
theorem after_shi {s : State} {e : Nat} {t : Task} (h : Runs s e t) (kind : BitVec 2) (n : BitVec 6) (a d : BitVec 5) :
    After (.shi e (shiftImm kind n) a d) s t (t.setS d (shifted kind (t.sreg a) n.toNat)).next := by
  obtain ⟨hcount, hkind, hzero⟩ := shiftImm_fields kind n
  refine shuan_regOnly_next h ?_
  simp only [hcount, hkind, hzero, ne_eq, not_true_eq_false, if_false]
  rfl

theorem shiftImm_left : ∀ n : BitVec 6, n.setWidth 15 = shiftImm 0 n := by decide
theorem shiftImm_right : ∀ n : BitVec 6, n.setWidth 15 ||| 64 = shiftImm 1 n := by decide
theorem shiftImm_arith : ∀ n : BitVec 6, n.setWidth 15 ||| 128 = shiftImm 2 n := by decide
theorem shiftImm_rotate : ∀ n : BitVec 6, n.setWidth 15 ||| 192 = shiftImm 3 n := by decide

/-- Settles O2: each kind by the two bits that name it. -/
theorem shiftImmediate : Obligations.ShiftImmediate := by
  intro s e t n a d h
  rw [shiftImm_right, shiftImm_arith, shiftImm_rotate, shiftImm_left]
  exact ⟨after_shi h 0 n a d, after_shi h 1 n a d, after_shi h 2 n a d, after_shi h 3 n a d⟩

end Sys2Proof.Proofs
end

section
/-! The power state and what is under way: each command keeps them in agreement, and changes the state only as R447's table has
it (R447–R449, R455, R462). -/

namespace Sys2Proof.Proofs

open Sys2Proof.Machine Sys2Proof.Claims Sys2Proof.Laws

/-! ### Power states in agreement with what is under way -/

/-- The changes of R447's table, with the two that are two of them at once (R449, R462). -/
def powerMoves : List (PState × PState) :=
  [(.off, .bringup), (.bringup, .active), (.bringup, .recovery), (.recovery, .bringup),
   (.active, .dormant), (.dormant, .active), (.active, .retention), (.dormant, .retention), (.bringup, .retention),
   (.recovery, .retention), (.retention, .bringup), (.active, .drain), (.dormant, .drain), (.bringup, .drain),
   (.recovery, .drain), (.drain, .off), (.retention, .off), (.active, .bringup), (.dormant, .bringup),
   (.drain, .bringup)]

/-- VCORE is on and the drive is not in DRAIN: the states in which entries and device resets run. -/
def CoreOn (st : PState) : Prop := st = .active ∨ st = .dormant ∨ st = .bringup ∨ st = .recovery

/-- From a state with VCORE on a device reset, a swap or a wake cause kept comes to BRING-UP. -/
theorem coreOn_to_bringup {st : PState} (h : CoreOn st) : PState.bringup = st ∨ (st, PState.bringup) ∈ powerMoves := by
  obtain rfl | rfl | rfl | rfl := h <;> decide

/-- From a state with VCORE on an entry comes to RETENTION. -/
theorem coreOn_to_retention {st : PState} (h : CoreOn st) : PState.retention = st ∨ (st, PState.retention) ∈ powerMoves := by
  obtain rfl | rfl | rfl | rfl := h <;> decide

/-- The state stays, and stays in agreement with what is under way. -/
def Steady (p q : Power) : Prop := q.st = p.st ∧ (PowerOk p → PowerOk q)

/-- The state stays or changes as the table has it, and comes to agree with what is under way. -/
def Moves (p q : Power) : Prop := PowerOk p → PowerOk q ∧ (q.st = p.st ∨ (p.st, q.st) ∈ powerMoves)

section
variable {p q : Power}

/-- With nothing under way every state agrees. -/
theorem powerOk_idle (htrans : q.trans = .none) (hreset : q.resetStep = none) : PowerOk q := by
  simp [PowerOk, htrans, hreset]

/-- With no entry under way a device reset alone asks for VCORE. -/
theorem powerOk_settled (htrans : q.trans = .none) (hreset : q.resetStep ≠ none → CoreOn q.st) : PowerOk q := by
  simpa [PowerOk, htrans, CoreOn] using hreset

/-- An entry to RETENTION runs with VCORE on and no device reset. -/
theorem powerOk_entering (h : PowerOk p) {th : Bool} (htrans : p.trans = .retention th) :
    CoreOn p.st ∧ p.resetStep = none := h.2.2.1 th htrans

theorem powerOk_resetting (h : PowerOk p) (hreset : p.resetStep ≠ none) : CoreOn p.st := h.2.2.2 hreset

/-- With VCORE off, or in DRAIN, nothing is under way. -/
theorem powerOk_at_rest (h : PowerOk p) (hst : ¬ CoreOn p.st) : p.trans = .none ∧ p.resetStep = none := by
  obtain ⟨hdormant, hwakeup, hretention, hreset⟩ := h
  refine ⟨?_, of_not_not fun hr => hst (hreset hr)⟩
  cases htrans : p.trans with
  | none => rfl
  | dormant => exact absurd (.inl (hdormant htrans)) hst
  | wakeup => exact absurd (.inr (.inl (hwakeup htrans))) hst
  | retention th => exact absurd (hretention th htrans).1 hst

/-- What the agreement speaks of is left alone. -/
theorem steady_of_kept (hst : q.st = p.st) (htrans : q.trans = p.trans) (hreset : q.resetStep = p.resetStep) : Steady p q :=
  ⟨hst, fun h => by simpa [PowerOk, hst, htrans, hreset] using h⟩

/-- An entry ends or is given up, and a device reset goes on. -/
theorem steady_of_abandoned (hst : q.st = p.st) (htrans : q.trans = .none) (hreset : q.resetStep = p.resetStep) : Steady p q :=
  ⟨hst, fun h => powerOk_settled htrans fun hr => hst ▸ powerOk_resetting h (hreset ▸ hr)⟩

theorem Steady.trans {r : Power} (h : Steady p q) (h' : Steady q r) : Steady p r :=
  ⟨h'.1.trans h.1, fun hp => h'.2 (h.2 hp)⟩

theorem Steady.moves (h : Steady p q) : Moves p q := fun hp => ⟨h.2 hp, .inl h.1⟩

theorem moves_of_kept (hst : q.st = p.st) (htrans : q.trans = p.trans) (hreset : q.resetStep = p.resetStep) : Moves p q :=
  (steady_of_kept hst htrans hreset).moves

theorem ite_steady {c : Prop} [Decidable c] {x y : Env × Dev} (hx : c → Steady p x.1.pw) (hy : ¬ c → Steady p y.1.pw) :
    Steady p (if c then x else y).1.pw := by
  split
  · next h => exact hx h
  · next h => exact hy h

theorem ite_moves {c : Prop} [Decidable c] {x y : Env × Dev} (hx : c → Moves p x.1.pw) (hy : ¬ c → Moves p y.1.pw) :
    Moves p (if c then x else y).1.pw := by
  split
  · next h => exact hx h
  · next h => exact hy h

/-- A command that leaves the power state. -/
theorem steady_rfl : Steady p p := steady_of_kept rfl rfl rfl

end

theorem coreOn_of_hostAlive {env : Env} (h : hostAlive env = true) : CoreOn env.pw.st := by
  unfold hostAlive at h
  unfold CoreOn
  split at h <;> simp_all

/-! ### What the shared operations do to the power state -/

section
variable (env : Env) (d : Dev)

/-- A wake cause of DORMANT gives up an entry or begins the exit. -/
theorem wakeDormant_steady (cause : Nat) : Steady env.pw (wakeDormant cause env d).1.pw := by
  refine ite_steady (fun _ => steady_of_abandoned rfl rfl rfl) fun _ => ite_steady (fun h => ⟨rfl, fun _ => ?_⟩) fun _ => steady_rfl
  have hdormant : env.pw.st = .dormant := by simp_all
  simp [PowerOk, hdormant]

/-- A device reset begins where VCORE is on, and ends the entry under way. -/
theorem requestDeviceReset_steady : Steady env.pw (requestDeviceReset env d).1.pw := by
  refine ite_steady (fun _ => steady_rfl) fun h => ⟨rfl, fun _ => powerOk_settled rfl fun _ => ?_⟩
  by_cases halive : hostAlive env = true
  · exact coreOn_of_hostAlive halive
  · have hbringup : env.pw.st = .bringup := by simp_all
    exact .inr (.inr (.inl hbringup))

/-- An entry to RETENTION begins where VCORE is on, and ends the device reset under way. -/
theorem startRetention_steady (thermal : Bool) (hon : CoreOn env.pw.st) :
    Steady env.pw (startRetention thermal env d).1.pw := by
  refine ⟨rfl, fun _ => ?_⟩
  simpa [PowerOk, startRetention, Env.upd, CoreOn] using hon

theorem alarm_steady (cause : Nat) : Steady env.pw (alarm cause env d).1.pw :=
  ite_steady (fun _ => requestDeviceReset_steady ..) fun _ => steady_rfl

theorem reqActive_steady : Steady env.pw (reqActive env d).1.pw :=
  ite_steady (fun _ => wakeDormant_steady ..) fun _ => steady_rfl

/-- An entry to DORMANT begins in ACTIVE, with no device reset under way. -/
theorem reqDormant_steady : Steady env.pw (reqDormant env d).1.pw := by
  refine ite_steady (fun h => ⟨rfl, fun _ => ?_⟩) fun _ => steady_rfl
  simp only [Bool.and_eq_true, beq_iff_eq, Option.isNone_iff_eq_none] at h
  obtain ⟨⟨hst, -⟩, hreset⟩ := h
  simp [PowerOk, Env.upd, hst, hreset]

theorem reqRetention_steady : Steady env.pw (reqRetention env d).1.pw := by
  refine ite_steady (fun h => startRetention_steady _ _ _ ?_) fun _ => steady_rfl
  simp only [Bool.and_eq_true, Bool.or_eq_true, beq_iff_eq] at h
  obtain ⟨⟨hactive | hdormant, -⟩, -⟩ := h
  · exact .inl hactive
  · exact .inr (.inl hdormant)

theorem ctrlWrite_steady (v : W32) : Steady env.pw (ctrlWrite v env d).1.pw :=
  ite_steady (fun _ => ite_steady (fun _ => requestDeviceReset_steady ..) fun _ =>
    ite_steady (fun _ => steady_rfl) fun _ => ite_steady (fun _ => steady_rfl) fun _ => steady_rfl) fun _ => steady_rfl

/-! ### Writes of BAR0 -/

theorem sqTail_steady (q v : Nat) : Steady env.pw (sqTail q v env d).1.pw := by
  refine ite_steady (fun _ => steady_rfl) fun _ => ?_
  split
  · exact steady_rfl
  · exact ite_steady (fun _ => steady_rfl) fun _ => ite_steady (fun _ => steady_rfl) fun _ => wakeDormant_steady ..

theorem writeDevice_steady (off : Nat) (v : W32) : Steady env.pw (writeDevice off v env d).1.pw := by
  unfold writeDevice
  split
  case h_1 => exact ctrlWrite_steady ..
  case h_9 =>
    exact ite_steady (fun _ => ite_steady (fun _ => steady_rfl) fun _ => ite_steady (fun _ => steady_rfl) fun _ => steady_rfl)
      fun _ => steady_rfl
  all_goals exact steady_rfl

theorem powerRequest_steady (req : Nat) : Steady env.pw (powerRequest req env d).1.pw := by
  unfold powerRequest
  split
  · exact reqActive_steady ..
  · exact reqDormant_steady ..
  · exact reqRetention_steady ..
  · exact steady_rfl

theorem regWrite_steady (off : Nat) (v : W32) : Steady env.pw (regWrite off v env d).1.pw := by
  unfold regWrite
  dsimp only
  split
  case h_1 | h_2 => exact writeDevice_steady ..
  case h_16 =>
    unfold writePwr
    split
    · exact powerRequest_steady ..
    · exact steady_of_kept rfl rfl rfl
    · exact steady_rfl
  all_goals exact steady_rfl

theorem barWrite_steady (off : Nat) (v : W32) : Steady env.pw (barWrite off v env d).1.pw :=
  ite_steady (fun _ => ite_steady (fun _ => sqTail_steady ..) fun _ => steady_rfl)
    fun _ => ite_steady (fun _ => steady_rfl) fun _ => regWrite_steady ..

/-! ### Frames -/

theorem deliverLocal_steady (p n : Nat) (group : Bool) (h : FrameHead) (bs : List Byte) :
    Steady env.pw (deliverLocal env p n group h bs d).1.pw := by
  refine ite_steady (fun _ => ?_) fun _ => steady_rfl
  dsimp only
  split
  · exact wakeDormant_steady ..
  · exact steady_rfl

theorem goodFrame_steady (p : Nat) (f : FrameIn) : Steady env.pw (goodFrame p f env d).1.pw := by
  unfold goodFrame
  dsimp only
  split
  case h_3 => exact ite_steady (fun _ => steady_rfl) fun _ => steady_rfl
  case h_5 | h_6 => exact ite_steady (fun _ => deliverLocal_steady ..) fun _ => steady_rfl
  all_goals exact steady_rfl

theorem frameIn_steady (p : Nat) (f : FrameIn) : Steady env.pw (frameIn p f env d).1.pw := by
  refine ite_steady (fun _ => steady_rfl) fun _ => ite_steady (fun _ => steady_rfl) fun _ => ?_
  dsimp only
  split
  · exact goodFrame_steady ..
  · exact ite_steady (fun _ => steady_rfl) fun _ => steady_rfl

/-! ### Power-on, bring-up and waking -/

theorem loseSlot33_steady (rail : Nat) : Steady env.pw (loseSlot33 rail env).pw := by
  unfold loseSlot33
  split <;> exact steady_of_kept rfl rfl rfl

theorem reportUnsafe_steady (x : Env × Dev) : Steady x.1.pw (reportUnsafe x).1.pw :=
  ite_steady (fun _ => steady_of_kept rfl rfl rfl) fun _ => steady_rfl

theorem reportRestart_steady (x : Env × Dev) : Steady x.1.pw (reportRestart x).1.pw :=
  ite_steady (fun _ => steady_of_kept rfl rfl rfl) fun _ => steady_rfl

theorem checkLoop_steady : Steady env.pw (checkLoop env d).1.pw :=
  ite_steady (fun _ => steady_rfl) fun _ =>
    ite_steady (fun _ => alarm_steady (env.upd fun p => { p with loopActed := true }) ..) fun _ =>
      ite_steady (fun _ => alarm_steady ..) fun _ => steady_of_kept rfl rfl rfl

/-- A power-on comes to BRING-UP, whatever was before. -/
theorem powerOn_bringup : (powerOn env d).1.pw.st = .bringup ∧ PowerOk (powerOn env d).1.pw := by
  have told (x : Env × Dev) (hst : x.1.pw.st = .bringup) (hok : PowerOk x.1.pw) :
      let y := reportUnsafe (reportRestart x)
      (checkLoop y.1 y.2).1.pw.st = .bringup ∧ PowerOk (checkLoop y.1 y.2).1.pw := by
    obtain ⟨hkept, hkeeps⟩ := ((reportRestart_steady x).trans (reportUnsafe_steady _)).trans (checkLoop_steady _ _)
    exact ⟨hkept.trans hst, hkeeps hok⟩
  exact told _ rfl (powerOk_idle rfl rfl)

/-- A step of bring-up comes at most to ACTIVE or RECOVERY. -/
theorem bringup_moves (b : BringFacts) (hst : env.pw.st = .bringup) (htrans : env.pw.trans = .none)
    (hreset : env.pw.resetStep = none) : Moves env.pw (bringup b env d).1.pw := by
  have leaves (st : PState) (hmove : (PState.bringup, st) ∈ powerMoves) {q : Power} (hq : q.st = st)
      (hqt : q.trans = env.pw.trans) (hqr : q.resetStep = env.pw.resetStep) : Moves env.pw q :=
    fun _ => ⟨powerOk_idle (hqt.trans htrans) (hqr.trans hreset), .inr (by rw [hst, hq]; exact hmove)⟩
  unfold bringup
  dsimp only
  split
  case h_2 =>
    refine ite_moves (fun _ => steady_rfl.moves) fun _ => ?_
    dsimp only
    split <;> exact moves_of_kept rfl rfl rfl
  case h_3 => exact ite_moves (fun _ => leaves .recovery (by decide) rfl rfl rfl) fun _ => moves_of_kept rfl rfl rfl
  case h_5 | h_6 => exact ite_moves (fun _ => moves_of_kept rfl rfl rfl) fun _ => steady_rfl.moves
  case h_7 => exact leaves .active (by decide) rfl rfl rfl
  all_goals exact moves_of_kept rfl rfl rfl

/-- Waking from RETENTION starts bring-up over. -/
theorem wakeRetention_env (cause : Nat) : (wakeRetention cause env d).1 =
    { env with pw := { restartBringup 2 { env.pw with wakeCause := cause, selfRefresh := true } with st := .bringup } } := by
  unfold wakeRetention
  dsimp only
  split <;> rfl

/-- A wake cause of RETENTION is kept, ignored, or starts bring-up from RETENTION. -/
theorem retentionCause_waits_or_wakes (cause : Nat) :
    Steady env.pw (retentionCause cause env d).1.pw ∨
    env.pw.st = .retention ∧ (retentionCause cause env d).1.pw.st = .bringup ∧ PowerOk (retentionCause cause env d).1.pw := by
  by_cases hentering : enteringRetention env.pw = true
  · rw [retentionCause, if_pos hentering]
    exact .inl (steady_of_kept rfl rfl rfl)
  · rw [retentionCause, if_neg hentering]
    refine iteInduction (motive := fun x : Env × Dev =>
        Steady env.pw x.1.pw ∨ env.pw.st = .retention ∧ x.1.pw.st = .bringup ∧ PowerOk x.1.pw)
      (fun h => ?_) fun _ => .inl steady_rfl
    simp only [Bool.and_eq_true, beq_iff_eq] at h
    rw [wakeRetention_env]
    exact .inr ⟨h.1.1, rfl, powerOk_idle rfl rfl⟩

theorem retentionCause_moves (cause : Nat) : Moves env.pw (retentionCause cause env d).1.pw := by
  obtain hkept | ⟨hst, hup, hok⟩ := retentionCause_waits_or_wakes env d cause
  · exact hkept.moves
  · exact fun _ => ⟨hok, .inr (by rw [hst, hup]; decide)⟩

theorem perstRise_moves : Moves env.pw (perstRise env d).1.pw := retentionCause_moves _ _ 6

/-- A device reset goes on, or ends in bring-up. -/
theorem resetAdvance_moves {n t : Nat} (h : env.pw.resetStep = some (n, t)) : Moves env.pw (resetAdvance n t env d).1.pw := by
  have hsome : env.pw.resetStep ≠ none := by simp [h]
  have goes (k : Nat) : Moves env.pw { env.pw with resetStep := some (k, t) } := by
    refine fun hp => ⟨⟨hp.1, hp.2.1, fun th htrans => ?_, fun _ => ?_⟩, .inl rfl⟩
    · exact absurd (powerOk_entering hp htrans).2 hsome
    · exact powerOk_resetting (p := env.pw) hp hsome
  have ends : Moves env.pw (resetAdvance 5 t env d).1.pw := fun hp =>
    ⟨powerOk_idle rfl rfl, coreOn_to_bringup (powerOk_resetting hp hsome)⟩
  exact ite_moves (fun _ => ite_moves (fun _ => goes 2) fun _ => ite_moves (fun _ => goes 2) fun _ => steady_rfl.moves) fun _ =>
    ite_moves (fun _ => ite_moves (fun _ => goes 3) fun _ => ite_moves (fun _ => goes 3) fun _ => steady_rfl.moves) fun _ =>
    ite_moves (fun _ => goes 4) fun _ =>
    ite_moves (fun _ => ite_moves (fun _ => steady_rfl.moves) fun _ => goes 5) fun _ => ends

/-- A swap of firmware changes the state only where the drive boots behind it. -/
theorem swapIn_moves (who : Option TaskRef) (slot secs : Nat) (h : swapState env = true) :
    Moves env.pw (swapIn env who slot secs d).1.pw := by
  refine ite_moves (fun _ _ => ⟨powerOk_idle rfl rfl, coreOn_to_bringup ?_⟩) fun _ => steady_rfl.moves
  simp only [swapState, Bool.and_eq_true, Bool.or_eq_true, beq_iff_eq] at h
  obtain ⟨-, (hst | hst) | hst⟩ := h <;> simp [CoreOn, hst]

end

/-! ### Commands -/

/-- The outcome is a next state whose power state has come about as `Moves` has it. -/
def PowerMoved (s : State) (o : Host.Outcome State Fault Refusal) : Prop :=
  ∃ t, o = .next t ∧ Moves s.env.pw t.env.pw

section
variable {s : State}

/-- A command that changes the drive alone. -/
theorem moved_of_dev {o : Host.Outcome State Fault Refusal} {d : Dev} (h : o = .next { s with dev := d }) : PowerMoved s o :=
  ⟨_, h, steady_rfl.moves⟩

theorem moved_onEnv {f : Env → Dev → Env × Dev} (h : Moves s.env.pw (f s.env s.dev).1.pw) : PowerMoved s (onEnv s f) :=
  ⟨_, rfl, h⟩

theorem steady_onEnv {f : Env → Dev → Env × Dev} (h : Steady s.env.pw (f s.env s.dev).1.pw) : PowerMoved s (onEnv s f) :=
  moved_onEnv h.moves

theorem moved_transact {port : Nat} {pec : Bool} {f : Env → Dev → Env × Dev} (h : Moves s.env.pw (f s.env s.dev).1.pw) :
    PowerMoved s (transact port pec f s) :=
  moved_onEnv (ite_moves (fun _ => steady_rfl.moves) fun _ => ite_moves (fun _ => steady_rfl.moves) fun _ => h)

theorem moved_registerWrite (off : Nat) (eight : Bool) (v : Word) : PowerMoved s (execRegisterWrite off eight v s) :=
  steady_onEnv (ite_steady (fun _ => steady_rfl) fun _ => ite_steady (fun _ => steady_rfl) fun _ =>
    ite_steady (fun _ => barWrite_steady ..) fun _ => ite_steady (fun _ => steady_rfl) fun _ =>
      (barWrite_steady ..).trans (barWrite_steady ..))

theorem moved_activationSwap (slotOk : Bool) : PowerMoved s (execActivationSwap slotOk s) := by
  refine moved_onEnv ?_
  dsimp only
  split
  · exact steady_rfl.moves
  · refine ite_moves (fun _ => steady_rfl.moves) fun hready => ite_moves (fun _ => steady_rfl.moves) fun _ => ?_
    split
    · exact steady_rfl.moves
    · exact ite_moves (fun _ => swapIn_moves _ _ _ _ _ (by simp_all)) fun _ => steady_rfl.moves

theorem moved_mainPowerGood : PowerMoved s (execMainPowerGood s) := by
  refine moved_onEnv (ite_moves (fun _ => steady_rfl.moves) fun _ => ?_)
  split
  · next hst =>
    obtain ⟨hup, hok⟩ := powerOn_bringup s.env s.dev
    exact fun _ => ⟨hok, .inr (by rw [hst, hup]; decide)⟩
  · exact moves_of_kept rfl rfl rfl
  · exact moves_of_kept rfl rfl rfl
  · exact steady_rfl.moves

theorem moved_bringupStep (b : BringFacts) : PowerMoved s (execBringupStep b s) := by
  refine moved_onEnv (ite_moves (fun h => ?_) fun _ => ite_moves (fun _ => moves_of_kept rfl rfl rfl) fun _ => steady_rfl.moves)
  simp only [Bool.and_eq_true, beq_iff_eq, Option.isNone_iff_eq_none] at h
  obtain ⟨⟨hst, hreset⟩, htrans⟩ := h
  exact bringup_moves _ _ _ hst htrans hreset

/-- A loss of main power comes to DRAIN where VCORE is on, and from RETENTION without VAUX to OFF. -/
theorem moved_mainPowerLost (rail : Nat) : PowerMoved s (execMainPowerLost rail s) := by
  obtain ⟨hst, hok⟩ := loseSlot33_steady s.env rail
  have kept {q : Power} (h : Moves (loseSlot33 rail s.env).pw q) : Moves s.env.pw q := fun hp => hst ▸ h (hok hp)
  refine moved_onEnv (kept ?_)
  generalize loseSlot33 rail s.env = env
  refine ite_moves (fun _ => moves_of_kept rfl rfl rfl) fun hdrain => ite_moves (fun _ => steady_rfl.moves) fun _ => ?_
  split
  · next hret =>
    refine ite_moves (fun _ => moves_of_kept rfl rfl rfl) fun _ hp => ?_
    obtain ⟨htrans, hreset⟩ := powerOk_at_rest hp (by simp [CoreOn, hret])
    exact ⟨powerOk_idle htrans hreset, .inr (by rw [hret]; exact (by decide : (PState.retention, PState.off) ∈ powerMoves))⟩
  · exact moves_of_kept rfl rfl rfl
  · next hret hoff =>
    refine fun _ => ⟨powerOk_idle rfl rfl, .inr ?_⟩
    change (env.pw.st, PState.drain) ∈ powerMoves
    generalize env.pw.st = st at hdrain hret hoff
    cases st <;> simp_all [powerMoves]

/-- A drain ends in OFF, or with main power back in BRING-UP. -/
theorem moved_drainDone (ms mj : Nat) (complete : Bool) : PowerMoved s (execDrainDone ms mj complete s) := by
  refine moved_onEnv (ite_moves (fun _ => steady_rfl.moves) fun h => ?_)
  have hst : s.env.pw.st = .drain := by simp_all
  refine ite_moves (fun _ _ => ?back) fun _ hp => ?off
  case back =>
    obtain ⟨hup, hok⟩ := powerOn_bringup _ _
    exact ⟨hok, .inr (by rw [hst, hup]; decide)⟩
  case off =>
    obtain ⟨htrans, hreset⟩ := powerOk_at_rest hp (by simp [CoreOn, hst])
    exact ⟨powerOk_idle htrans hreset, .inr (by rw [hst]; exact (by decide : (PState.drain, PState.off) ∈ powerMoves))⟩

theorem moved_dormantEntered : PowerMoved s (execDormantEntered s) := by
  refine moved_onEnv (ite_moves (fun h hp => ⟨?_, .inr ?_⟩) fun _ => steady_rfl.moves)
  · exact powerOk_settled rfl fun _ => .inr (.inl rfl)
  · have hst : s.env.pw.st = .active := hp.1 (by simp_all)
    rw [hst]
    exact (by decide : (PState.active, PState.dormant) ∈ powerMoves)

theorem moved_dormantExit : PowerMoved s (execDormantExit s) := by
  refine moved_onEnv (ite_moves (fun h _ => ⟨?_, .inr ?_⟩) fun _ => steady_rfl.moves)
  · exact powerOk_settled rfl fun _ => .inl rfl
  · have hst : s.env.pw.st = .dormant := by simp_all
    rw [hst]
    exact (by decide : (PState.dormant, PState.active) ∈ powerMoves)

/-- An entry to RETENTION ends there, or with a wake cause kept in BRING-UP. -/
theorem moved_retentionEntered : PowerMoved s (execRetentionEntered s) := by
  refine moved_onEnv ?_
  dsimp only
  split
  · next th htrans =>
    refine ite_moves (fun _ => steady_rfl.moves) fun _ => ite_moves (fun _ => steady_rfl.moves) fun _ =>
      ite_moves (fun _ => steady_rfl.moves) fun _ hp => ?_
    obtain ⟨hon, hreset⟩ := powerOk_entering hp htrans
    have rests {q : Power} (hst : q.st = .retention) (hok : PowerOk q) :
        PowerOk q ∧ (q.st = s.env.pw.st ∨ (s.env.pw.st, q.st) ∈ powerMoves) := ⟨hok, hst ▸ coreOn_to_retention hon⟩
    split
    · next c _ =>
      refine iteInduction (motive := fun x : Env × Dev =>
        PowerOk x.1.pw ∧ (x.1.pw.st = s.env.pw.st ∨ (s.env.pw.st, x.1.pw.st) ∈ powerMoves))
        (fun _ => rests rfl (powerOk_idle rfl hreset)) fun _ => ?_
      obtain ⟨hst, hok⟩ | ⟨-, hst, hok⟩ := retentionCause_waits_or_wakes _ _ c
      · exact rests (hst.trans rfl) (hok (powerOk_idle rfl hreset))
      · exact ⟨hok, hst ▸ coreOn_to_bringup hon⟩
    · exact rests rfl (powerOk_idle rfl hreset)
  · exact steady_rfl.moves

theorem moved_vauxLoss : PowerMoved s (execVauxLoss s) := by
  refine moved_onEnv (ite_moves (fun h hp => ?_) fun _ => moves_of_kept rfl rfl rfl)
  have hst : s.env.pw.st = .retention := by simp_all
  obtain ⟨htrans, hreset⟩ := powerOk_at_rest hp (by simp [CoreOn, hst])
  exact ⟨powerOk_idle htrans hreset, .inr (by rw [hst]; exact (by decide : (PState.retention, PState.off) ∈ powerMoves))⟩

theorem moved_thermalCritical (n : Nat) (temp : Int) : PowerMoved s (execThermalCritical n temp s) := by
  refine steady_onEnv (ite_steady (fun _ => steady_rfl) fun hgov => ite_steady (fun _ => steady_rfl) fun hdrain =>
    startRetention_steady _ _ _ ?_)
  have hgoverns : governs s.env = true := by simp_all
  have hnot : s.env.pw.st ≠ .drain := by simp_all
  unfold governs at hgoverns
  cases hst : s.env.pw.st <;> simp_all [CoreOn]

end

/-- What each command makes of the power state. -/
theorem exec_powerMoved (c : Instr) (s : State) : PowerMoved s (exec c s) := by
  unfold exec
  cases c with
  | sqTailDoorbell q v => exact steady_onEnv (sqTail_steady ..)
  | enable v | controllerReset v | shutdown v | devrst v =>
    exact steady_onEnv (ite_steady (fun _ => ctrlWrite_steady ..) fun _ => steady_rfl)
  | deviceResetStep =>
    refine moved_onEnv ?_
    split
    · next h => exact resetAdvance_moves _ _ h
    · exact steady_rfl.moves
  | perst asserted =>
    exact moved_onEnv (ite_moves (fun _ => steady_rfl.moves) fun _ =>
      ite_moves (fun _ => perstRise_moves _ _) fun _ => steady_rfl.moves)
  | registerWrite off eight v => exact moved_registerWrite ..
  | activationSwap slotOk => exact moved_activationSwap ..
  | recoveryDone r => exact steady_onEnv (ite_steady (fun _ => steady_of_kept rfl rfl rfl) fun _ => steady_rfl)
  | frameReceive port f => exact steady_onEnv (frameIn_steady ..)
  | aux12vLoss => exact steady_onEnv (ite_steady (fun _ => steady_rfl) fun _ => steady_of_kept rfl rfl rfl)
  | aux12vPresent => exact steady_onEnv (steady_of_kept rfl rfl rfl)
  | senseChange sense0 sense1 => exact steady_onEnv (steady_of_kept rfl rfl rfl)
  | thermalCritical n temp => exact moved_thermalCritical ..
  | mainPowerGood => exact moved_mainPowerGood
  | bringupStep b => exact moved_bringupStep b
  | mainPowerLost rail => exact moved_mainPowerLost rail
  | drainDone ms mj complete => exact moved_drainDone ..
  | reqActive => exact steady_onEnv (reqActive_steady ..)
  | reqDormant => exact steady_onEnv (reqDormant_steady ..)
  | reqRetention => exact steady_onEnv (reqRetention_steady ..)
  | dormantEntered => exact moved_dormantEntered
  | dormantExit => exact moved_dormantExit
  | retentionEntered => exact moved_retentionEntered
  | wakePin =>
    exact moved_onEnv (ite_moves (fun _ => retentionCause_moves _ _ 3) fun _ => (wakeDormant_steady ..).moves)
  | perstRisingEdge => exact moved_onEnv (ite_moves (fun _ => perstRise_moves _ _) fun _ => steady_rfl.moves)
  | thermalWakeHoldEnd =>
    refine steady_onEnv ?_
    split
    · exact ite_steady (fun _ => steady_of_kept rfl rfl rfl) fun _ => steady_rfl
    · exact steady_rfl
  | vauxLoss => exact moved_vauxLoss
  | selfrefreshLost => exact steady_onEnv (ite_steady (fun _ => steady_of_kept rfl rfl rfl) fun _ => steady_rfl)
  | timebaseRestart m2 m3 aux33 auxAlt =>
    exact steady_onEnv (ite_steady (fun _ => steady_rfl) fun _ => steady_of_kept rfl rfl rfl)
  | holdupMeasureStart => exact steady_onEnv (ite_steady (fun _ => steady_of_kept rfl rfl rfl) fun _ => steady_rfl)
  | holdupMeasured v0 v1 =>
    refine steady_onEnv ?_
    dsimp only
    split
    · exact steady_rfl
    · exact ite_steady (fun _ => steady_rfl) fun _ => steady_of_kept rfl rfl rfl
  | tamperOpen =>
    exact steady_onEnv (ite_steady (fun _ => (steady_of_kept rfl rfl rfl).trans (alarm_steady ..)) fun _ =>
      steady_of_kept rfl rfl rfl)
  | glitchTrip n =>
    exact steady_onEnv (ite_steady (fun _ => steady_rfl) fun _ => ite_steady (fun _ => alarm_steady ..) fun _ => steady_rfl)
  | status port => exact moved_transact steady_rfl.moves
  | pageSet port page pec => exact moved_transact steady_rfl.moves
  | pageGet port => exact moved_transact steady_rfl.moves
  | smbusTimeout port => exact moved_transact steady_rfl.moves
  | regRead port off pec => exact moved_transact (ite_moves (fun _ => steady_rfl.moves) fun _ => steady_rfl.moves)
  | regWrite port off v pec =>
    exact moved_transact (ite_moves (fun _ => steady_rfl.moves) fun _ => ite_moves (fun _ => steady_rfl.moves) fun _ =>
      (regWrite_steady ..).moves)
  | deviceReset port v pec =>
    exact moved_transact (ite_moves (fun _ => steady_rfl.moves) fun _ => (requestDeviceReset_steady ..).moves)
  | wake port v pec =>
    exact moved_transact (ite_moves (fun _ => steady_rfl.moves) fun _ =>
      ite_moves (fun _ => retentionCause_moves _ _ 5) fun _ => (wakeDormant_steady ..).moves)
  | _ => exact moved_of_dev rfl

/-- A step's change of the power state: that of its command, or none. -/
theorem step_moves {s t : State} (h : step s = .next t) : Moves s.env.pw t.env.pw := by
  cases hq : s.pending with
  | nil =>
    rw [step_nil hq] at h
    cases h
    exact steady_rfl.moves
  | cons c rest =>
    obtain ⟨t', ht, hmoves⟩ := exec_powerMoved c { s with pending := rest }
    rw [step_cons hq, ht] at h
    cases h
    exact hmoves

/-! ### The statements -/

/-- Settles O57: at reset nothing is under way. -/
theorem powerInvariantAtReset : Obligations.PowerInvariantAtReset := powerOk_idle rfl rfl

/-- Settles O56: each command by what it makes of the power state. -/
theorem powerInvariant : Obligations.PowerInvariant := fun _ _ hok hstep => (step_moves hstep hok).1

/-- Settles O58: each command by what it makes of the power state. -/
theorem powerStateMoves : Obligations.PowerStateMoves := fun _ _ hok hstep => (step_moves hstep hok).2

end Sys2Proof.Proofs
end

section
/-! The starts of the blower drive (17, R469–R472, R474, R478). -/

namespace Sys2Proof.Proofs

open Sys2Proof.Machine Sys2Proof.Claims Sys2Proof.Laws

/-! ### What a fault report changes of the blower (R31, R370, R478) -/

/-- Scaling the funding changes the governor alone. -/
theorem scaleFunding_besideBgv (num den : Nat) (d : Dev) : { scaleFunding num den d with bgv := {} } = { d with bgv := {} } := by
  unfold scaleFunding
  split
  · rfl
  · exact foldl_keeps (fun e => { e with bgv := {} }) (fun e i => updWc (i + 2) (Wc.scale num den) e) (List.range 14)
      (fun _ _ _ => rfl) d

theorem scaleFunding_bld (num den : Nat) (d : Dev) : (scaleFunding num den d).bld = d.bld := by
  have hbeside := congrArg Dev.bld (scaleFunding_besideBgv num den d)
  exact hbeside

theorem applyBlowerBudget_bld (env : Env) (d : Dev) : (applyBlowerBudget env d).bld = d.bld := by
  simp only [applyBlowerBudget, event_bld, setCause_bld, scaleFunding_bld]
  rfl

/-- A report marks the blower faulty, from the first report since it was healthy; the budget it takes is BGV's. -/
theorem reportFaulty_bld (env : Env) (d : Dev) :
    (reportFaulty env d).bld = { d.bld with healthy := false, faultAt := some (d.bld.faultAt.getD env.tick) } := by
  rw [reportFaulty, applyBlowerBudget_bld, setCause_bld]
  rfl

/-- A mark and the state's entry lie n ticks back: the time has passed unbroken. -/
theorem lasted_of_passed {b : Bld} {mark : Option Nat} {n tick : Nat} (hsince : b.since + n ≤ tick)
    (hmark : ∀ t, mark = some t → t + n ≤ tick) : b.lasted mark n tick = true := by
  cases mark with
  | none => simpa [Bld.lasted] using hsince
  | some t =>
    have ht := hmark t rfl
    simp only [Bld.lasted, Option.getD_some, decide_eq_true_eq]
    omega

/-! ### Entering RUN (R473, R474) -/

/-- RUN is reached with the attempts at 0; a demand already below the speed may be met by coasting. -/
theorem enterRun_bld (env : Env) (rpm conf : Nat) (d : Dev) :
    (enterRun env rpm conf d).bld.attempts = 0 ∧ (enterRun env rpm conf d).bld.rpm = rpm ∧
    (enterRun env rpm conf d).bld.conf = conf ∧ (enterRun env rpm conf d).bld.ov = d.bld.ov ∧
    (rpm ≤ (enterRun env rpm conf d).bld.demand → (enterRun env rpm conf d).bld.st = .run) := by
  unfold enterRun coastDown
  dsimp only
  split
  · next h =>
    refine ⟨rfl, rfl, rfl, rfl, fun hle => ?_⟩
    simp only [Bool.and_eq_true, decide_eq_true_eq] at h
    exact absurd hle (Nat.not_le.mpr h.2)
  · exact ⟨rfl, rfl, rfl, rfl, fun _ => rfl⟩

/-! ### The chopper test (R471) -/

section
variable {s : State} {onMa offMa mv : Nat}

/-- The blower with the test's result, in SENSE, or in FAULT where the chopper is stuck on. -/
def chopperTested (env : Env) (onMa offMa mv : Nat) (d : Dev) : Dev :=
  let r := chopperResult onMa offMa mv
  updBld (fun b => { b with
    chopper := r, busMv := mv, peakMv := max b.peakMv mv, st := if r = 3 then .fault else .sense, since := env.tick,
    chopperOn := r == 1 && (decide (13000 < mv) || (b.chopperOn && decide (12800 ≤ mv))) }) d

/-- The drive with the test's result reported. -/
def chopperFound (env : Env) (onMa offMa mv : Nat) (d : Dev) : Dev :=
  bldEvent env 0x1001 4 onMa offMa (chopperResult onMa offMa mv) (bldCause env 4 (chopperTested env onMa offMa mv d))

theorem chopperTest_ok {env : Env} {d : Dev} (h : chopperResult onMa offMa mv = 1) :
    chopperTest env onMa offMa mv d = chopperTested env onMa offMa mv d := by
  simp only [chopperTest, chopperTested, h]
  rfl

theorem chopperTest_faulty {env : Env} {d : Dev} (h : chopperResult onMa offMa mv = 2) :
    chopperTest env onMa offMa mv d = chopperFound env onMa offMa mv d := by
  simp only [chopperTest, chopperFound, chopperTested, h]
  rfl

theorem chopperTest_stuck {env : Env} {d : Dev} (h : chopperResult onMa offMa mv = 3) :
    chopperTest env onMa offMa mv d = reportFaulty env (chopperFound env onMa offMa mv d) := by
  simp only [chopperTest, chopperFound, chopperTested, h]
  rfl

variable (halive : bldAlive s.env s.dev = true)
include halive

theorem blowerStart_begins (hst : s.dev.bld.st = .off) : NextDev (.blowerStart onMa offMa mv) s
    (chopperTest s.env onMa offMa mv (beginStart s.env s.dev)) := by
  change execBlowerStart onMa offMa mv s = _
  simp [execBlowerStart, onDev_next, halive, hst]

/-- A start begun before goes on. -/
theorem blowerStart_goes_on (hst : s.dev.bld.st = .test) : NextDev (.blowerStart onMa offMa mv) s
    (chopperTest s.env onMa offMa mv s.dev) := by
  change execBlowerStart onMa offMa mv s = _
  simp [execBlowerStart, onDev_next, halive, hst]

end

/-! ### The back-EMF sense (R469, R470) -/

section
variable {s : State} {rpm : Nat} {rev caught : Bool}

/-- The blower with the speed and direction the sense read. -/
def windSensed (rpm : Nat) (rev : Bool) (d : Dev) : Dev :=
  updBld (fun b => { b with rpm := rpm, reverse := rev && decide (300 ≤ rpm) }) d

/-- The drive with a windmilling rotor reported, and whether it is to be caught (1) or braked (2). -/
def windTold (env : Env) (rpm : Nat) (rev : Bool) (outcome : Nat) (d : Dev) : Dev :=
  bldEvent env 0x1002 1 rpm (if rev then 2 else 1) outcome (windSensed rpm rev d)

theorem windTold_lockEff (env : Env) (outcome : Nat) (d : Dev) : (windTold env rpm rev outcome d).bld.lockEff = d.bld.lockEff := by
  simp only [windTold, event_bld]
  rfl

theorem windmill_early (hst : s.dev.bld.st = .sense) (h : s.env.tick < s.dev.bld.since + 50 * Config.ms) :
    NextDev (.windmill rpm rev caught) s s.dev := by
  change execWindmill rpm rev caught s = _
  simp [execWindmill, onDev_next, hst, h]

variable (halive : bldAlive s.env s.dev = true) (hst : s.dev.bld.st = .sense)
  (hdue : s.dev.bld.since + 50 * Config.ms ≤ s.env.tick)
include halive hst hdue

/-- When the 50 ms have passed the first row of R470 that matches decides. -/
theorem windmill_next : NextDev (.windmill rpm rev caught) s
    (if rpm < 300 then enterBld s.env .align (windSensed rpm rev s.dev)
     else
       let catches := !rev && decide (1500 ≤ rpm)
       let told := windTold s.env rpm rev (if catches then 1 else 2) s.dev
       if catches && caught then enterRun s.env rpm told.bld.lockEff told else enterBld s.env .brake told) := by
  change execWindmill rpm rev caught s = _
  refine onDev_eq ?_
  rw [if_neg (by simp [hst, halive, Nat.not_lt.mpr hdue])]
  rfl

/-- A rotor at rest is aligned. -/
theorem windmill_aligns (h : rpm < 300) :
    NextDev (.windmill rpm rev caught) s (enterBld s.env .align (windSensed rpm rev s.dev)) :=
  nextDev_of_eq (windmill_next halive hst hdue) (if_pos h)

/-- A rotor turning forward fast enough is caught. -/
theorem windmill_catches (hrev : rev = false) (h : 1500 ≤ rpm) (hcaught : caught = true) :
    NextDev (.windmill rpm rev caught) s
      (enterRun s.env rpm s.dev.bld.lockEff (windTold s.env rpm rev 1 s.dev)) := by
  refine nextDev_of_eq (windmill_next halive hst hdue) ?_
  have hfast : ¬ rpm < 300 := by omega
  simp only [if_neg hfast, hrev, h, hcaught, windTold_lockEff, Bool.not_false, decide_true, Bool.and_self, if_true]

/-- A rotor that is to be caught and is not is braked. -/
theorem windmill_misses (hrev : rev = false) (h : 1500 ≤ rpm) (hcaught : caught = false) :
    NextDev (.windmill rpm rev caught) s (enterBld s.env .brake (windTold s.env rpm rev 1 s.dev)) := by
  refine nextDev_of_eq (windmill_next halive hst hdue) ?_
  have hfast : ¬ rpm < 300 := by omega
  simp [hfast, hrev, h, hcaught]

/-- A rotor that turns backward, or too slowly to be caught, is braked. -/
theorem windmill_brakes (hturns : 300 ≤ rpm) (h : rev = true ∨ rpm < 1500) :
    NextDev (.windmill rpm rev caught) s (enterBld s.env .brake (windTold s.env rpm rev 2 s.dev)) := by
  refine nextDev_of_eq (windmill_next halive hst hdue) ?_
  have hcatch : (!rev && decide (1500 ≤ rpm)) = false := by
    rcases h with h | h
    · simp [h]
    · simp [Nat.not_le.mpr h]
  simp [Nat.not_lt.mpr hturns, hcatch]

end

/-! ### BRAKE, ALIGN and RAMP (R469, R472) -/

/-- Steps 6 and 7 of a start take 520 ms. -/
theorem handoverEnd_eq (since : Nat) : since + rampTicks + handoverTicks = since + 520 * Config.ms := by
  rw [Nat.add_assoc]
  exact congrArg (since + ·) (Nat.add_mul 500 20 Config.ms).symm

section
variable {s : State} {rpm conf cause : Nat}

/-- The blower with a speed read. -/
abbrev atSpeed (rpm : Nat) (d : Dev) : Dev := updBld (fun b => { b with rpm := rpm }) d

variable (halive : bldAlive s.env s.dev = true)
include halive

theorem brakeDone_slow (hst : s.dev.bld.st = .brake) (h : rpm < 500) : NextDev (.brakeDone false rpm) s
    (if s.dev.bld.restart then beginStart s.env (atSpeed rpm s.dev) else enterBld s.env .align (atSpeed rpm s.dev)) := by
  change execBrakeDone false rpm s = _
  simp [execBrakeDone, onDev_next, hst, halive, h]

theorem brakeDone_timeout (hst : s.dev.bld.st = .brake) (hfirst : s.dev.bld.restart = false)
    (h : s.dev.bld.since + 3 * Config.second ≤ s.env.tick) :
    NextDev (.brakeDone true rpm) s (failStart s.env 3 (atSpeed rpm s.dev)) := by
  change execBrakeDone true rpm s = _
  unfold execBrakeDone
  simp only [onDev_next, hst, halive, hfirst, h, bne_self_eq_false, Bool.not_true, Bool.not_false, Bool.or_self,
    Bool.false_eq_true, if_false, Bool.true_and, decide_true, if_true]

theorem alignDone_due (hst : s.dev.bld.st = .align) (h : s.dev.bld.since + 200 * Config.ms ≤ s.env.tick) :
    NextDev .alignDone s (enterBld s.env .ramp (updBld (fun b => { b with rpm := 0, reverse := false }) s.dev)) := by
  change execAlignDone s = _
  simp [execAlignDone, onDev_next, hst, halive, h]

/-- The handover ends the start at the confidence it needs, held for the whole of step 7. -/
theorem handover_locks (hst : s.dev.bld.st = .ramp) (hconf : s.dev.bld.lockEff ≤ conf)
    (hfrom : s.dev.bld.since + 500 * Config.ms ≤ s.env.tick) (huntil : s.env.tick ≤ s.dev.bld.since + 520 * Config.ms)
    (hheld : s.dev.bld.lasted s.dev.bld.unlockAt (20 * Config.ms) s.env.tick = true) :
    NextDev (.handover rpm conf) s (enterRun s.env rpm conf s.dev) := by
  change execHandover rpm conf s = _
  have hstep7 : s.env.tick ≤ s.dev.bld.since + rampTicks + handoverTicks := by rwa [handoverEnd_eq]
  exact onDev_eq (if_pos (by simp only [hst, halive, hconf, hfrom, hstep7, hheld, decide_true, beq_self_eq_true, Bool.and_self]))

/-- What makes a start attempt fail: a locked rotor or no handover in RAMP, the brake's timeout in BRAKE. -/
theorem startFailed_next (h : s.dev.bld.st = .ramp ∧ (cause = 1 ∧ 36 ≤ crossings (s.env.tick - s.dev.bld.since) ∨
      cause = 2 ∧ s.dev.bld.since + 520 * Config.ms ≤ s.env.tick) ∨
    s.dev.bld.st = .brake ∧ cause = 3 ∧ s.dev.bld.restart = false ∧ s.dev.bld.since + 3 * Config.second ≤ s.env.tick) :
    NextDev (.startFailed cause) s (failStart s.env cause s.dev) := by
  change execStartFailed cause s = _
  refine onDev_eq (if_pos ?_)
  rw [halive, Bool.and_true]
  obtain ⟨hst, ⟨rfl, hcross⟩ | ⟨rfl, hdue⟩⟩ | ⟨hst, rfl, hfirst, hdue⟩ := h
  · simp [hst, hcross]
  · have hstep7 : s.dev.bld.since + rampTicks + handoverTicks ≤ s.env.tick := by rwa [handoverEnd_eq]
    simp [hst, hstep7]
  · simp [hst, hfirst, hdue]

theorem startRetry_due (hst : s.dev.bld.st = .wait) (h : s.dev.bld.retryAt ≤ s.env.tick) :
    NextDev .startRetry s (beginStart s.env s.dev) := by
  change execStartRetry s = _
  simp [execStartRetry, onDev_next, hst, halive, h]

/-- A blower coasting down returns to RUN at its demand. -/
theorem coastReturn_next (hst : s.dev.bld.st = .coast) (hov : s.dev.bld.ov = none) (h : rpm ≤ s.dev.bld.demand) :
    NextDev (.coastReturn rpm) s (enterRun s.env rpm s.dev.bld.conf s.dev) := by
  change execCoastReturn rpm s = _
  simp [execCoastReturn, onDev_next, hst, hov, halive, h]

/-- A speed too low at the current limit for a second is reported. -/
theorem speedDeficit_next {onMa : Nat} (hst : s.dev.bld.st = .run) (hslow : slow s.dev.bld rpm = true) (hlimit : phaseLimitMa ≤ onMa)
    (hheld : s.dev.bld.lasted s.dev.bld.fastAt Config.second s.env.tick = true) :
    NextDev (.speedDeficit rpm onMa) s (reportFaulty s.env (bldEvent s.env 0x100A 3 s.dev.bld.demand rpm onMa (bldCause s.env 0x80
      (updBld (fun b => { b with rpm := rpm, phaseMa := onMa, fastAt := some s.env.tick }) s.dev)))) := by
  change execSpeedDeficit rpm onMa s = _
  exact onDev_eq (if_pos (by simp only [hst, halive, hslow, hlimit, hheld, decide_true, beq_self_eq_true, Bool.and_self]))

end

section
variable {s : State} {rpm conf : Nat}

theorem alignDone_early (h : s.env.tick < s.dev.bld.since + 200 * Config.ms) : NextDev .alignDone s s.dev := by
  change execAlignDone s = _
  simp [execAlignDone, onDev_next, Nat.not_le.mpr h]

theorem handover_not_yet (h : conf < s.dev.bld.lockEff ∨ s.env.tick < s.dev.bld.since + 500 * Config.ms) :
    NextDev (.handover rpm conf) s s.dev := by
  change execHandover rpm conf s = _
  refine onDev_eq (if_neg ?_)
  rcases h with h | h
  · simp [Nat.not_le.mpr h]
  · simp [Nat.not_le.mpr h]

theorem startRetry_early (h : s.env.tick < s.dev.bld.retryAt) : NextDev .startRetry s s.dev := by
  change execStartRetry s = _
  simp [execStartRetry, onDev_next, Nat.not_le.mpr h]

end

/-- A failed attempt waits 1 s for the next. -/
theorem failStart_again {d : Dev} (env : Env) (cause : Nat) (h : d.bld.attempts < 2) : (failStart env cause d).bld =
    { d.bld with st := .wait, since := env.tick, startFails := sat32 (d.bld.startFails + 1), attempts := d.bld.attempts + 1,
                 retryAt := env.tick + Config.second, healthy := false, faultAt := some (d.bld.faultAt.getD env.tick) } := by
  rw [failStart, reportFaulty_bld]
  simp only [if_pos (show d.bld.attempts + 1 < 3 by omega), event_bld, setCause_bld]
  rfl

/-- The third attempt in a row that fails begins a new series after 30 s. -/
theorem failStart_blocked {d : Dev} (env : Env) (cause : Nat) (h : 2 ≤ d.bld.attempts) : (failStart env cause d).bld =
    { d.bld with st := .wait, since := env.tick, startFails := sat32 (d.bld.startFails + 1), attempts := 0,
                 series := d.bld.series + 1, retryAt := env.tick + 30 * Config.second, healthy := false,
                 faultAt := some (d.bld.faultAt.getD env.tick) } := by
  rw [failStart, reportFaulty_bld]
  simp only [if_neg (show ¬ d.bld.attempts + 1 < 3 by omega), updBld, event_bld, setCause_bld]

theorem failStart_bld (env : Env) (cause : Nat) (d : Dev) :
    (failStart env cause d).bld.st = .wait ∧ (failStart env cause d).bld.healthy = false ∧
    (d.bld.attempts < 2 → (failStart env cause d).bld.attempts = d.bld.attempts + 1 ∧
      (failStart env cause d).bld.retryAt = env.tick + Config.second) ∧
    (2 ≤ d.bld.attempts → (failStart env cause d).bld.attempts = 0 ∧ (failStart env cause d).bld.series = d.bld.series + 1 ∧
      (failStart env cause d).bld.retryAt = env.tick + 30 * Config.second) := by
  by_cases h : d.bld.attempts < 2
  · rw [failStart_again env cause h]
    exact ⟨rfl, rfl, fun _ => ⟨rfl, rfl⟩, fun h2 => absurd h (Nat.not_lt.mpr h2)⟩
  · rw [failStart_blocked env cause (Nat.not_lt.mp h)]
    exact ⟨rfl, rfl, fun h2 => absurd h2 h, fun _ => ⟨rfl, rfl, rfl⟩⟩

/-- Settles O50: each command of a start by what it does in its state. -/
theorem blowerStarts : Obligations.BlowerStarts := by
  intro s onMa offMa mv rpm conf cause rev caught halive b r tested found test sensed told slow
  have tests (d : Dev) : test d (chopperTest s.env onMa offMa mv d) := ⟨chopperTest_ok, chopperTest_faulty, chopperTest_stuck⟩
  refine ⟨fun hst => ⟨_, blowerStart_begins halive hst, tests _⟩, fun hst => ⟨_, blowerStart_goes_on halive hst, tests _⟩,
    windmill_early, fun hst hdue => ⟨windmill_aligns halive hst hdue, windmill_catches halive hst hdue,
      windmill_misses halive hst hdue, windmill_brakes halive hst hdue⟩,
    fun hst => ⟨fun h hfirst => ?aligns, fun h hagain => ?restarts, fun hfirst hdue => ⟨brakeDone_timeout halive hst hfirst hdue,
      startFailed_next halive (.inr ⟨hst, rfl, hfirst, hdue⟩)⟩⟩,
    alignDone_due halive, fun _ => alignDone_early,
    fun hst => ⟨fun hconf hfrom huntil hheld => ?handover, handover_not_yet, fun hwhy => ?fails⟩,
    fun hst => ⟨startRetry_due halive hst, startRetry_early⟩, coastReturn_next halive,
    fun hst hslow hlimit hdue hmark => speedDeficit_next halive hst (decide_eq_true hslow) hlimit (lasted_of_passed hdue hmark)⟩
  case aligns => exact nextDev_of_eq (brakeDone_slow halive hst h) (if_neg (ne_true_of_eq_false hfirst))
  case restarts => exact nextDev_of_eq (brakeDone_slow halive hst h) (if_pos hagain)
  case handover =>
    have hlasted := lasted_of_passed (b := b) (n := 20 * Config.ms) (by omega) hheld
    obtain ⟨hattempts, hrpm, hconfIs, -, hrun⟩ := enterRun_bld s.env rpm conf s.dev
    exact ⟨_, handover_locks halive hst hconf hfrom huntil hlasted, hattempts, hrpm, hconfIs, hrun⟩
  case fails =>
    have hnext := startFailed_next halive (.inl ⟨hst, hwhy⟩)
    exact ⟨hnext, _, hnext, failStart_bld ..⟩

end Sys2Proof.Proofs
end

section
/-! The rotor lost and found, overvoltage on the blower bus, and the end of a blower fault (17, R467, R475–R478). -/

namespace Sys2Proof.Proofs

open Sys2Proof.Machine Sys2Proof.Claims Sys2Proof.Laws

theorem overBus_of_lt {rpm mv : Nat} (h : mv < rpm + 500) : overBus rpm mv = true := decide_eq_true h

theorem overBus_of_le {rpm mv : Nat} (h : rpm + 500 ≤ mv) : overBus rpm mv = false := decide_eq_false (Nat.not_lt.mpr h)

/-! ### The rotor lost (R475) -/

section
variable {s : State} {rpm conf mv : Nat}

/-- The rotor declared lost, with the switches off or the windings shorted (`how`), and counted as a blower fault. -/
def rotorLost (env : Env) (rpm conf mv : Nat) (how : BldSt) (code : Nat) (d : Dev) : Dev :=
  reportFaulty env (bldEvent env 0x1005 4 rpm conf code (bldCause env 8
    (updBld (fun b =>
      { b with st := how, since := env.tick, rpm := rpm, conf := conf, busMv := mv, peakMv := max b.peakMv mv, weak := false,
               chopperOn := b.chopper == 1 && (decide (13000 < mv) || (b.chopperOn && decide (12800 ≤ mv))),
               losses := sat32 (b.losses + 1), declared := some env.tick, ovAsc := false }) d)))

/-- The blower in RUN or COAST, the states in which the rotor can be lost. -/
def Following (b : Bld) : Prop := b.st = .run ∨ b.st = .coast

section
variable (halive : bldAlive s.env s.dev = true) (hst : Following s.dev.bld)
include halive hst

/-- A reading of the confidence in RUN or COAST: held, not yet low for 2 ms, or the rotor lost. -/
theorem observerLost_next : NextDev (.observerLost rpm conf mv) s
    (if s.dev.bld.lossEff ≤ conf then updBld (fun b => { b with heldAt := some s.env.tick }) s.dev
     else if !lossDue s.env s.dev.bld then s.dev
     else if overBus rpm mv then rotorLost s.env rpm conf mv .asc 2 s.dev
     else rotorLost s.env rpm conf mv .lost 1 s.dev) := by
  change execObserverLost rpm conf mv s = _
  have hfollows : ¬ (!(s.dev.bld.st == .run || s.dev.bld.st == .coast) || !bldAlive s.env s.dev) = true := by
    rcases hst with hst | hst <;> simp [hst, halive]
  refine onDev_eq ?_
  rw [if_neg hfollows]
  cases overBus rpm mv <;> rfl

theorem observerLost_held (h : s.dev.bld.lossEff ≤ conf) : NextDev (.observerLost rpm conf mv) s
    (updBld (fun b => { b with heldAt := some s.env.tick }) s.dev) :=
  nextDev_of_eq (observerLost_next halive hst) (if_pos h)

theorem observerLost_waits (h : conf < s.dev.bld.lossEff)
    (hearly : s.env.tick < s.dev.bld.heldAt.getD s.dev.bld.since + 2 * Config.ms) :
    NextDev (.observerLost rpm conf mv) s s.dev := by
  refine nextDev_of_eq (observerLost_next halive hst) ?_
  rw [if_neg (Nat.not_le.mpr h), if_pos]
  simpa [lossDue] using hearly

/-- Two milliseconds below the threshold lose the rotor; above the bus its back-EMF is braked. -/
theorem observerLost_lost (h : conf < s.dev.bld.lossEff)
    (hdue : s.dev.bld.heldAt.getD s.dev.bld.since + 2 * Config.ms ≤ s.env.tick) : NextDev (.observerLost rpm conf mv) s
      (if overBus rpm mv then rotorLost s.env rpm conf mv .asc 2 s.dev else rotorLost s.env rpm conf mv .lost 1 s.dev) := by
  refine nextDev_of_eq (observerLost_next halive hst) ?_
  rw [if_neg (Nat.not_le.mpr h), if_neg]
  simpa [lossDue] using hdue

end

/-! ### Sought again (R476) -/

/-- The blower with speed and bus read. -/
def busSeen (rpm mv : Nat) (b : Bld) : Bld :=
  { b with busMv := mv, peakMv := max b.peakMv mv, rpm := rpm,
           chopperOn := b.chopper == 1 && (decide (13000 < mv) || (b.chopperOn && decide (12800 ≤ mv))) }

/-- The short ends when the back-EMF is no longer over the bus. -/
theorem ascRelease_next (hst : s.dev.bld.st = .asc) (hov : s.dev.bld.ovAsc = false) (h : rpm + 500 ≤ mv) :
    NextDev (.ascRelease rpm mv) s (enterBld s.env (if s.dev.bld.stopping then .off else s.dev.bld.ovBack.getD .lost)
      (updBld (fun b => { busSeen rpm mv b with ovBack := none }) s.dev)) := by
  change execAscRelease rpm mv s = _
  refine onDev_eq ?_
  rw [if_neg (by simp [hst, hov, overBus_of_le h])]
  rfl

theorem ascRelease_over (h : mv < rpm + 500) : NextDev (.ascRelease rpm mv) s s.dev := by
  change execAscRelease rpm mv s = _
  exact onDev_eq (if_pos (by simp [overBus_of_lt h]))

section
variable {t0 : Nat} (halive : bldAlive s.env s.dev = true) (hdecl : s.dev.bld.declared = some t0)
include halive hdecl

/-- Confidence held for 10 ms with the switches off, within the 300 ms: the rotor is found. -/
theorem reacquired_next (hst : s.dev.bld.st = .lost) (hconf : s.dev.bld.lockEff ≤ conf)
    (hheld : s.dev.bld.lasted s.dev.bld.unlockAt (10 * Config.ms) s.env.tick = true)
    (hin : s.env.tick ≤ t0 + 300 * Config.ms) : NextDev (.reacquired rpm conf) s
      (bldEvent s.env 0x1006 1 ((s.env.tick - t0) / Config.ms) rpm 0 (enterRun s.env rpm conf s.dev)) := by
  change execReacquired rpm conf s = _
  refine onDev_eq ?_
  simp only [hdecl, hst, halive, hconf, hheld, hin, beq_self_eq_true, decide_true, Bool.and_self, if_true]

/-- After the 300 ms the drive brakes, to start again. -/
theorem reacquireFailed_next (hst : s.dev.bld.st = .lost ∨ s.dev.bld.st = .asc ∧ s.dev.bld.ovAsc = false)
    (hover : t0 + 300 * Config.ms ≤ s.env.tick) : NextDev (.reacquireFailed rpm) s (bldEvent s.env 0x1007 3 rpm 0 0
      (updBld (fun b => { b with st := .brake, since := s.env.tick, rpm := rpm, restart := true, declared := none }) s.dev)) := by
  change execReacquireFailed rpm s = _
  have hseeks : (s.dev.bld.st == .lost || (s.dev.bld.st == .asc && !s.dev.bld.ovAsc)) = true := by
    rcases hst with hst | ⟨hst, hov⟩
    · simp [hst]
    · simp [hst, hov]
  refine onDev_eq ?_
  simp only [hdecl, hseeks, halive, hover, decide_true, Bool.and_self, if_true]

end

/-! ### Health (R370, R478) -/

/-- The blower reported healthy. -/
def bldHealthy (rpm conf : Nat) (d : Dev) : Dev :=
  updBld (fun b => { b with healthy := true, faultAt := none, rpm := rpm, conf := conf }) d

section
variable (halive : bldAlive s.env s.dev = true) (hst : s.dev.bld.st = .run) (hfast : slow s.dev.bld rpm = false)
  (hconf : s.dev.bld.lockEff ≤ conf) (hheld : s.dev.bld.lasted s.dev.bld.unfitAt Config.second s.env.tick = true)
include halive hst hfast hconf hheld

theorem blowerHealthy_no_fault (hnone : s.dev.bld.faultAt = none) :
    NextDev (.blowerHealthy rpm conf) s (bldHealthy rpm conf s.dev) := by
  change execBlowerHealthy rpm conf s = _
  refine onDev_eq ?_
  simp only [hst, halive, hfast, hconf, hheld, hnone, beq_self_eq_true, Bool.not_false, decide_true, Bool.and_self, if_true,
    bldHealthy]

/-- The end of a fault ends the blower-fault budget. -/
theorem blowerHealthy_ends_fault {t0 : Nat} (hsome : s.dev.bld.faultAt = some t0) :
    let ok := bldHealthy rpm conf s.dev
    NextDev (.blowerHealthy rpm conf) s (bldEvent s.env 0x1009 0 rpm ((s.env.tick - t0) / Config.ms) 0
      (bldCause s.env 2 { ok with bgv := { ok.bgv with blowerFault := false } })) := by
  change execBlowerHealthy rpm conf s = _
  refine onDev_eq ?_
  simp only [hst, halive, hfast, hconf, hheld, hsome, beq_self_eq_true, Bool.not_false, decide_true, Bool.and_self, if_true,
    bldHealthy]

end

/-- A short of OV2 that lasts 300 ms is reported once. -/
theorem ov2AscLimit_next (hst : s.dev.bld.st = .asc) (hov : s.dev.bld.ovAsc = true) (hfirst : s.dev.bld.ovReported = false)
    (hgoes : s.dev.bld.stopping = false) (hdue : s.dev.bld.since + 300 * Config.ms ≤ s.env.tick) :
    NextDev .ov2AscLimit s (reportFaulty s.env (updBld (fun b => { b with ovReported := true }) s.dev)) := by
  change execOv2AscLimit s = _
  exact onDev_eq (if_pos (by
    simp only [hst, hov, hfirst, hgoes, hdue, beq_self_eq_true, Bool.not_false, decide_true, Bool.and_self]))

end

/-! ### Overvoltage (R467, R477) -/

section
variable {env : Env} {d : Dev} {mv rpm : Nat}

/-- A reading of the bus and speed, which settles whether field-weakening current flows. -/
def busRead (rpm mv : Nat) (b : Bld) : Bld :=
  { busSeen rpm mv b with weak := (b.st == .run && decide (mv < rpm + 500)) || (b.st == .coast && b.weak) }

theorem busRead_eq (rpm mv : Nat) (b : Bld) : ({ b with rpm := rpm }.seeBus mv).weaken = busRead rpm mv b := by
  have hne : (BldSt.run == BldSt.coast) = false := rfl
  cases hst : b.st
  case run =>
    simp only [Bld.seeBus, Bld.weaken, busRead, busSeen, hst, hne, beq_self_eq_true, Bool.true_and, Bool.false_and, Bool.or_false]
    rfl
  all_goals simp [Bld.seeBus, Bld.weaken, busRead, busSeen, hst]

/-- The drive with a reading of the bus, in whose episode it counts; above 13.2 V one begins. -/
def busWatched (env : Env) (mv rpm : Nat) (d : Dev) : Dev :=
  let d0 := updBld (busRead rpm mv) d
  match d.bld.ov with
  | some o => updBld (fun b => { b with ov := some (o.see env.tick mv) }) d0
  | none =>
    if 13200 < mv then
      bldCause env 0x10 (updBld (fun b => { b with
        overvolts := sat32 (b.overvolts + 1), ov := some (Overvolt.see env.tick mv ⟨1, mv, 0, none⟩) }) d0)
    else d0

theorem watchBus_eq : watchBus env mv rpm d =
    match (busWatched env mv rpm d).bld.ov with
    | none => busWatched env mv rpm d
    | some o =>
      if 14000 < mv then ov2 env (busWatched env mv rpm d)
      else if 13200 < mv then ov1 env (busWatched env mv rpm d)
      else if mv < 12600 then ovRelease env o (busWatched env mv rpm d)
      else busWatched env mv rpm d := by
  simp only [watchBus, busRead_eq]
  rfl

/-- A reading with no episode, up to 13.2 V, is a reading alone. -/
theorem watchBus_calm (hov : d.bld.ov = none) (hmv : mv ≤ 13200) : watchBus env mv rpm d = updBld (busRead rpm mv) d := by
  have hwatched : busWatched env mv rpm d = updBld (busRead rpm mv) d := by
    simp only [busWatched, hov, if_neg (Nat.not_lt.mpr hmv)]
  have hnone : (updBld (busRead rpm mv) d).bld.ov = none := hov
  rw [watchBus_eq, hwatched]
  simp only [hnone]

/-- What a reading of the bus leaves of the blower beside the episode. -/
theorem busWatched_bld : ∃ o n, (busWatched env mv rpm d).bld = { busRead rpm mv d.bld with ov := o, overvolts := n } ∧
    (d.bld.ov.isSome = true ∨ 13200 < mv → o.isSome = true) := by
  unfold busWatched
  dsimp only
  split
  · exact ⟨_, _, rfl, fun _ => rfl⟩
  · next hnone =>
    split
    · rw [setCause_bld]
      exact ⟨_, _, rfl, fun _ => rfl⟩
    · next hlow =>
      refine ⟨none, d.bld.overvolts, by simp [updBld, busRead, busSeen, hnone], fun h => absurd h ?_⟩
      simp [hnone, Nat.not_lt.mp hlow]

/-- Above 14 V, OV2 acts. -/
theorem watchBus_ov2 (hmv : 14000 < mv) : watchBus env mv rpm d = ov2 env (busWatched env mv rpm d) := by
  obtain ⟨o, n, hbld, hsome⟩ := busWatched_bld (env := env) (d := d) (mv := mv) (rpm := rpm)
  obtain ⟨o', rfl⟩ := Option.isSome_iff_exists.mp (hsome (.inr (by omega)))
  rw [watchBus_eq, hbld]
  exact if_pos hmv

/-- Between 13.2 V and 14 V, OV1 acts. -/
theorem watchBus_ov1 (hlo : 13200 < mv) (hhi : mv ≤ 14000) : watchBus env mv rpm d = ov1 env (busWatched env mv rpm d) := by
  obtain ⟨o, n, hbld, hsome⟩ := busWatched_bld (env := env) (d := d) (mv := mv) (rpm := rpm)
  obtain ⟨o', rfl⟩ := Option.isSome_iff_exists.mp (hsome (.inr hlo))
  rw [watchBus_eq, hbld]
  exact (if_neg (Nat.not_lt.mpr hhi)).trans (if_pos hlo)

/-- Below 12.6 V the episode ends. -/
theorem watchBus_release (hmv : mv < 12600) (hov : d.bld.ov.isSome = true) :
    ∃ o, watchBus env mv rpm d = ovRelease env o (busWatched env mv rpm d) := by
  obtain ⟨o, n, hbld, hsome⟩ := busWatched_bld (env := env) (d := d) (mv := mv) (rpm := rpm)
  obtain ⟨o', rfl⟩ := Option.isSome_iff_exists.mp (hsome (.inl hov))
  refine ⟨o', ?_⟩
  rw [watchBus_eq, hbld]
  exact (if_neg (by omega)).trans ((if_neg (by omega)).trans (if_pos hmv))

/-- OV2 shorts the windings in every state; OFF and FAULT are remembered. -/
theorem ov2_bld : (ov2 env d).bld.ov = d.bld.ov ∧ (ov2 env d).bld.busMv = d.bld.busMv ∧ (ov2 env d).bld.st = .asc ∧
    (ov2 env d).bld.ovAsc = true ∧ (d.bld.st = .off ∨ d.bld.st = .fault → (ov2 env d).bld.ovBack = some d.bld.st) := by
  unfold ov2
  split
  · next hst => exact ⟨rfl, rfl, hst, rfl, fun h => by simp [hst] at h⟩
  · next hst =>
    refine ⟨rfl, rfl, rfl, rfl, fun h => ?_⟩
    rcases h with h | h <;> simp [updBld, Bld.weaken, h]

/-- OV1 coasts where torque is driven. -/
theorem ov1_bld : (ov1 env d).bld.ov = d.bld.ov ∧ (ov1 env d).bld.busMv = d.bld.busMv ∧
    (d.bld.st = .run ∨ d.bld.st = .align ∨ d.bld.st = .ramp → (ov1 env d).bld.st = .coast) ∧
    (d.bld.st ≠ .run → d.bld.st ≠ .align → d.bld.st ≠ .ramp → (ov1 env d).bld.st = d.bld.st) := by
  unfold ov1
  split <;> simp_all [enterBld, updBld, Bld.weaken]

/-- The short of OV2 lasts while the back-EMF is over the bus, and counts as a rotor lost. -/
theorem endOvAsc_bld (hgoes : d.bld.stopping = false) (hback : d.bld.ovBack = none) :
    (endOvAsc env d).bld.ov = d.bld.ov ∧ (endOvAsc env d).bld.declared = some (d.bld.declared.getD env.tick) ∧
    (overBus d.bld.rpm d.bld.busMv = false → (endOvAsc env d).bld.st = .lost) ∧
    (overBus d.bld.rpm d.bld.busMv = true → (endOvAsc env d).bld.st = d.bld.st ∧ (endOvAsc env d).bld.ovAsc = d.bld.ovAsc) := by
  unfold endOvAsc
  cases hover : overBus d.bld.rpm d.bld.busMv <;> simp [hgoes, hback, hover, enterBld, updBld, Bld.weaken]

theorem endOvAsc_ov : (endOvAsc env d).bld.ov = d.bld.ov := by
  unfold endOvAsc
  dsimp only
  generalize (d.bld.stopping || d.bld.ovBack.isSome) = settled
  cases settled <;> cases overBus d.bld.rpm d.bld.busMv <;> rfl

/-- The end of an episode ends it in every state. -/
theorem ovRelease_ov (o : Overvolt) : (ovRelease env o d).bld.ov = none := by
  unfold ovRelease
  dsimp only
  split
  · rw [endOvAsc_ov, event_bld]
    rfl
  · split
    · obtain ⟨-, -, -, hov, -⟩ := enterRun_bld env d.bld.rpm d.bld.conf (bldEvent env 0x1008 4 o.level o.peak (o.above / Config.ms)
        (updBld (fun b => { b with ov := none, ovAsc := false, ovReported := false }) d))
      rw [hov, event_bld]
      rfl
    · rw [event_bld]
      rfl

/-- After a short of OV2 in a state it drove the windings in, the rotor is sought, or braked while over the bus. -/
theorem ovRelease_asc (o : Overvolt) (hst : d.bld.st = .asc) (hov : d.bld.ovAsc = true) (hgoes : d.bld.stopping = false)
    (hback : d.bld.ovBack = none) :
    (ovRelease env o d).bld.declared = some (d.bld.declared.getD env.tick) ∧
    (overBus d.bld.rpm d.bld.busMv = false → (ovRelease env o d).bld.st = .lost) ∧
    (overBus d.bld.rpm d.bld.busMv = true → (ovRelease env o d).bld.st = .asc ∧ (ovRelease env o d).bld.ovAsc = false) := by
  have hrelease : ovRelease env o d = endOvAsc env (bldEvent env 0x1008 4 o.level o.peak (o.above / Config.ms)
      (updBld (fun b => { b with ov := none, ovAsc := false, ovReported := false }) d)) := if_pos (by simp [hst, hov])
  rw [hrelease]
  have hends := endOvAsc_bld (env := env) (d := bldEvent env 0x1008 4 o.level o.peak (o.above / Config.ms)
    (updBld (fun b => { b with ov := none, ovAsc := false, ovReported := false }) d))
    (by rw [event_bld]; exact hgoes) (by rw [event_bld]; exact hback)
  rw [event_bld] at hends
  obtain ⟨-, hdeclared, hseeks, hbrakes⟩ := hends
  exact ⟨hdeclared, hseeks, fun h => ⟨(hbrakes h).1.trans hst, (hbrakes h).2⟩⟩

end

section
variable {s : State} {mv rpm : Nat}

/-- With VCORE off the blower drive watches nothing (R479). -/
theorem overvoltage_unpowered (h : ¬ (s.env.pw.st ≠ .off ∧ s.env.pw.st ≠ .retention)) :
    NextDev (.overvoltage mv rpm) s s.dev := by
  change execOvervoltage mv rpm s = _
  refine onDev_eq (if_pos ?_)
  by_cases hoff : s.env.pw.st = .off
  · simp [hoff]
  · have hret : s.env.pw.st = .retention := by simpa [hoff] using h
    simp [hret]

theorem overvoltage_next (h : s.env.pw.st ≠ .off ∧ s.env.pw.st ≠ .retention) :
    NextDev (.overvoltage mv rpm) s (watchBus s.env mv rpm s.dev) := by
  change execOvervoltage mv rpm s = _
  exact onDev_eq (if_neg (by simp [h.1, h.2]))

end

/-- Settles O51: each reading of confidence or bus by the state it finds the blower in. -/
theorem rotorAndBus : Obligations.RotorAndBus := by
  intro s rpm conf mv t0 b alive lost seen weak powered unbroken ok
  refine ⟨fun halive hst hlow hdue => ⟨fun h => ?seeks, fun h => ?brakes⟩,
    fun halive hst => ⟨observerLost_held halive hst, observerLost_waits halive hst⟩,
    ascRelease_next, fun _ => ascRelease_over,
    fun halive hdecl => ⟨fun hst hconf hsince hmark => reacquired_next halive hdecl hst hconf (lasted_of_passed hsince hmark),
      reacquireFailed_next halive hdecl⟩,
    fun hpow hov hmv => nextDev_of_eq (overvoltage_next hpow) (watchBus_calm hov hmv), overvoltage_unpowered,
    fun hpow hmv => ?ov2, fun hpow hlo hhi => ?ov1, fun hpow hmv hov => ?release, ov2AscLimit_next,
    fun halive hst hspeed hconf hdue hmark => ?healthy⟩
  case seeks => exact nextDev_of_eq (observerLost_lost halive hst hlow hdue) (if_neg (by simp [overBus_of_le h]))
  case brakes => exact nextDev_of_eq (observerLost_lost halive hst hlow hdue) (if_pos (overBus_of_lt h))
  case ov2 =>
    obtain ⟨o, n, hbld, hsome⟩ := busWatched_bld (env := s.env) (d := s.dev) (mv := mv) (rpm := rpm)
    obtain ⟨hov, hbus, hst, hasc, hback⟩ := ov2_bld (env := s.env) (d := busWatched s.env mv rpm s.dev)
    rw [hbld] at hov hbus hback
    refine ⟨_, overvoltage_next hpow, ?_⟩
    rw [watchBus_ov2 hmv]
    exact ⟨hov ▸ hsome (.inr (by omega)), hbus, hst, hasc, hback⟩
  case ov1 =>
    obtain ⟨o, n, hbld, hsome⟩ := busWatched_bld (env := s.env) (d := s.dev) (mv := mv) (rpm := rpm)
    obtain ⟨hov, hbus, hcoasts, hstays⟩ := ov1_bld (env := s.env) (d := busWatched s.env mv rpm s.dev)
    rw [hbld] at hov hbus hcoasts hstays
    refine ⟨_, overvoltage_next hpow, ?_⟩
    rw [watchBus_ov1 hlo hhi]
    exact ⟨hov ▸ hsome (.inr hlo), hbus, hcoasts, hstays⟩
  case release =>
    obtain ⟨o, n, hbld, -⟩ := busWatched_bld (env := s.env) (d := s.dev) (mv := mv) (rpm := rpm)
    obtain ⟨ep, hends⟩ := watchBus_release (env := s.env) (rpm := rpm) hmv hov
    refine ⟨_, overvoltage_next hpow, ?_⟩
    rw [hends]
    refine ⟨ovRelease_ov ep, fun hst hasc hgoes hback => ?_⟩
    have hafter := ovRelease_asc (env := s.env) (d := busWatched s.env mv rpm s.dev) ep
      (by rw [hbld]; exact hst) (by rw [hbld]; exact hasc) (by rw [hbld]; exact hgoes) (by rw [hbld]; exact hback)
    rw [hbld] at hafter
    obtain ⟨hdeclared, hseeks, hbrakes⟩ := hafter
    exact ⟨hdeclared, fun h => hseeks (overBus_of_le h), fun h => hbrakes (overBus_of_lt h)⟩
  case healthy =>
    have hfast : slow b rpm = false := decide_eq_false (Nat.not_lt.mpr hspeed)
    have hheld := lasted_of_passed hdue hmark
    have hends (hsome : b.faultAt = some t0) := blowerHealthy_ends_fault halive hst hfast hconf hheld hsome
    exact ⟨blowerHealthy_no_fault halive hst hfast hconf hheld, fun hsome => ⟨hends hsome, _, hends hsome,
      by simp only [event_bgv, setCause_bgv], by simp only [event_bld, setCause_bld]; rfl⟩⟩

end Sys2Proof.Proofs
end

section
/-! The loss of main power and the drain (16, R452, R453, R460): what stops, and what a command that goes on leaves alone. -/

namespace Sys2Proof.Proofs

open Sys2Proof.Machine Sys2Proof.Claims Sys2Proof.Laws

/-! ### Links leave the couches and the bypass alone -/

/-- The bypass's state and the couches: what the links' own doings leave alone. -/
def bypassMea (d : Dev) : Nat × Mea := (d.cpt.bypass, d.mea)

@[simp] theorem event_bypassMea (env : Env) (code : BitVec 16) (sev cls src p0 p1 p2 : Nat) (d : Dev) :
    bypassMea (event env code sev cls src p0 p1 p2 d) = bypassMea d := by simp [bypassMea]

@[simp] theorem setCause_bypassMea (env : Env) (n : Nat) (bits : W32) (d : Dev) :
    bypassMea (setCause env n bits d) = bypassMea d := by simp [bypassMea]

@[simp] theorem updPort_bypassMea (p : Nat) (f : Port → Port) (d : Dev) : bypassMea (updPort p f d) = bypassMea d := rfl

@[simp] theorem pfcCheck_bypassMea (env : Env) (p n : Nat) (d : Dev) : bypassMea (pfcCheck env p n d) = bypassMea d := by
  unfold pfcCheck
  dsimp only
  split
  · split <;> rfl
  · split
    · rfl
    · split <;> rfl

@[simp] theorem clearEgress_bypassMea (env : Env) (p : Nat) (d : Dev) : bypassMea (clearEgress env p d) = bypassMea d := by
  unfold clearEgress pfcCheckAll
  rw [foldl_keeps bypassMea _ _ fun _ _ _ => pfcCheck_bypassMea ..]
  rfl

@[simp] theorem dropEgress_bypassMea (env : Env) (p : Nat) (d : Dev) : bypassMea (dropEgress env p d) = bypassMea d := by
  unfold dropEgress
  dsimp only
  split <;> simp

@[simp] theorem dropEgress_mea (env : Env) (p : Nat) (d : Dev) : (dropEgress env p d).mea = d.mea :=
  congrArg Prod.snd (dropEgress_bypassMea env p d)

@[simp] theorem startRemoval_mea (env : Env) (cause : Nat) (d : Dev) : (startRemoval env cause d).mea = d.mea := by
  unfold startRemoval
  split
  · rfl
  · split
    · simp
    · rfl

/-! ### A context freed -/

@[simp] theorem releaseAll_mea (t : Task) (d : Dev) : (releaseAll t d).mea = d.mea :=
  (foldl_keeps (·.mea) (fun d i => releaseSlots { t.owner with mem := some i } d) (List.range t.members.length)
    (fun _ _ _ => releaseSlots_mea ..) _).trans (releaseSlots_mea ..)

@[simp] theorem settleLocks_mea (d : Dev) : (settleLocks d).mea = d.mea :=
  foldl_keeps (·.mea) (fun d (x : Nat × Keyspace) => zeroKeys x.1 d) _ (fun _ _ _ => rfl) d

/-- The task is of the same context. -/
def sameCtx (t x : Task) : Bool := x.eng == t.eng && x.ctx == t.ctx

/-- Freeing a context takes its task from the tasks and leaves what waits for one. -/
theorem freeCtx_tasks (t : Task) (d : Dev) : (freeCtx t d).mea.tasks = d.mea.tasks.filter (fun x => !sameCtx t x) := by
  simp [freeCtx, freeSealed, sameCtx]

theorem freeCtx_arrivals (t : Task) (d : Dev) : (freeCtx t d).mea.arrivals = d.mea.arrivals := by
  simp [freeCtx, freeSealed]

theorem freeCtxs_tasks (l : List Task) (d : Dev) :
    (l.foldl (fun d t => freeCtx t d) d).mea.tasks = d.mea.tasks.filter (fun x => !l.any (sameCtx · x)) := by
  induction l generalizing d with
  | nil => simp
  | cons t l ih =>
    rw [List.foldl_cons, ih, freeCtx_tasks, List.filter_filter]
    refine List.filter_congr fun x _ => ?_
    simp [Bool.and_comm]

/-- Every task stops. -/
theorem stopTasks_tasks (d : Dev) : (stopTasks d).mea.tasks = [] := by
  refine (freeCtxs_tasks d.mea.tasks d).trans (List.filter_eq_nil_iff.mpr fun x hx => ?_)
  have hany : d.mea.tasks.any (sameCtx · x) = true := List.any_eq_true.mpr ⟨x, hx, by simp [sameCtx]⟩
  simp [hany]

theorem stopTasks_arrivals (d : Dev) : (stopTasks d).mea.arrivals = d.mea.arrivals :=
  foldl_keeps (·.mea.arrivals) (fun d t => freeCtx t d) d.mea.tasks (fun _ _ _ => freeCtx_arrivals ..) d

/-! ### The drain begun (R453, R460) -/

theorem stopBlower_bgv (env : Env) (d : Dev) : (stopBlower env d).bgv = d.bgv := by
  unfold stopBlower
  split <;> rfl

theorem stopBlower_mea (env : Env) (d : Dev) : (stopBlower env d).mea = d.mea := by
  unfold stopBlower
  split <;> rfl

theorem scaleFunding_setpoint (num den : Nat) (d : Dev) : (scaleFunding num den d).bgv.setpoint = d.bgv.setpoint := by
  unfold scaleFunding
  split
  · rfl
  · dsimp only
    generalize List.range 14 = classes
    exact foldl_keeps (·.bgv.setpoint) (fun d i => updWc (i + 2) (Wc.scale num den) d) classes (fun _ _ _ => rfl) d

theorem scaleFunding_hqe (num den : Nat) (d : Dev) : (scaleFunding num den d).hqe = d.hqe := by
  have hbeside := congrArg Dev.hqe (scaleFunding_besideBgv num den d)
  exact hbeside

theorem scaleFunding_mea (num den : Nat) (d : Dev) : (scaleFunding num den d).mea = d.mea := by
  have hbeside := congrArg Dev.mea (scaleFunding_besideBgv num den d)
  exact hbeside

/-- What runs and what fetches once main power is lost. -/
structure Cut (d : Dev) : Prop where
  arrivals : d.mea.arrivals = []
  tasks : d.mea.tasks = []
  link : d.hqe.linkSpeed = 0
  fetch : d.hqe.fetchStopped = true
  setpoint : d.bgv.setpoint = 50

/-- The drive with its tasks and its host link stopped. -/
def linkLost (d : Dev) : Dev :=
  let d1 := stopTasks { d with mea := { d.mea with arrivals := [], throttled := [] },
                               xpt := { d.xpt with flows := [], rx := [], freeBuf := 4096 } }
  { d1 with hqe := { d1.hqe with linkSpeed := 0, linkWidth := 0, fetchStopped := true, hostGen := d1.hqe.hostGen + 1, turn := none,
                                 heldCqes := [], heldMsi := [], bmeHold := none } }

/-- The drive with its link lost and its bypass relay falling back. -/
def relayFalls (env : Env) (d : Dev) : Dev :=
  updCpt (fun c => { c with optics := false, hold := false, cmds := [] })
    (if d.cpt.op == .selftest || d.cpt.bypass ≠ 0 then startRemoval env 4 d else d)

theorem drainStart_eq (env : Env) (d : Dev) : drainStart env d = stopBlower env (scaleFunding 0 1
    { relayFalls env (linkLost d) with bgv := { (relayFalls env (linkLost d)).bgv with setpoint := 50 } }) := rfl

theorem relayFalls_mea (env : Env) (d : Dev) : (relayFalls env d).mea = d.mea := by
  unfold relayFalls
  split <;> simp

theorem relayFalls_hqeSteady (env : Env) (d : Dev) : hqeSteady (relayFalls env d).hqe = hqeSteady d.hqe := by
  unfold relayFalls
  split <;> simp

theorem drainStart_cut (env : Env) (d : Dev) : Cut (drainStart env d) := by
  have hmea : (drainStart env d).mea = (linkLost d).mea := by
    rw [drainStart_eq, stopBlower_mea, scaleFunding_mea]
    exact relayFalls_mea ..
  have hhqe : hqeSteady (drainStart env d).hqe = hqeSteady (linkLost d).hqe := by
    rw [drainStart_eq, stopBlower_hqe, scaleFunding_hqe]
    exact relayFalls_hqeSteady ..
  exact {
    arrivals := hmea ▸ stopTasks_arrivals _
    tasks := hmea ▸ stopTasks_tasks _
    link := congrArg Hqe.linkSpeed hhqe
    fetch := congrArg Hqe.fetchStopped hhqe
    setpoint := by rw [drainStart_eq, stopBlower_bgv, scaleFunding_setpoint] }

end Sys2Proof.Proofs
end

section
/-! Main power: power-on, the steps of bring-up, the loss of main power and the drain's end (16, R447, R450–R453, R456, R460,
R462, R463). -/

namespace Sys2Proof.Proofs

open Sys2Proof.Machine Sys2Proof.Claims Sys2Proof.Laws

/-! ### Power-on (R447, R451, R452) -/

/-- The power state right after power-on: bring-up begun, the power cycle counted, its registers at their reset values. -/
def PowerUp (pcyc : Nat) (p : Power) : Prop :=
  p.st = .bringup ∧ p.bringStep = 1 ∧ p.main = true ∧ p.pcyc = pcyc ∧ p.measured = false ∧ p.limitMib = 0 ∧ p.energyMj = 0 ∧
  p.capDmf = 0 ∧ p.periodH = 0x18 ∧ p.measStart = false ∧ p.wakeCause = 0 ∧ p.resetStep = none

/-- What is found of the tamper loop. -/
def loopSeen (p : Power) : Bool × Bool := (p.loopOpen, p.loopActed)

/-- What power-on clears of the drive, with the reset it is marked with. -/
def freshDev (d : Dev) : Nat × Bool × List Task × Nat × Bool :=
  (d.lastReset, d.hqe.enable, d.mea.tasks, d.cpt.bypass, d.sec.eraseArm)

@[simp] theorem event_freshDev (env : Env) (code : BitVec 16) (sev cls src p0 p1 p2 : Nat) (d : Dev) :
    freshDev (event env code sev cls src p0 p1 p2 d) = freshDev d := by simp [freshDev]

@[simp] theorem setCause_freshDev (env : Env) (n : Nat) (bits : W32) (d : Dev) :
    freshDev (setCause env n bits d) = freshDev d := by simp [freshDev]

@[simp] theorem checkLogs_freshDev (env : Env) (d : Dev) : freshDev (checkLogs env d) = freshDev d := by
  unfold checkLogs
  dsimp only
  split
  · split
    · rfl
    · simp [freshDev]
  · split <;> simp [freshDev]

/-- The drive and its power state as power-on has reset them and bring-up begun, before the reports. -/
structure PoweredUp (p : Power) (x : Env × Dev) : Prop where
  power : PowerUp (p.pcyc + 1) x.1.pw
  loop : loopSeen x.1.pw = loopSeen p
  dev : freshDev x.2 = (1, false, [], 0, false)

section
variable {p : Power} {x : Env × Dev}

theorem reportRestart_poweredUp (h : PoweredUp p x) : PoweredUp p (reportRestart x) := by
  obtain ⟨hpower, hloop, hdev⟩ := h
  unfold reportRestart
  split
  · exact ⟨hpower, hloop, by simpa using hdev⟩
  · exact ⟨hpower, hloop, hdev⟩

theorem reportUnsafe_poweredUp (h : PoweredUp p x) : PoweredUp p (reportUnsafe x) := by
  obtain ⟨hpower, hloop, hdev⟩ := h
  unfold reportUnsafe
  split
  · exact ⟨hpower, hloop, by simpa using hdev⟩
  · exact ⟨hpower, hloop, hdev⟩

end

/-- The resets of power-on and bring-up begun. -/
def powerOnReset (env0 : Env) (d : Dev) : Env × Dev :=
  let r := if rdmOn env0 then (env0, d) else restartRdm env0.pw.m2 env0.pw.m3 false false env0 d
  let env := r.1
  let pw := resetPower (restartBringup 4 { env.pw with main := true, mainBack := false, slot33 := true, pcyc := env.pw.pcyc + 1,
                                                       onTick := env.tick, periodH := 0x18 })
  toState .bringup 4 ({ env with pw := pw }, { domainReset true false env r.2 with lastReset := 1 })

/-- The drive with its logs checked, a worn medium marked and the reset told. -/
def powerOnTold (x : Env × Dev) : Env × Dev :=
  let logs := checkLogs x.1 x.2
  (x.1, event x.1 0x0002 1 clsPower 0 1 0 0 (if logs.trl.worn then setCause x.1 12 1 logs else logs))

/-- Power-on with its reports made, before it looks at the tamper loop. -/
def powerOnReported (env : Env) (d : Dev) : Env × Dev := reportUnsafe (reportRestart (powerOnTold (powerOnReset env d)))

theorem powerOn_eq (env : Env) (d : Dev) :
    powerOn env d = checkLoop (powerOnReported env d).1 (powerOnReported env d).2 := rfl

theorem powerOnReset_poweredUp (env : Env) (d : Dev) : PoweredUp env.pw (powerOnReset env d) := by
  unfold powerOnReset
  split <;> exact {
    power := by simp [PowerUp, toState, resetPower, restartBringup, restartRdm]
    loop := rfl
    dev := by simp only [toState, event_freshDev]; rfl }

theorem powerOnTold_poweredUp {p : Power} {x : Env × Dev} (h : PoweredUp p x) : PoweredUp p (powerOnTold x) := by
  obtain ⟨hpower, hloop, hdev⟩ := h
  refine ⟨hpower, hloop, ?_⟩
  unfold powerOnTold
  dsimp only
  split <;> simpa using hdev

/-- An alarm with no erase armed is tier 2, and leaves the power state. -/
theorem tier2_lastReset (env : Env) (cause : Nat) (d : Dev) : (tier2 env cause d).lastReset = d.lastReset := by
  simp only [tier2, event_lastReset, setCause_lastReset]
  rfl

/-- With the loop closed the drive is as its reset left it; the loop found open raises tier 2, as no erase is armed. -/
theorem checkLoop_poweredUp {p : Power} {env : Env} {d : Dev} (h : PoweredUp p (env, d)) :
    PowerUp (p.pcyc + 1) (checkLoop env d).1.pw ∧ (checkLoop env d).2.lastReset = 1 ∧
    (p.loopOpen = false → checkLoop env d = (env, d)) ∧
    (p.loopOpen = true → p.loopActed = false →
      (checkLoop env d).2.sec.tamperSeen = true ∧ (checkLoop env d).2.ccl.keys = []) := by
  obtain ⟨hpower, hloop, hdev⟩ := h
  simp only [loopSeen, Prod.mk.injEq] at hloop
  obtain ⟨hopen, hacted⟩ := hloop
  simp only [freshDev, Prod.mk.injEq] at hdev
  obtain ⟨hlast, -, -, -, harm⟩ := hdev
  cases hseen : p.loopOpen with
  | false =>
    have hcheck : checkLoop env d = (env, d) := if_pos (by simp [hopen, hseen])
    exact ⟨hcheck ▸ hpower, hcheck ▸ hlast, fun _ => hcheck, nofun⟩
  | true =>
    have hnot : ¬ (!env.pw.loopOpen) = true := by simp [hopen, hseen]
    unfold checkLoop
    rw [if_neg hnot]
    split
    · rw [alarm_unarmed harm]
      obtain ⟨hkeys, -, htamper, -⟩ := tier2_zeroes (env.upd fun p => { p with loopActed := true }) 3 d
      exact ⟨hpower, (tier2_lastReset ..).trans hlast, nofun, fun _ _ => ⟨htamper, hkeys⟩⟩
    · next hnew =>
      have hstale : p.loopActed = true := by simpa [hacted] using hnew
      dsimp only
      split
      · rw [alarm_unarmed (d := (takeFree d).2) harm]
        exact ⟨hpower, (tier2_lastReset ..).trans hlast, nofun, by simp [hstale]⟩
      · exact ⟨hpower, hlast, nofun, by simp [hstale]⟩

/-- Power-on as a whole: the loop closed leaves nothing running; the loop found open zeroes the keys. -/
theorem powerOn_poweredUp (env : Env) (d : Dev) :
    PowerUp (env.pw.pcyc + 1) (powerOn env d).1.pw ∧ (powerOn env d).2.lastReset = 1 ∧
    (env.pw.loopOpen = false → freshDev (powerOn env d).2 = (1, false, [], 0, false)) ∧
    (env.pw.loopOpen = true → env.pw.loopActed = false →
      (powerOn env d).2.sec.tamperSeen = true ∧ (powerOn env d).2.ccl.keys = []) := by
  have htold : PoweredUp env.pw (powerOnReported env d) :=
    reportUnsafe_poweredUp (reportRestart_poweredUp (powerOnTold_poweredUp (powerOnReset_poweredUp env d)))
  rw [powerOn_eq]
  obtain ⟨hpower, hlast, hclosed, hopened⟩ := checkLoop_poweredUp htold
  exact ⟨hpower, hlast, fun h => (congrArg (fun y => freshDev y.2) (hclosed h)).trans htold.dev, hopened⟩

/-! ### The steps of bring-up (R450) -/

section
variable {s : State} {b : BringFacts}

/-- Bring-up at step `n`, with neither an entry nor a device reset under way. -/
def Stepping (n : Nat) (p : Power) : Prop := p.st = .bringup ∧ p.resetStep = none ∧ p.trans = .none ∧ p.bringStep = n

/-- The state after a step of bring-up that comes to step `n` with the drive `d`. -/
def steppedTo (s : State) (n : Nat) (d : Dev) : State :=
  { s with env := { s.env with pw := { s.env.pw with bringStep := n } }, dev := d }

/-- A step of bring-up is what the model's table does. -/
theorem bringupStep_next {n : Nat} (h : Stepping n s.env.pw) : exec (.bringupStep b) s =
    .next { s with env := (bringup b s.env s.dev).1, dev := (bringup b s.env s.dev).2 } := by
  obtain ⟨hst, hreset, htrans, -⟩ := h
  change execBringupStep b s = _
  simp [execBringupStep, onEnv_next, hst, hreset, htrans]

theorem bringupStep_to {n m : Nat} {d : Dev} (h : Stepping n s.env.pw)
    (heq : bringup b s.env s.dev = (s.env.upd fun p => { p with bringStep := m }, d)) :
    exec (.bringupStep b) s = .next (steppedTo s m d) := by
  rw [bringupStep_next h, heq]
  rfl

/-- A step that waits. -/
theorem bringupStep_waits {n : Nat} {d : Dev} (h : Stepping n s.env.pw) (heq : bringup b s.env s.dev = (s.env, d)) :
    exec (.bringupStep b) s = .next (steppedTo s n d) := by
  obtain ⟨-, -, -, hn⟩ := id h
  rw [bringupStep_next h, heq, ← hn]
  rfl

theorem bringupStep_supply (h : Stepping 1 s.env.pw) : exec (.bringupStep b) s =
    .next (steppedTo s 2 (takeSupply { s.env with pw := { s.env.pw with bringStep := 2 } } s.dev)) := by
  obtain ⟨-, -, -, hn⟩ := id h
  refine bringupStep_to h ?_
  simp only [bringup, hn]
  rfl

theorem verifyLoader_verified (env : Env) (a b : Bool) (d : Dev) : (verifyLoader env a b d).1 = (a || b) := by
  unfold verifyLoader
  split
  · next h => simp [h]
  · next h => split <;> simp_all

/-- The loader is verified in one of its two copies, or bring-up waits at step 2. -/
theorem bringupStep_loader (h : Stepping 2 s.env.pw) (hclear : bitOf s.dev.attn.holding 1 = false) :
    ((b.loaderA = true ∨ b.loaderB = true) →
      exec (.bringupStep b) s = .next (steppedTo s 3 (verifyLoader s.env b.loaderA b.loaderB s.dev).2)) ∧
    (b.loaderA = false → b.loaderB = false →
      exec (.bringupStep b) s = .next (steppedTo s 2 (verifyLoader s.env b.loaderA b.loaderB s.dev).2)) := by
  obtain ⟨-, -, -, hn⟩ := id h
  have hloader : bringup b s.env s.dev = (if (b.loaderA || b.loaderB) = true then s.env.upd (fun p => { p with bringStep := 3 })
      else s.env, (verifyLoader s.env b.loaderA b.loaderB s.dev).2) := by
    simp only [bringup, hn, hclear, verifyLoader_verified]
    rfl
  refine ⟨fun hgood => bringupStep_to h ?_, fun ha hb => bringupStep_waits h ?_⟩
  · rw [hloader, if_pos (by simpa using hgood)]
  · rw [hloader, if_neg (by simp [ha, hb])]

/-- The image chosen runs, or the drive is in RECOVERY. -/
theorem bringupStep_boot (h : Stepping 3 s.env.pw) :
    let chosen := bootSelect s.env (fun n => if n = 0 then b.slot0Ok else b.slot1Ok) s.dev
    (chosen.sec.recovery = false → exec (.bringupStep b) s = .next (steppedTo s 4 chosen)) ∧
    (chosen.sec.recovery = true →
      Does (.bringupStep b) s (fun q => q.env.pw.st = .recovery ∧ q.dev.sec = chosen.sec)) := by
  obtain ⟨-, -, -, hn⟩ := id h
  refine ⟨fun hrun => bringupStep_to h ?_, fun hrec => ⟨_, bringupStep_next h, ?_⟩⟩
  · simp only [bringup, hn]
    exact if_neg (by simp [hrun])
  · simp only [bringup, hn]
    rw [if_pos hrec]
    exact ⟨rfl, event_sec ..⟩

theorem bringupStep_budget (h : Stepping 4 s.env.pw) : exec (.bringupStep b) s =
    .next (steppedTo s 5 (applyBlowerBudget { s.env with pw := { s.env.pw with bringStep := 5 } } s.dev)) := by
  obtain ⟨-, -, -, hn⟩ := id h
  refine bringupStep_to h ?_
  simp only [bringup, hn]
  rfl

/-- Step 5 waits for the recovery. -/
theorem bringupStep_recovery (h : Stepping 5 s.env.pw) :
    (s.env.pw.recovered = true → exec (.bringupStep b) s = .next (steppedTo s 6 s.dev)) ∧
    (s.env.pw.recovered = false → exec (.bringupStep b) s = .next (steppedTo s 5 s.dev)) := by
  obtain ⟨-, -, -, hn⟩ := id h
  refine ⟨fun hdone => bringupStep_to h ?_, fun hnot => bringupStep_waits h ?_⟩
  · simp [bringup, hn, hdone]
  · simp [bringup, hn, hnot]

/-- Step 6 waits for the hold-up bank's measurement. -/
theorem bringupStep_measurement (h : Stepping 6 s.env.pw) :
    (s.env.pw.measured = true → exec (.bringupStep b) s = .next (steppedTo s 7 s.dev)) ∧
    (s.env.pw.measured = false → exec (.bringupStep b) s = .next (steppedTo s 6 s.dev)) := by
  obtain ⟨-, -, -, hn⟩ := id h
  refine ⟨fun hdone => bringupStep_to h ?_, fun hnot => bringupStep_waits h ?_⟩
  · simp [bringup, hn, hdone]
  · simp [bringup, hn, hnot]

/-- The candidate's confirmation changes neither the host registers that do not report nor the size of the admin queue. -/
theorem confirmStep_hqeSteady (env : Env) (d : Dev) : hqeSteady (confirmStep env d).hqe = hqeSteady d.hqe := by
  unfold confirmStep
  split
  · rfl
  · split
    · rfl
    · dsimp only
      split
      · rfl
      · split
        · unfold raiseSvn
          dsimp only
          split <;> simp
        · split
          · rfl
          · split
            · split
              · rfl
              · simp [confirmed]
            · simp [confirmed]

theorem finishConfirm_hqeSteady (env : Env) (d : Dev) : hqeSteady (finishConfirm env d).hqe = hqeSteady d.hqe := by
  unfold finishConfirm
  dsimp only
  generalize List.range 4 = rounds
  refine foldl_keeps (fun e => hqeSteady e.hqe) _ rounds (fun e _ _ => ?_) d
  exact confirmStep_hqeSteady ..

/-- An ENABLE held back takes effect, with an admin queue of a size in range. -/
theorem takeHeldEnable_enabled {d : Dev} (hheld : d.hqe.enableHeld = true) (hbusy : d.hqe.resetBusy = false)
    (hsize : fld d.hqe.admSize 0 12 ≠ 0) :
    (takeHeldEnable d).hqe.enable = true ∧ (takeHeldEnable d).hqe.ready = true := by
  unfold takeHeldEnable
  rw [if_pos (by simp [hheld, hbusy]), enableNow_in_range hsize]
  exact ⟨rfl, rfl⟩

/-- Step 7 comes to ACTIVE, and an ENABLE held back takes effect. -/
theorem bringupStep_activates (h : Stepping 7 s.env.pw) : Does (.bringupStep b) s (fun q =>
    q.env.pw.st = .active ∧ q.env.pw.bringStep = 8 ∧ q.env.tick = s.env.tick ∧
    (s.dev.hqe.enableHeld = true → s.dev.hqe.resetBusy = false → fld s.dev.hqe.admSize 0 12 ≠ 0 →
      q.dev.hqe.enable = true ∧ q.dev.hqe.ready = true)) := by
  obtain ⟨-, -, -, hn⟩ := id h
  let x := toState .active s.env.pw.bringCause (s.env.upd (fun p => { p with bringStep := 8 }), s.dev)
  have hup : bringup b s.env s.dev = (x.1, takeHeldEnable (finishConfirm x.1 x.2)) := by
    simp only [bringup, hn]
    rfl
  refine ⟨_, bringupStep_next h, by rw [hup]; rfl, by rw [hup]; rfl, by rw [hup]; rfl, fun hheld hbusy hsize => ?_⟩
  rw [hup]
  have hsteady : hqeSteady (finishConfirm x.1 x.2).hqe = hqeSteady s.dev.hqe :=
    (finishConfirm_hqeSteady ..).trans (event_hqeSteady ..)
  exact takeHeldEnable_enabled ((congrArg Hqe.enableHeld hsteady).trans hheld) ((congrArg Hqe.resetBusy hsteady).trans hbusy)
    ((congrArg (fun h : Hqe => fld h.admSize 0 12 ≠ 0) hsteady).mpr hsize)

/-- In ACTIVE the last step closes the bypass where AUTO_INSERT has it. -/
theorem bringupStep_inserts (hst : s.env.pw.st = .active) (hn : s.env.pw.bringStep = 8) : exec (.bringupStep b) s =
    .next (steppedTo s 9 (if s.dev.adm.autoInsert = 1 then autoInsert s.env s.dev else s.dev)) := by
  change execBringupStep b s = _
  simp [execBringupStep, onEnv_next, hst, hn, Env.upd, steppedTo]

end

/-! ### Main power lost (R453, R456, R460) -/

/-- The slot's 3.3 V has no part in the operating time. -/
theorem opsecNow_loseSlot33 (rail : Nat) (env : Env) : opsecNow (loseSlot33 rail env) = opsecNow env := by
  unfold loseSlot33
  split <;> rfl

/-- The power state at the start of a drain. -/
def drainEnv (safe recovering : Bool) (env : Env) : Env :=
  (stopClock env).upd fun p => { p with
    trans := .none, resetStep := none, wakeKept := none, mainBack := false, sealed := recovering && p.sealed, st := .drain,
    unsafeOff := if safe then p.unsafeOff else sat32 (p.unsafeOff + 1), unsafePending := !safe }

section
variable {s : State} {rail : Nat}

theorem loseSlot33_kept (env : Env) : (loseSlot33 rail env).pw.st = env.pw.st ∧ (loseSlot33 rail env).pw.main = env.pw.main ∧
    (loseSlot33 rail env).pw.unsafeOff = env.pw.unsafeOff ∧ (loseSlot33 rail env).pw.aux33 = env.pw.aux33 ∧
    (loseSlot33 rail env).pw.auxAlt = env.pw.auxAlt ∧ (loseSlot33 rail env).tick = env.tick := by
  unfold loseSlot33
  split <;> exact ⟨rfl, rfl, rfl, rfl, rfl, rfl⟩

/-- Main power lost with VCORE on: the drain begins. -/
theorem mainPowerLost_drains (hmain : s.env.pw.main = true) (hon : CoreOn s.env.pw.st) : ∃ d, exec (.mainPowerLost rail) s =
    let env := drainEnv s.dev.hqe.shutdownDone s.dev.trl.recovering (loseSlot33 rail s.env)
    .next { s with env := env, dev := drainStart env d } := by
  change ∃ d, execMainPowerLost rail s = _
  obtain ⟨hst, hm, -⟩ := loseSlot33_kept (rail := rail) s.env
  rw [← hst] at hon
  rw [hmain] at hm
  have hdrain : ¬ ((loseSlot33 rail s.env).pw.st == .drain) = true := by
    obtain h | h | h | h := hon <;> simp [h]
  unfold execMainPowerLost
  rw [onEnv_next]
  dsimp only
  rw [if_neg hdrain, if_neg (by simp [hm])]
  split
  · next h => simp [CoreOn, h] at hon
  · next h => simp [CoreOn, h] at hon
  · exact ⟨_, rfl⟩

theorem mainPowerLost_in_retention (hmain : s.env.pw.main = true) (hst : s.env.pw.st = .retention) :
    (s.env.pw.aux33 = true ∨ s.env.pw.auxAlt = true →
      exec (.mainPowerLost rail) s = .next { s with env := stopClock (loseSlot33 rail s.env) }) ∧
    (s.env.pw.aux33 = false → s.env.pw.auxAlt = false → Does (.mainPowerLost rail) s (fun q => q.env.pw.st = .off)) := by
  obtain ⟨hst', hm, -, haux, halt, -⟩ := loseSlot33_kept (rail := rail) s.env
  rw [hst] at hst'
  rw [hmain] at hm
  unfold Does
  change (_ → execMainPowerLost rail s = _) ∧ (_ → _ → ∃ t, execMainPowerLost rail s = .next t ∧ _)
  unfold execMainPowerLost
  rw [onEnv_next]
  dsimp only
  rw [if_neg (by simp [hst']), if_neg (by simp [hm])]
  simp only [hst']
  refine ⟨fun h => ?_, fun h3 ha => ?_⟩
  · rw [if_pos (by rcases h with h | h <;> simp [haux, halt, h])]
  · rw [if_neg (by simp [haux, halt, h3, ha])]
    exact ⟨_, rfl, rfl⟩

/-! ### The drain's end (R462) -/

/-- The drive with the hold-up image written, as far as the bank allows. -/
def drainWritten (ms mj : Nat) (complete : Bool) (env : Env) (d : Dev) : Dev :=
  if complete then
    let e := event env 0x1202 1 clsPower 0 (heldMib d) ms mj d
    drainImage env { e with evr := { e.evr with durable := e.evr.running - 1 } }
  else
    let keep (r : Rec) : Bool := r.run ≤ d.evr.durable || r.tick + 100 * Config.ms ≤ env.tick
    drainManifest env { d with evr := { d.evr with service := d.evr.service.filter keep, boot := d.evr.boot.filter keep } }

/-- The drive in OFF after a drain. -/
def offDrained (ms mj : Nat) (complete : Bool) (env : Env) (d : Dev) : Env × Dev :=
  let env1 := env.upd fun p => { p with sealed := if d.trl.recovering then p.sealed else complete, mainBack := false }
  toState .off 4 (env1, domainReset false false env1 (forceBypass env1 4 (drainWritten ms mj complete env d)))

theorem drainDone_next {ms mj : Nat} {complete : Bool} (hst : s.env.pw.st = .drain) :
    exec (.drainDone ms mj complete) s =
      let x := offDrained ms mj complete s.env s.dev
      let y := if s.env.pw.mainBack then powerOn x.1 x.2 else x
      .next { s with env := y.1, dev := y.2 } := by
  change execDrainDone ms mj complete s = _
  unfold execDrainDone
  rw [onEnv_next]
  dsimp only
  rw [if_neg (by simp [hst])]
  rfl

/-- In OFF nothing runs and no queue is left. -/
theorem offDrained_stopped (ms mj : Nat) (complete : Bool) (env : Env) (d : Dev) :
    (offDrained ms mj complete env d).2.mea.tasks = [] ∧ (offDrained ms mj complete env d).2.hqe.pairs = [] := by
  unfold offDrained toState
  simp only [event_mea, event_hqe_pairs]
  exact ⟨rfl, rfl⟩

end

/-! ### Main power and VAUX -/

section
variable {s : State}

theorem mainPowerGood_powersOn (hmain : s.env.pw.main = false) (hst : s.env.pw.st = .off) : exec .mainPowerGood s =
    .next { s with env := (powerOn s.env s.dev).1, dev := (powerOn s.env s.dev).2 } := by
  change execMainPowerGood s = _
  simp [execMainPowerGood, onEnv_next, hmain, hst]

/-- Main power back during the drain is kept for its end. -/
theorem mainPowerGood_in_drain (hmain : s.env.pw.main = false) (hst : s.env.pw.st = .drain) : exec .mainPowerGood s =
    .next { s with env := { s.env with pw := { s.env.pw with mainBack := true } } } := by
  change execMainPowerGood s = _
  simp [execMainPowerGood, onEnv_next, hmain, hst, Env.upd]

/-- The last supply lost in RETENTION loses DRAM. -/
theorem vauxLoss_in_retention (hst : s.env.pw.st = .retention) (hmain : s.env.pw.main = false) :
    Does .vauxLoss s (fun q => q.env.pw.st = .off ∧ q.dev.mea.dr = []) := by
  have hnext : exec .vauxLoss s = let x := toState .off 4 (s.env.upd (fun p => { p with aux33 := false, auxAlt := false }),
      { s.dev with mea := { s.dev.mea with dr := [] } }); .next { s with env := x.1, dev := x.2 } := by
    change execVauxLoss s = _
    simp [execVauxLoss, onEnv_next, hst, hmain]
  refine ⟨_, hnext, rfl, ?_⟩
  simp only [toState, event_mea]

theorem vauxLoss_elsewhere (h : ¬ (s.env.pw.st = .retention ∧ s.env.pw.main = false)) :
    exec .vauxLoss s = .next { s with env := { s.env with pw := { s.env.pw with aux33 := false, auxAlt := false } } } := by
  change execVauxLoss s = _
  unfold execVauxLoss
  rw [onEnv_next]
  dsimp only
  rw [if_neg (by simpa using h)]
  rfl

end

/-- Settles O46, command by command: power-on, each step of bring-up, the loss of main power by the state it strikes, the drain's
end by whether main power is back, and the two ends of VAUX. -/
theorem mainPower : Obligations.MainPower := by
  intro s rail ms mj b x y v w
  dsimp only
  refine ⟨fun hmain hst => ?powerOn, mainPowerGood_in_drain, bringupStep_supply, bringupStep_loader, bringupStep_boot,
    bringupStep_budget, bringupStep_recovery, bringupStep_measurement, bringupStep_activates, bringupStep_inserts,
    fun hmain hon => ?lost, mainPowerLost_in_retention, fun hst => ?drained, vauxLoss_in_retention, vauxLoss_elsewhere,
    fun hst h33 halt hslot => ?timebase⟩
  case powerOn =>
    obtain ⟨hpower, hlast, hclosed, hopened⟩ := powerOn_poweredUp s.env s.dev
    obtain ⟨hup, hstep, hmain', hpcyc, hmeas, hlim, hen, hcap, hper, hstart, hcause, hreset⟩ := hpower
    refine ⟨_, mainPowerGood_powersOn hmain hst, hup, hstep, hmain', hpcyc, hmeas, hlim, hen, hcap, hper, hstart, hcause, hlast,
      fun h => ?_, hopened⟩
    have hfresh := hclosed h
    simp only [freshDev, Prod.mk.injEq] at hfresh
    obtain ⟨-, henable, htasks, hbypass, -⟩ := hfresh
    exact ⟨hreset, henable, htasks, hbypass⟩
  case lost =>
    obtain ⟨d, hnext⟩ := mainPowerLost_drains (rail := rail) hmain hon
    obtain ⟨-, -, hoff, -, -, htick⟩ := loseSlot33_kept (rail := rail) s.env
    obtain ⟨harr, htasks, hlink, hfetch, hset⟩ := drainStart_cut
      (drainEnv s.dev.hqe.shutdownDone s.dev.trl.recovering (loseSlot33 rail s.env)) d
    refine ⟨_, hnext, rfl, rfl, rfl, rfl, opsecNow_loseSlot33 .., htick, rfl, ?_, harr, htasks, hlink, hfetch, hset⟩
    exact hoff ▸ rfl
  case drained =>
    refine ⟨fun hback => ⟨_, drainDone_next hst, ?_⟩, fun hback => ⟨_, drainDone_next hst, ?_⟩⟩
    · simp only [hback]
      obtain ⟨htasks, hpairs⟩ := offDrained_stopped ms mj x s.env s.dev
      exact ⟨rfl, rfl, htasks, hpairs⟩
    · simp only [hback]
      let e := offDrained ms mj x s.env s.dev
      obtain ⟨⟨hup, -, hmain, hpcyc, -⟩, -⟩ := powerOn_poweredUp e.1 e.2
      exact ⟨hup, hmain, hpcyc⟩
  case timebase =>
    change ∃ t, execTimebaseRestart x y v w s = .next t ∧ _
    simp [execTimebaseRestart, onEnv_next, hst, rdmOn, h33, halt, hslot, restartRdm]

end Sys2Proof.Proofs
end

section
/-! The checkpoint of an entry to RETENTION leaves the couches and the bypass alone, and the bypass forced at its end does not become
stuck (R233, R262, R409, R449). -/

namespace Sys2Proof.Proofs

open Sys2Proof.Machine Sys2Proof.Claims Sys2Proof.Laws

/-! ### Placing sheets (R211–R213) -/

@[simp] theorem charge_bypassMea (c units : Nat) (d : Dev) : bypassMea (charge c units d) = bypassMea d := by
  obtain ⟨b, hb⟩ := charge_changes c units d
  rw [hb]
  rfl

@[simp] theorem updReam_bypassMea (r : Nat) (f : Ream → Ream) (d : Dev) : bypassMea (updReam r f d) = bypassMea d := by
  unfold updReam
  split <;> rfl

@[simp] theorem startReam_bypassMea (env : Env) (r stream : Nat) (slc : Bool) (d : Dev) :
    bypassMea (startReam env r stream slc d) = bypassMea d := by
  simp only [startReam, noteUrgent]
  split
  · rw [event_bypassMea, setCause_bypassMea]
    rfl
  · rfl

@[simp] theorem closeReam_bypassMea (r : Nat) (d : Dev) : bypassMea (closeReam r d) = bypassMea d :=
  (updReam_bypassMea ..).trans rfl

@[simp] theorem closeQuire_bypassMea (r q : Nat) (d : Dev) : bypassMea (closeQuire r q d) = bypassMea d := by
  unfold closeQuire
  dsimp only
  split
  · split <;> simp
  · simp

@[simp] theorem pageSeq_bypassMea (p : Nat) (first : Bool) (d : Dev) : bypassMea (pageSeq p first d).2 = bypassMea d := by
  unfold pageSeq
  split <;> rfl

theorem takeReam_bypassMea {env : Env} {stream : Nat} {slc : Bool} {d : Dev} {x : Nat × Dev}
    (h : takeReam env stream slc d = some x) : bypassMea x.2 = bypassMea d := by
  unfold takeReam at h
  split at h
  · cases h; rfl
  · split at h
    · cases h
    · split at h
      · cases h
      · split at h
        · cases h
        · cases h; exact startReam_bypassMea ..

theorem placeIn_bypassMea {env : Env} {r : Nat} {sh : Sheet} {d : Dev} {x : Nat × Dev} (h : placeIn env r sh d = some x) :
    bypassMea x.2 = bypassMea d := by
  unfold placeIn at h
  split at h
  · cases h
  · next y _ =>
    cases h
    have hpage := pageSeq_bypassMea (sheetPsa d r y y.placed) (y.placed % 4 = 0) d
    dsimp only
    split
    · exact (closeQuire_bypassMea ..).trans ((updReam_bypassMea ..).trans hpage)
    · exact (updReam_bypassMea ..).trans hpage

@[simp] theorem padSheets_bypassMea (env : Env) (r n : Nat) (d : Dev) : bypassMea (padSheets env r n d) = bypassMea d := by
  induction n generalizing d with
  | zero => rfl
  | succ n ih =>
    unfold padSheets
    dsimp only
    split
    · next h => rw [ih, placeIn_bypassMea h, updReam_bypassMea]
    · rfl

@[simp] theorem padQuire_bypassMea (env : Env) (r : Nat) (d : Dev) : bypassMea (padQuire env r d) = bypassMea d := by
  unfold padQuire
  split
  · rfl
  · split <;> simp

theorem placeRow_bypassMea {env : Env} {r : Nat} {shs : List Sheet} {d : Dev} {x : List Nat × Dev}
    (h : placeRow env r shs d = some x) : bypassMea x.2 = bypassMea d := by
  induction shs generalizing d x with
  | nil => cases h; rfl
  | cons sh shs ih =>
    unfold placeRow at h
    split at h
    · cases h
    · next hin =>
      obtain ⟨y, hy, rfl⟩ := Option.map_eq_some_iff.mp h
      exact (ih hy).trans (placeIn_bypassMea hin)

theorem reamFor_bypassMea {env : Env} {stream n : Nat} {slc : Bool} {d : Dev} {x : Nat × Dev}
    (h : reamFor env stream slc n d = some x) : bypassMea x.2 = bypassMea d := by
  unfold reamFor at h
  split at h
  · split at h
    · split at h
      · cases h; rfl
      · simpa using takeReam_bypassMea h
    · cases h
  · exact takeReam_bypassMea h

theorem placeStretch_bypassMea {env : Env} {stream : Nat} {slc : Bool} {shs : List Sheet} {d : Dev} {x : List Nat × Dev}
    (h : placeStretch env stream slc shs d = some x) : bypassMea x.2 = bypassMea d := by
  unfold placeStretch at h
  split at h
  · cases h
  · next hream =>
    obtain ⟨y, hy, rfl⟩ := Option.map_eq_some_iff.mp h
    exact (placeRow_bypassMea hy).trans (reamFor_bypassMea hream)

@[simp] theorem placeJournal_bypassMea (env : Env) (force : Bool) (n : Nat) (d : Dev) :
    bypassMea (placeJournal env force n d) = bypassMea d := by
  induction n generalizing d with
  | zero => rfl
  | succ n ih =>
    unfold placeJournal
    dsimp only
    split
    · rfl
    · split
      · rfl
      · next h =>
        rw [ih, charge_bypassMea]
        exact placeStretch_bypassMea h

theorem placeBulk_bypassMea (env : Env) (stream fuel c n : Nat) (d : Dev) :
    bypassMea (placeBulk env stream fuel c n d).2 = bypassMea d := by
  induction fuel generalizing c n d with
  | zero => rfl
  | succ fuel ih =>
    unfold placeBulk
    split
    · rfl
    · split
      · rfl
      · next h =>
        have htake := takeReam_bypassMea h
        split
        · exact htake
        · dsimp only
          rw [ih]
          split
          · rw [closeReam_bypassMea, updReam_bypassMea]
            exact htake
          · rw [updReam_bypassMea]
            exact htake

/-! ### The checkpoint (R233, R449) -/

theorem writeSegments_bypassMea (env : Env) (n : Nat) (d : Dev) : bypassMea (writeSegments env n d) = bypassMea d := by
  induction n generalizing d with
  | zero => rfl
  | succ n ih =>
    unfold writeSegments
    dsimp only
    split
    · rfl
    · rw [ih, charge_bypassMea]
      exact placeBulk_bypassMea env 5 (segmentSheets + 1) d.trl.ckptSheets segmentSheets d

theorem programStream_bypassMea (env : Env) (stream : Nat) (d : Dev) : bypassMea (programStream env stream d) = bypassMea d := by
  unfold programStream
  dsimp only
  refine (foldl_keeps bypassMea _ _ (fun e x _ => ?_) _).trans
    (foldl_keeps bypassMea _ _ (fun _ _ _ => padQuire_bypassMea ..) d)
  rw [updReam_bypassMea]
  rfl

/-- A leased page is told to the host in HQE's part alone. -/
theorem writeLeased_changes (page : Nat) (d : Dev) : ∃ h, writeLeased page d = { d with hqe := h } := by
  have hslot : ∃ h, (leaseSlotOf page d).2 = { d with hqe := h } := by
    unfold leaseSlotOf
    dsimp only
    split
    · exact ⟨_, rfl⟩
    · split <;> exact ⟨_, rfl⟩
  obtain ⟨h, hh⟩ := hslot
  unfold writeLeased
  split
  · exact ⟨_, rfl⟩
  · dsimp only
    rw [hh]
    split <;> exact ⟨_, rfl⟩

theorem writeLeased_bypassMea (page : Nat) (d : Dev) : bypassMea (writeLeased page d) = bypassMea d := by
  obtain ⟨h, hh⟩ := writeLeased_changes page d
  rw [hh]
  rfl

theorem writeDirty_bypassMea (d : Dev) : bypassMea (writeDirty d) = bypassMea d := by
  unfold writeDirty
  dsimp only
  split
  · rfl
  · rw [foldl_keeps bypassMea _ _ fun e x _ => iteInduction (motive := fun y => bypassMea y = bypassMea e)
      (fun _ => writeLeased_bypassMea x.1 e) fun _ => rfl]
    rfl

theorem journalDurable_bypassMea (seq : Nat) (d : Dev) : bypassMea (journalDurable seq d) = bypassMea d := by
  unfold journalDurable
  split
  · rfl
  · change bypassMea (writeDirty _) = _
    rw [writeDirty_bypassMea]
    exact foldl_keeps bypassMea (fun d (r : JRec) => updKs r.a (fun k => { k with mark := w32 r.b }) d) _ (fun _ _ _ => rfl) _

/-- The checkpoint leaves the couches and the bypass as they are. -/
theorem checkpoint_bypassMea (env : Env) (d : Dev) : bypassMea (checkpoint env d) = bypassMea d := by
  have hsettled (e : Dev) : bypassMea (settleRuns e) = bypassMea e := rfl
  have hround (e : Dev) : bypassMea (endRound env e) = bypassMea e := rfl
  unfold checkpoint
  dsimp only
  rw [hround, programStream_bypassMea, writeSegments_bypassMea, hsettled, journalDurable_bypassMea, programStream_bypassMea,
    placeJournal_bypassMea]

/-! ### The links at the end of the bypass (R262, R409) -/

@[simp] theorem portDown_bypassMea (env : Env) (p cause : Nat) (d : Dev) : bypassMea (portDown env p cause d) = bypassMea d := by
  unfold portDown
  split
  · rfl
  · rw [reportDown, event_bypassMea, setCause_bypassMea, updPort_bypassMea, dropEgress_bypassMea]

@[simp] theorem resetPort_bypassMea (env : Env) (p : Nat) (d : Dev) : bypassMea (resetPort env p d) = bypassMea d := by
  have hdown : bypassMea (portDown env p 4 (clearEgress env p d)) = bypassMea d := by
    rw [portDown_bypassMea, clearEgress_bypassMea]
  rw [resetPort, event_bypassMea]
  exact Eq.trans rfl hdown

/-! ### The bypass without a fault -/

/-- The bypass is not stuck, and no command runs. -/
def Unfaulted (d : Dev) : Prop := d.cpt.bypass ≠ 3 ∧ d.mea.tasks.all (fun t => !cmdKind t.kind) = true

theorem unfaulted_of_bypassMea {d e : Dev} (heq : bypassMea e = bypassMea d) (h : Unfaulted d) : Unfaulted e := by
  obtain ⟨hbypass, hmea⟩ := Prod.mk.inj heq
  unfold Unfaulted at h ⊢
  rwa [hbypass, hmea]

theorem event_unfaulted {env : Env} {code : BitVec 16} {sev cls src p0 p1 p2 : Nat} {d : Dev} (h : Unfaulted d) :
    Unfaulted (event env code sev cls src p0 p1 p2 d) := unfaulted_of_bypassMea (event_bypassMea ..) h

theorem setCause_unfaulted {env : Env} {n : Nat} {bits : W32} {d : Dev} (h : Unfaulted d) :
    Unfaulted (setCause env n bits d) := unfaulted_of_bypassMea (setCause_bypassMea ..) h

theorem startRemoval_unfaulted (env : Env) (cause : Nat) {d : Dev} (h : Unfaulted d) : Unfaulted (startRemoval env cause d) := by
  refine ⟨?_, startRemoval_mea env cause d ▸ h.2⟩
  unfold startRemoval
  split
  · exact h.1
  · split
    · simp
    · exact h.1

theorem beginChain_unfaulted (env : Env) (c : ChainCmd) {d : Dev} (h : Unfaulted d) : Unfaulted (beginChain env c d).1 := by
  unfold beginChain
  split
  · split
    · exact h
    · split
      · exact h
      · split <;> exact h
  · dsimp only
    split <;> exact startRemoval_unfaulted env 2 h
  · exact unfaulted_of_bypassMea (resetPort_bypassMea ..) h

/-! ### A command of the chain told to its task -/

@[simp] theorem eraseSlots_cpt (p : Slot → Bool) (n : Nat) (d : Dev) : (eraseSlots p n d).cpt = d.cpt := by
  induction n generalizing d with
  | zero => rfl
  | succ n ih =>
    unfold eraseSlots
    split
    · rw [ih]
      rfl
    · rfl

@[simp] theorem pruneSlots_cpt (d : Dev) : (pruneSlots d).cpt = d.cpt := by simp [pruneSlots, moveSlots]

@[simp] theorem releaseSlots_cpt (o : Owner) (d : Dev) : (releaseSlots o d).cpt = d.cpt := by simp [releaseSlots]

@[simp] theorem releaseAll_cpt (t : Task) (d : Dev) : (releaseAll t d).cpt = d.cpt :=
  (foldl_keeps (·.cpt) (fun d i => releaseSlots { t.owner with mem := some i } d) (List.range t.members.length)
    (fun _ _ _ => releaseSlots_cpt ..) _).trans (releaseSlots_cpt ..)

@[simp] theorem settleLocks_cpt (d : Dev) : (settleLocks d).cpt = d.cpt :=
  foldl_keeps (·.cpt) (fun d (x : Nat × Keyspace) => zeroKeys x.1 d) _ (fun _ _ _ => rfl) d

@[simp] theorem freeCtx_cpt (t : Task) (d : Dev) : (freeCtx t d).cpt = d.cpt := by simp [freeCtx, freeSealed]

theorem freeCtx_unfaulted (t : Task) {d : Dev} (h : Unfaulted d) : Unfaulted (freeCtx t d) := by
  obtain ⟨hbypass, htasks⟩ := h
  refine ⟨freeCtx_cpt t d ▸ hbypass, ?_⟩
  rw [freeCtx_tasks, List.all_eq_true]
  exact fun x hx => List.all_eq_true.mp htasks x (List.mem_filter.mp hx).1

/-- A task changed in what it waits for and how it runs is of its kind still. -/
theorem updTask_unfaulted {f : Task → Task} (hf : ∀ t, (f t).kind = t.kind) (e c : Nat) {d : Dev} (h : Unfaulted d) :
    Unfaulted (updTask e c f d) := by
  obtain ⟨hbypass, htasks⟩ := h
  refine ⟨hbypass, ?_⟩
  unfold updTask
  rw [List.all_map]
  refine List.all_eq_true.mpr fun t ht => ?_
  have hkind : cmdKind t.kind = false := by simpa using List.all_eq_true.mp htasks t ht
  dsimp only [Function.comp]
  split <;> simp [hf, hkind]

theorem schedule_unfaulted (env : Env) (e : Nat) {d : Dev} (h : Unfaulted d) : Unfaulted (schedule env e d) := by
  unfold schedule
  split
  · exact h
  · split
    · exact h
    · refine updTask_unfaulted ?_ _ _ h
      exact fun _ => rfl

theorem chargeInstrs_unfaulted (t : Task) {d : Dev} (h : Unfaulted d) : Unfaulted (chargeInstrs t d) := by
  obtain ⟨b, gs, hb⟩ := chargeFor_changes t.wclass t.group (energyV2 d 200 t.instrs 1) d
  unfold chargeInstrs
  rw [hb]
  exact h

theorem retire_unfaulted (env : Env) (t : Task) {d : Dev} (h : Unfaulted d) : Unfaulted (retire env t d) := by
  have hpaid : Unfaulted (creditEst t.wclass t.est (if t.st == .running then chargeInstrs t d else d)) := by
    split
    · exact chargeInstrs_unfaulted t h
    · exact h
  unfold retire
  dsimp only
  split
  · exact hpaid
  · refine schedule_unfaulted env _ ?_
    split
    · exact freeCtx_unfaulted _ hpaid
    · refine updTask_unfaulted ?_ _ _ hpaid
      exact fun _ => rfl

/-- A task that runs no command is told to no one. -/
theorem finishTask_uncommanded {env : Env} {t : Task} {status : Byte} {result : Word} {more : Bool} {d : Dev}
    (h : cmdKind t.kind = false) :
    finishTask env t status result more d = ackEntries t.job.heldIds (retire env t d) := by
  unfold finishTask answer Task.who
  cases hkind : t.kind <;> simp_all [cmdKind]

theorem finishChain_unfaulted (env : Env) (c : ChainCmd) (status : Byte) {d : Dev} (h : Unfaulted d) :
    Unfaulted (finishChain env c status d) := by
  unfold finishChain
  split
  · exact h
  · split
    · next t ht =>
      have hkind : cmdKind t.kind = false := by simpa using List.all_eq_true.mp h.2 t (List.mem_of_find?_eq_some ht)
      rw [finishTask_uncommanded hkind]
      exact retire_unfaulted env t h
    · exact h

/-! ### The chain's commands and the end of the bypass -/

theorem runChain_unfaulted (env : Env) (n : Nat) {d : Dev} (h : Unfaulted d) : Unfaulted (runChain env n d) := by
  induction n generalizing d with
  | zero => exact h
  | succ n ih =>
    unfold runChain
    split
    · exact h
    · next c rest _ =>
      split
      · exact h
      · have hbegun : Unfaulted (beginChain env c (updCpt (fun x => { x with cmds := rest }) d)).1 := beginChain_unfaulted env c h
        split
        · next heq =>
          rw [heq] at hbegun
          exact ih (finishChain_unfaulted env c _ hbegun)
        · next heq =>
          rw [heq] at hbegun
          exact hbegun

theorem chainDone_unfaulted (env : Env) (action : Nat) (status : Byte) {d : Dev} (h : Unfaulted d) :
    Unfaulted (chainDone env action status d) := by
  unfold chainDone
  split
  · exact h
  · split
    · exact runChain_unfaulted env _ (finishChain_unfaulted env _ status h)
    · exact h

theorem bypassed_unfaulted (env : Env) {d : Dev} (h : Unfaulted d) : Unfaulted (bypassed env d) := by
  have hdown : Unfaulted (portDown env 0 1 (portDown env 1 1 d)) :=
    unfaulted_of_bypassMea (by rw [portDown_bypassMea, portDown_bypassMea]) h
  have hcut : Unfaulted (updCpt (fun c => { c with bypass := 0, sensed := false, op := .none, opTick := env.tick })
      (portDown env 0 1 (portDown env 1 1 d))) := ⟨by simp, hdown.2⟩
  unfold bypassed
  dsimp only
  have hnext (e : Dev) (he : Unfaulted e) : Unfaulted (chainNext env (chainDone env 1 scOk e)) :=
    runChain_unfaulted env _ (chainDone_unfaulted env 1 scOk he)
  split <;> exact hnext _ (event_unfaulted (setCause_unfaulted hcut))

/-- The bypass forced at an entry is not stuck after it where it was not before and no command runs. -/
theorem forceBypass_unfaulted (env : Env) (cause : Nat) {d : Dev} (h : Unfaulted d) : Unfaulted (forceBypass env cause d) := by
  unfold forceBypass
  split
  · exact h
  · exact bypassed_unfaulted env (startRemoval_unfaulted env cause h)

end Sys2Proof.Proofs
end

section
/-! Entering and leaving DORMANT and RETENTION (16, R447–R449, R454). -/

namespace Sys2Proof.Proofs

open Sys2Proof.Machine Sys2Proof.Claims Sys2Proof.Laws

/-! ### DORMANT (R448) -/

section
variable {s : State}

theorem reqDormant_begins (hst : s.env.pw.st = .active) (htrans : s.env.pw.trans = .none) (hreset : s.env.pw.resetStep = none) :
    exec .reqDormant s = .next { s with
      env := { s.env with pw := { s.env.pw with trans := .dormant } }
      dev := { s.dev with hqe := { s.dev.hqe with fetchStopped := true }, xpt := { s.dev.xpt with creditHeld := true } } } := by
  change execReqDormant s = _
  simp [execReqDormant, onEnv_next, reqDormant, hst, htrans, hreset, Env.upd]

theorem reqDormant_refused (hst : s.env.pw.st ≠ .active) : NextDev .reqDormant s s.dev := by
  change execReqDormant s = _
  simp [execReqDormant, onEnv_next, reqDormant, hst]

/-- A wake cause gives up the entry to DORMANT, or begins the exit from it. -/
def WakesDormant (i : Instr) (s : State) (cause : Nat) : Prop :=
  (s.env.pw.trans = .dormant → Does i s (fun q => q.env = { s.env with pw := { s.env.pw with trans := .none, wakeCause := cause } } ∧
    q.dev.hqe.fetchStopped = s.dev.hqe.shutdown)) ∧
  (s.env.pw.st = .dormant → s.env.pw.trans = .none → exec i s =
    .next { s with env := { s.env with pw := { s.env.pw with trans := .wakeup, wakeCause := cause } } })

/-- A command that does what a wake cause of DORMANT does. -/
theorem wakesDormant_of_eq {i : Instr} {cause : Nat}
    (h : exec i s = .next { s with env := (wakeDormant cause s.env s.dev).1, dev := (wakeDormant cause s.env s.dev).2 }) :
    WakesDormant i s cause := by
  refine ⟨fun htrans => ⟨_, h, ?_⟩, fun hst htrans => h.trans ?_⟩
  · simp [wakeDormant, htrans]
  · simp [wakeDormant, htrans, hst]

theorem reqActive_wakes (halive : hostAlive s.env = true) : WakesDormant .reqActive s 4 := by
  refine wakesDormant_of_eq ?_
  change execReqActive s = _
  simp [execReqActive, onEnv_next, reqActive, halive]

theorem wakePin_wakes (hst : s.env.pw.st ≠ .retention) (hentering : enteringRetention s.env.pw = false) :
    WakesDormant .wakePin s 3 := by
  refine wakesDormant_of_eq ?_
  change execWakePin s = _
  simp [execWakePin, onEnv_next, hst, hentering]

/-- The demand given is the blower's alone. -/
theorem giveDemand_kept (env : Env) (d : Dev) : (giveDemand env d).mea = d.mea ∧ (giveDemand env d).cpt = d.cpt := by
  unfold giveDemand coastDown
  dsimp only
  split
  · split <;> exact ⟨rfl, rfl⟩
  · exact ⟨rfl, rfl⟩

theorem dormantEntered_enters (htrans : s.env.pw.trans = .dormant) (hquiet : quiet s.dev = true) :
    Does .dormantEntered s (fun q => q.env = { s.env with pw := { s.env.pw with trans := .none, st := .dormant } } ∧
      q.dev.mea = s.dev.mea ∧ q.dev.cpt = s.dev.cpt) := by
  let x := toState .dormant 1 (s.env.upd (fun p => { p with trans := .none }), s.dev)
  have hnext : exec .dormantEntered s = .next { s with env := x.1, dev := giveDemand x.1 x.2 } := by
    change execDormantEntered s = _
    simp [execDormantEntered, onEnv_next, htrans, hquiet, x]
  obtain ⟨hmea, hcpt⟩ := giveDemand_kept x.1 x.2
  exact ⟨_, hnext, rfl, hmea.trans (event_mea ..), hcpt.trans (event_cpt ..)⟩

end

/-! ### A report leaves which flows are open -/

/-- The flows open, by their ids. -/
def flowIds (d : Dev) : List Nat := d.xpt.flows.map (·.1)

theorem markFlows_flowIds (d : Dev) : flowIds (markFlows d) = flowIds d := by
  refine List.map_map.trans (List.map_congr_left fun x _ => ?_)
  dsimp only [Function.comp]
  split <;> rfl

theorem setCause_flowIds (env : Env) (n : Nat) (bits : W32) (d : Dev) : flowIds (setCause env n bits d) = flowIds d := by
  have hraise (e : Dev) : flowIds (attnRaise env e) = flowIds e := by simp only [flowIds, attnRaise_xpt]
  unfold setCause attnEdit
  dsimp only
  split <;> split
  · rfl
  · exact hraise _
  · exact markFlows_flowIds _
  · exact (hraise _).trans (markFlows_flowIds _)

theorem enterOnce_flowIds (env : Env) (b : Bool) (r : Rec) (d : Dev) : flowIds (enterOnce env b r d).1 = flowIds d := by
  have hsev (e : Dev) : flowIds (highSev env r.sev e) = flowIds e := by
    unfold highSev
    split
    · exact setCause_flowIds ..
    · rfl
  unfold enterOnce
  dsimp only
  split
  · exact (setCause_flowIds ..).trans rfl
  · exact (hsev _).trans rfl

theorem enterRec_flowIds (env : Env) (b : Bool) (r : Rec) (d : Dev) : flowIds (enterRec env b r d).1 = flowIds d := by
  have honce := enterOnce_flowIds env b r d
  unfold enterRec
  generalize enterOnce env b r d = x at honce ⊢
  dsimp only
  split
  · split
    · exact honce
    · exact (enterOnce_flowIds ..).trans ((setCause_flowIds ..).trans honce)
  · exact honce

theorem closeWindow_flowIds (env : Env) (code : BitVec 16) (w : RateWin) (d : Dev) :
    flowIds (closeWindow env code w d) = flowIds d := by
  unfold closeWindow
  dsimp only
  split
  · rfl
  · exact (enterRec_flowIds ..).trans rfl

theorem rateGate_flowIds (env : Env) (r : Rec) (d : Dev) : flowIds (rateGate env r d).1 = flowIds d := by
  unfold rateGate
  split
  · rfl
  · split
    · exact closeWindow_flowIds ..
    · split <;> rfl

theorem repeatOrEnter_flowIds (env : Env) (r : Rec) (d : Dev) : flowIds (repeatOrEnter env r d).1 = flowIds d := by
  unfold repeatOrEnter
  split
  · split
    · rfl
    · exact enterRec_flowIds ..
  · exact enterRec_flowIds ..

theorem event_flowIds (env : Env) (code : BitVec 16) (sev cls src p0 p1 p2 : Nat) (d : Dev) :
    flowIds (event env code sev cls src p0 p1 p2 d) = flowIds d := by
  unfold event request
  split
  · dsimp only
    split
    · exact (repeatOrEnter_flowIds ..).trans (rateGate_flowIds ..)
    · exact rateGate_flowIds ..
  · exact repeatOrEnter_flowIds ..

/-! ### The entry to RETENTION (R449) -/

section
variable {s : State}

theorem hostReset_pairs (kind : Nat) (env : Env) (d : Dev) : (hostReset kind env d).hqe.pairs = [] := by
  unfold hostReset
  dsimp only
  rw [event_hqe_pairs]
  split <;> rfl

theorem reqRetention_begins (hst : s.env.pw.st = .active ∨ s.env.pw.st = .dormant) (hentering : enteringRetention s.env.pw = false)
    (hreset : s.env.pw.resetStep = none) : Does .reqRetention s (fun q =>
      q.env = { s.env with pw := { s.env.pw with trans := .retention false, resetStep := none, wakeKept := none } } ∧
      q.dev.hqe.enable = false ∧ q.dev.hqe.pairs = [] ∧ q.dev.hqe.fetchStopped = true ∧ q.dev.xpt.creditHeld = true) := by
  have hnext : exec .reqRetention s =
      .next { s with env := (startRetention false s.env s.dev).1, dev := (startRetention false s.env s.dev).2 } := by
    change execReqRetention s = _
    obtain hst | hst := hst <;> simp [execReqRetention, onEnv_next, reqRetention, hst, hentering, hreset]
  obtain ⟨henable, hfetch, hcredit⟩ := startRetention_stops false s.env s.dev
  have hpairs : (startRetention false s.env s.dev).2.hqe.pairs = [] := by
    simp only [startRetention, hostReset_pairs]
  exact ⟨_, hnext, rfl, henable, hpairs, hfetch, hcredit⟩

theorem reqRetention_refused (hactive : s.env.pw.st ≠ .active) (hdormant : s.env.pw.st ≠ .dormant) :
    NextDev .reqRetention s s.dev := by
  change execReqRetention s = _
  simp [execReqRetention, onEnv_next, reqRetention, hactive, hdormant]

/-- Nothing runs and nothing waits to be answered, so the entry may end. -/
def Quieted (d : Dev) : Prop :=
  d.mea.tasks.all (fun t => !cmdKind t.kind) = true ∧ d.mea.arrivals.all (fun a => a.kind != .host && a.kind != .loop) = true ∧
  (d.trl.recovering = true ∨ d.flt.held.all (fun h => h.settled d) = true)

theorem quieted_ready {d : Dev} (h : Quieted d) :
    ¬ ((!(d.mea.tasks.all (fun t => !cmdKind t.kind) && d.mea.arrivals.all (fun a => a.kind != .host && a.kind != .loop)) ||
      !(d.trl.recovering || d.flt.held.all (fun h => h.settled d))) = true) := by
  obtain ⟨htasks, harrivals, hheld⟩ := h
  rw [htasks, harrivals]
  obtain hheld | hheld := hheld <;> simp [hheld]

/-- The drive with its checkpoint taken and the bypass forced, before VCORE goes off. -/
def retentionReady (thermal : Bool) (env : Env) (d : Dev) : Dev :=
  forceBypass env (if thermal then 4 else 2) (if d.trl.recovering then d else checkpoint env d)

/-- RETENTION entered: VCORE off, DRAM in self-refresh. -/
def retentionReached (thermal : Bool) (env : Env) (d : Dev) : Env × Dev :=
  let d2 := retentionReady thermal env d
  let env1 := env.upd (fun p => { p with
    trans := .none, holdUntil := if thermal then some (env.tick + 300 * Config.second) else none, wakeKept := none,
    selfRefresh := true })
  toState .retention (if thermal then 5 else 1) (env1, keepUnsaved d2 (domainReset false true env1 d2))

section
variable {th : Bool} (htrans : s.env.pw.trans = .retention th) (hquiet : Quieted s.dev)
include htrans hquiet

/-- Flows still open are reset first. -/
theorem retentionEntered_resets_flows (hflows : s.dev.xpt.flows ≠ []) :
    NextDev .retentionEntered s (resetAllFlows s.env s.dev) := by
  change execRetentionEntered s = _
  unfold execRetentionEntered
  rw [onEnv_next]
  dsimp only
  simp only [htrans]
  rw [if_neg (quieted_ready hquiet), if_pos (by simpa using hflows)]

theorem retentionEntered_enters (hflows : s.dev.xpt.flows = []) (hown : ownWaiting s.env s.dev = false)
    (hkept : th = true ∨ s.env.pw.wakeKept = none) : exec .retentionEntered s =
      .next { s with env := (retentionReached th s.env s.dev).1, dev := (retentionReached th s.env s.dev).2 } := by
  change execRetentionEntered s = _
  unfold execRetentionEntered
  rw [onEnv_next]
  dsimp only
  simp only [htrans]
  rw [if_neg (quieted_ready hquiet), if_neg (by simp [hflows]), if_neg (by simp [hown])]
  split
  · next c hc =>
    obtain rfl | hnone := hkept
    · rfl
    · cases hnone.symm.trans hc
  · rfl

end

/-- The bypass is not stuck after the entry where it was not before. -/
theorem retentionReached_bypass {th : Bool} (hquiet : Quieted s.dev) (hbypass : s.dev.cpt.bypass ≠ 3) :
    (retentionReached th s.env s.dev).2.cpt.bypass = 0 := by
  have hready : Unfaulted (retentionReady th s.env s.dev) := by
    refine forceBypass_unfaulted s.env _ ?_
    split
    · exact ⟨hbypass, hquiet.1⟩
    · exact unfaulted_of_bypassMea (checkpoint_bypassMea ..) ⟨hbypass, hquiet.1⟩
  have hbare : (bareSlots (retentionReady th s.env s.dev)).cpt.bypass ≠ 3 := by
    rw [bareSlots, pruneSlots_cpt]
    exact hready.1
  unfold retentionReached toState
  dsimp only
  rw [event_cpt]
  change (resetCpt false (bareSlots (retentionReady th s.env s.dev))).bypass = 0
  simp [resetCpt, hbare]

/-- What the entry to RETENTION leaves: nothing runs, and no program and no flow is kept. -/
theorem retentionReached_clears (th : Bool) (env : Env) (d : Dev) :
    (retentionReached th env d).2.mea.tasks = [] ∧ (retentionReached th env d).2.mea.programs = [] ∧
    (retentionReached th env d).2.xpt.flows = [] ∧ (retentionReached th env d).2.mea.lsShared = [] := by
  unfold retentionReached toState
  dsimp only
  refine ⟨?_, ?_, List.map_eq_nil_iff.mp ((event_flowIds ..).trans rfl), ?_⟩ <;> rw [event_mea] <;> rfl

end

/-! ### Leaving RETENTION (R449, R454) -/

section
variable {s : State}

/-- A wake cause of RETENTION starts bring-up from step 2; DRAM that was not kept is lost. -/
def WakesRetention (i : Instr) (s : State) (cause : Nat) : Prop :=
  Does i s (fun q => q.env.pw.st = .bringup ∧ q.env.pw.bringStep = 1 ∧ q.env.pw.wakeCause = cause ∧ q.env.pw.bringCause = 2 ∧
    (s.env.pw.selfRefresh = true → q.dev.mea.dr = s.dev.mea.dr) ∧ (s.env.pw.selfRefresh = false → q.dev.mea.dr = []))

theorem wakeRetention_dr (cause : Nat) (env : Env) (d : Dev) :
    (wakeRetention cause env d).2.mea.dr = if env.pw.selfRefresh then d.mea.dr else [] := by
  unfold wakeRetention toState
  cases env.pw.selfRefresh <;> simp

/-- A command that is a wake cause, on the same couches. -/
theorem wakesRetention_of_eq {i : Instr} {cause : Nat} {d : Dev} (hmea : d.mea = s.dev.mea) (hst : s.env.pw.st = .retention)
    (hmain : s.env.pw.main = true) (hentering : enteringRetention s.env.pw = false)
    (hhold : ∀ t, s.env.pw.holdUntil = some t → t ≤ s.env.tick)
    (h : exec i s = .next { s with env := (retentionCause cause s.env d).1, dev := (retentionCause cause s.env d).2 }) :
    WakesRetention i s cause := by
  have hwakes : retentionCause cause s.env d = wakeRetention cause s.env d := by
    unfold retentionCause
    rw [if_neg (by simp [hentering])]
    refine if_pos ?_
    cases hwait : s.env.pw.holdUntil with
    | none => simp [hst, hmain]
    | some t => simp [hst, hmain, hhold t hwait]
  rw [hwakes] at h
  refine ⟨_, h, ?_⟩
  dsimp only
  rw [wakeRetention_dr, wakeRetention_env, hmea]
  exact ⟨rfl, rfl, rfl, rfl, fun hkept => if_pos hkept, fun hlost => if_neg (by simp [hlost])⟩

/-- WAKE#, and the rising edge of PERST# however it is seen, wake the drive from RETENTION. -/
theorem retention_wakes (hst : s.env.pw.st = .retention) (hmain : s.env.pw.main = true)
    (hentering : enteringRetention s.env.pw = false) (hhold : ∀ t, s.env.pw.holdUntil = some t → t ≤ s.env.tick) :
    WakesRetention .wakePin s 3 ∧
    (s.dev.hqe.perst = true → WakesRetention .perstRisingEdge s 6 ∧ WakesRetention (.perst false) s 6) := by
  have wakes {i : Instr} {cause : Nat} {d : Dev} (hmea : d.mea = s.dev.mea) := wakesRetention_of_eq (i := i) (cause := cause)
    hmea hst hmain hentering hhold
  refine ⟨wakes (d := s.dev) rfl ?_, fun hperst => ⟨wakes (d := { s.dev with hqe := { s.dev.hqe with perst := false } }) rfl ?_,
    wakes (d := { s.dev with hqe := { s.dev.hqe with perst := false } }) rfl ?_⟩⟩
  · change execWakePin s = _
    simp [execWakePin, onEnv_next, hst]
  · change execPerstRisingEdge s = _
    simp only [execPerstRisingEdge, onEnv_next, hperst, if_true]
    rfl
  · change execPerst false s = _
    simp only [execPerst, onEnv_next, hperst]
    rfl

/-! ### PERST# asserted (R98, R454) -/

theorem controllerReset_perst (kind : Nat) (env : Env) (d : Dev) :
    (controllerReset kind env d).hqe.perst = d.hqe.perst := by
  obtain ⟨l, -, h⟩ := controllerReset_besideCouch kind env d
  simp only [besideCouch, Prod.mk.injEq] at h
  obtain ⟨hhqe, -⟩ := h
  refine (congrArg Hqe.perst hhqe).trans ?_
  unfold hostResetHqe
  dsimp only
  split <;> rfl

theorem perst_asserted (hperst : s.dev.hqe.perst = false) (halive : hostAlive s.env = true) :
    Does (.perst true) s (fun q => q.env = s.env ∧ q.dev.hqe.perst = true ∧ q.dev.hqe.enable = false ∧ q.dev.hqe.pairs = [] ∧
      q.dev.hqe.msix = [] ∧ q.dev.lastReset = 3 ∧ q.dev.cpt = s.dev.cpt) := by
  let d1 : Dev := { s.dev with hqe := { s.dev.hqe with perst := true, linkSpeed := 0, linkWidth := 0 } }
  have hnext : exec (.perst true) s = .next { s with dev := controllerReset 3 s.env d1 } := by
    change execPerst true s = _
    simp [execPerst, onEnv_next, hperst, halive, d1]
  obtain ⟨⟨-, henable, -, hpairs, -, -, hlast, hmsix, -, -, -, -, -, hcpt, -⟩, -⟩ :=
    controllerReset_clears (kind := 3) (msix := []) s.env (d := d1) rfl
  have hpin := controllerReset_perst 3 s.env d1
  refine ⟨_, hnext, ?_⟩
  dsimp only
  exact ⟨rfl, hpin, henable, hpairs, hmsix, hlast, hcpt⟩

end

/-- Settles O47, command by command, in the order of the entries and the ways out. -/
theorem dormantAndRetention : Obligations.DormantAndRetention := by
  intro s t0 th
  dsimp only
  refine ⟨reqDormant_begins, reqDormant_refused, reqActive_wakes, wakePin_wakes, reqRetention_begins, reqRetention_refused,
    dormantEntered_enters, fun hst htrans => ?exit, retentionEntered_resets_flows,
    fun htrans hquiet hflows hown hkept => ?entered, retention_wakes, perst_asserted, fun hhold hdue => ?holdEnd,
    fun hst => ?refreshLost⟩
  case exit =>
    have hexits : (s.env.pw.st == .dormant && s.env.pw.trans == .wakeup) = true := by simp [hst, htrans]
    change ∃ t, execDormantExit s = .next t ∧ _
    unfold execDormantExit
    rw [onEnv_next]
    dsimp only
    rw [if_pos hexits]
    exact ⟨_, rfl, rfl, rfl⟩
  case entered =>
    obtain ⟨htasks, hprograms, hflows', hshared⟩ := retentionReached_clears th s.env s.dev
    exact ⟨_, retentionEntered_enters htrans hquiet hflows hown hkept, rfl, rfl, rfl, rfl, htasks, hprograms, hflows', hshared,
      retentionReached_bypass hquiet⟩
  case holdEnd =>
    change execThermalWakeHoldEnd s = _
    simp [execThermalWakeHoldEnd, onEnv_next, hhold, hdue, Env.upd]
  case refreshLost =>
    change execSelfrefreshLost s = _
    simp [execSelfrefreshLost, onEnv_next, hst, Env.upd]

end Sys2Proof.Proofs
end
